-- ==== Sys2Proof/Word.lean ====
section
/-! DEFINITION. The word types of the machine (00_scope R3: bit 0 is the least significant, bytes are little-endian)
and their plainest arithmetic. -/

namespace Sys2Proof

/-- A byte of memory. -/
abbrev Byte := BitVec 8
/-- A vector lane, a mask register, an FP32 encoding. -/
abbrev W32 := BitVec 32
/-- A scalar register, an address, an instruction word. -/
abbrev W64 := BitVec 64

/-- All 32 lanes. -/
abbrev allLanes : W32 := 0xFFFF_FFFF#32

/-- The lane numbers in ascending order, the order in which lanes are visited (00_scope R7). -/
abbrev lanes : List Nat := List.range 32

/-- Bits [hi:lo] of a number. -/
abbrev bitsOf (n hi lo : Nat) : Nat := n / 2 ^ lo % 2 ^ (hi + 1 - lo)

end Sys2Proof
end

