-- ==== Sys2Proof/Syntax.lean ====
section
/-! DEFINITION. The instructions and events of the machine: one constructor of `Instr` for every row of
spec/opcode_table.json (382), with its operands decoded. Rows that are words carry register numbers and options; rows
that are events of an agent carry the names of the units they act on. -/

namespace Sys2Proof

/-- s0-s63 (R73). -/
abbrev SReg := BitVec 6
/-- v0-v2047 (R73). -/
abbrev VReg := BitVec 11
/-- m0-m15 (R73). -/
abbrev MReg := BitVec 4
/-- t0-t31 (R73). -/
abbrev TileReg := BitVec 5
/-- a0-a31 (R73). -/
abbrev FrameReg := BitVec 5
/-- e0-e7 (R73). -/
abbrev EdgeReg := BitVec 3
/-- tk0-tk7 (R73). -/
abbrev Tok := BitVec 3

/-- PMASK and PINV (R75). -/
structure Pred where
  inv : Bool
  mask : MReg
  deriving DecidableEq, Repr

/-- Scalar operand types, set S (R116). -/
inductive SType where
  | i64 | n64 | i32 | n32
  deriving DecidableEq, Repr

/-- Element types (R77). -/
inductive EType where
  | i32 | n32 | i16 | n16 | i8 | n8 | i4 | n4 | f32 | f16 | bf16 | e4m3 | e5m2 | b1
  deriving DecidableEq, Repr

/-- Conditions of SCMP and VCMP (R122). -/
inductive Cond where
  | eq | ne | lt | le | gt | ge
  deriving DecidableEq, Repr

/-- Conditions of VFCMP (R146). -/
inductive FCond where
  | eq | ne | lt | le | gt | ge | un | ord
  deriving DecidableEq, Repr

/-- Rounding suffix of VFRND (R148). -/
inductive RndSel where
  | ctl | rne | rz | ru | rd
  deriving DecidableEq, Repr

/-- Ordering annotation (R88). -/
inductive Ord where
  | plain | acq | rel | ar
  deriving DecidableEq, Repr

/-- Access width (R88). -/
inductive Width where
  | b8 | b16 | b32 | b64
  deriving DecidableEq, Repr

/-- Scope of an access (R88, R337). -/
inductive Scope where
  | cl | die | pkg | sys
  deriving DecidableEq, Repr

/-- Atomic operations (R209). -/
inductive AtomOp where
  | add | fadd | smin | smax | and | or | xor | xchg
  deriving DecidableEq, Repr

/-- Kinds of FENCE (R90). -/
inductive FenceKind where
  | all | ld | st
  deriving DecidableEq, Repr

/-- Scopes of FENCE (R90). -/
inductive FenceScope where
  | wave | group | core | cl | die | pkg | sys
  deriving DecidableEq, Repr

/-- Operations of MBIN (R292). -/
inductive BinOp where
  | and | xor | pm
  deriving DecidableEq, Repr

/-- Operations of XSIG (R454). -/
inductive SigOp where
  | add | fill | set
  deriving DecidableEq, Repr

/-- Combinations of VRED and VSCAN (R162). -/
inductive RedKind where
  | addI32 | addN32 | minI32 | minN32 | maxI32 | maxN32 | and | or | fadd | xor | fmin | fmax
  deriving DecidableEq, Repr

/-- Units whose ECC the core checks (R193). -/
inductive EccUnit where
  | registerFile | scratchpad | tiles | frames | edges | tagTable | ruleSlots | control
  deriving DecidableEq, Repr

/-- What a patrol read of one 128-byte line finds (R405, R437). -/
inductive ScrubResult where
  | clean | corrected | uncorrectable
  deriving DecidableEq, Repr

/-- Whose PAGE_NOT_PRESENT the Owl services (R409, R228, R450). -/
inductive FaultOwner where
  | wave (w : Nat)
  | copy (core ring : Nat)
  | card (cluster card : Nat)
  | fabric (cmd : Nat)
  deriving DecidableEq, Repr

/-- A scalar unary form without a type. -/
structure SUn where
  p : Pred
  d : SReg
  a : SReg
  deriving DecidableEq, Repr

/-- A scalar unary form with a type. -/
structure SUnT where
  p : Pred
  t : SType
  d : SReg
  a : SReg
  deriving DecidableEq, Repr

/-- A scalar binary form without a type. -/
structure SBin where
  p : Pred
  d : SReg
  a : SReg
  b : SReg
  deriving DecidableEq, Repr

/-- A scalar binary form with a type. -/
structure SBinT where
  p : Pred
  t : SType
  d : SReg
  a : SReg
  b : SReg
  deriving DecidableEq, Repr

/-- A scalar FI form without a type. -/
structure SImm where
  p : Pred
  d : SReg
  a : SReg
  imm : BitVec 17
  deriving DecidableEq, Repr

/-- A scalar FI form with a type. -/
structure SImmT where
  p : Pred
  t : SType
  d : SReg
  a : SReg
  imm : BitVec 17
  deriving DecidableEq, Repr

/-- SLI and SLIX (R121). -/
structure SWide where
  p : Pred
  d : SReg
  imm : BitVec 28
  deriving DecidableEq, Repr

/-- SCMP (R122). -/
structure SCmp where
  p : Pred
  t : SType
  c : Cond
  md : MReg
  a : SReg
  b : SReg
  deriving DecidableEq, Repr

/-- SCMP in FI (R122). -/
structure SCmpI where
  p : Pred
  t : SType
  c : Cond
  md : MReg
  a : SReg
  imm : BitVec 17
  deriving DecidableEq, Repr

/-- MAND, MOR, MXOR (R126). -/
structure MBin where
  p : Pred
  d : MReg
  a : MReg
  b : MReg
  deriving DecidableEq, Repr

/-- A vector unary form with its modifier code (R78). -/
structure VUn where
  p : Pred
  t : EType
  d : VReg
  a : VReg
  ma : BitVec 3
  deriving DecidableEq, Repr

/-- A vector binary form with its modifier codes (R78). -/
structure VBin where
  p : Pred
  t : EType
  d : VReg
  a : VReg
  b : VReg
  ma : BitVec 3
  mb : BitVec 3
  deriving DecidableEq, Repr

/-- A vector FI form; it carries no modifiers (R71). -/
structure VImm where
  p : Pred
  t : EType
  d : VReg
  a : VReg
  imm : BitVec 17
  deriving DecidableEq, Repr

/-- VCMP (R131). -/
structure VCmp where
  p : Pred
  t : EType
  c : Cond
  md : MReg
  a : VReg
  b : VReg
  ma : BitVec 3
  mb : BitVec 3
  deriving DecidableEq, Repr

/-- VCMP in FI (R131). -/
structure VCmpI where
  p : Pred
  t : EType
  c : Cond
  md : MReg
  a : VReg
  imm : BitVec 17
  deriving DecidableEq, Repr

/-- VBFX and VBFI (R134). -/
structure VField where
  p : Pred
  t : EType
  d : VReg
  a : VReg
  sb : SReg
  deriving DecidableEq, Repr

/-- VFCMP (R146). -/
structure VFCmp where
  p : Pred
  t : EType
  c : FCond
  md : MReg
  a : VReg
  b : VReg
  ma : BitVec 3
  mb : BitVec 3
  deriving DecidableEq, Repr

/-- VFCMP in FI (R146). -/
structure VFCmpI where
  p : Pred
  t : EType
  c : FCond
  md : MReg
  a : VReg
  imm : BitVec 17
  deriving DecidableEq, Repr

/-- A special function (R150). -/
structure SpecOp where
  p : Pred
  la : BitVec 4
  d : VReg
  a : VReg
  ma : BitVec 3
  deriving DecidableEq, Repr

/-- VCVT (R151, R152). -/
structure Cvt where
  p : Pred
  dst : EType
  src : EType
  part : BitVec 3
  d : VReg
  a : VReg
  ma : BitVec 3
  rz : Bool
  sat : Bool
  ovnan : Bool
  deriving DecidableEq, Repr

/-- VBCAST and VROT with a scalar lane number (R161). -/
structure LaneSel where
  p : Pred
  t : EType
  d : VReg
  a : VReg
  sb : SReg
  ma : BitVec 3
  deriving DecidableEq, Repr

/-- VBCAST and VROT with an immediate lane number (R161). -/
structure LaneImm where
  p : Pred
  t : EType
  d : VReg
  a : VReg
  n : BitVec 5
  deriving DecidableEq, Repr

/-- VRED and VSCAN (R162). -/
structure RedOp where
  p : Pred
  op : RedKind
  d : VReg
  a : VReg
  ma : BitVec 3
  deriving DecidableEq, Repr

/-- VSEGRED and VSEGSCAN (R164). -/
structure SegOp where
  p : Pred
  t : EType
  d : VReg
  a : VReg
  mb : MReg
  ma : BitVec 3
  deriving DecidableEq, Repr

/-- A vector F3 memory form with an offset vector (R88, R200). -/
structure VMem where
  p : Pred
  la : BitVec 4
  d : VReg
  sa : SReg
  vb : VReg
  scale : BitVec 3
  ord : Ord
  chk : Bool
  w : Width
  scope : Scope
  deriving DecidableEq, Repr

/-- A block F3 memory form with an offset scalar (R200). -/
structure BMem where
  p : Pred
  la : BitVec 4
  d : VReg
  sa : SReg
  sb : SReg
  scale : BitVec 3
  ord : Ord
  chk : Bool
  w : Width
  scope : Scope
  deriving DecidableEq, Repr

/-- A scalar F3 memory form (R200). -/
structure SMem where
  p : Pred
  la : BitVec 4
  d : SReg
  sa : SReg
  sb : SReg
  scale : BitVec 3
  ord : Ord
  chk : Bool
  w : Width
  scope : Scope
  deriving DecidableEq, Repr

/-- A vector or block FI memory form (R89). -/
structure VMemI where
  p : Pred
  la : BitVec 4
  d : VReg
  sa : SReg
  imm : BitVec 17
  w : Width
  scope : Scope
  deriving DecidableEq, Repr

/-- A scalar FI memory form (R89). -/
structure SMemI where
  p : Pred
  la : BitVec 4
  d : SReg
  sa : SReg
  imm : BitVec 17
  w : Width
  scope : Scope
  deriving DecidableEq, Repr

/-- A full/empty form (R212). -/
structure FEOp where
  p : Pred
  la : BitVec 4
  d : SReg
  sa : SReg
  ord : Ord
  scope : Scope
  deriving DecidableEq, Repr

/-- MMA and MBIN (R291). -/
structure MmaOp where
  p : Pred
  la : BitVec 4
  ad : FrameReg
  sc : SReg
  ta : TileReg
  tb : TileReg
  pair : Bool
  deriving DecidableEq, Repr

/-- MREC and MBWD (R295, R296). -/
structure RecOp where
  p : Pred
  la : BitVec 4
  ad : FrameReg
  sa : SReg
  pair : Bool
  rb : Bool
  deriving DecidableEq, Repr

/-- The copy posts (R225). -/
structure CopyOp where
  p : Pred
  la : BitVec 4
  tok : Tok
  sa : SReg
  rows : Bool
  int : Bool
  deriving DecidableEq, Repr

/-- The pairable instructions (R109). -/
inductive PairOp where
  | smov | sadd | ssub | smul | sand | sor | sxor | sshl | sshr | ssra | smin | smax | spopc | sclz
  | mand | mor | mxor | mnot
  | vmov | vadd | vsub | vmul | vmin | vmax | vabsd | vand | vor | vxor | vshl | vshr | vsra | vpopc | vclz | vadds | vsubs
  | vfadd | vfsub | vfmul | vfmin | vfmax
  deriving DecidableEq, Repr

/-- The fields of one slot of a P2 word beside its code (R81). -/
structure Half where
  var : BitVec 3
  d : BitVec 10
  s : BitVec 10
  m : Bool
  deriving DecidableEq, Repr

/-- A word that decodes to no instruction: its bits, its cause code, DETAIL and PAIRY (R110-R112). -/
structure BadWord where
  word : W64
  cause : BitVec 6
  detail : BitVec 8
  pairY : Bool
  deriving DecidableEq, Repr

/-- A request that arrives at a target fabric engine (R446, R449-R454). `cmd` is the command at the source; `skip` names the
8-byte granules, by offset, that the source could not read (R455). -/
structure FabPacket where
  src : BitVec 12
  seqNo : BitVec 32
  job : BitVec 16
  win : BitVec 8
  off : BitVec 44
  sig : SigOp
  len : Nat
  data : List Byte
  skip : List Nat := []
  cmd : Nat
  deriving DecidableEq, Repr

/-- The answer of a target to an XGET (R453): the bytes, or the fault found there with its byte's FA. -/
structure FabReply where
  /-- The node that answers, and its end-to-end sequence number (R446). -/
  src : BitVec 12
  seqNo : BitVec 32
  cmd : Nat
  data : List Byte
  fault : Option (BitVec 6 × BitVec 8)
  addr : W64
  deriving DecidableEq, Repr

/-- A contribution packet of a collective (R461): the tree node (level, index), the 64-byte block, the ranks whose
contributions it holds, and the block's bytes. For OP 4 level 0 carries granule `block` of source `index`, and the count
of a source travels as level 1. -/
structure CollPacket where
  src : BitVec 12
  seqNo : BitVec 32
  job : BitVec 16
  id : BitVec 32
  seq : BitVec 32
  level : Nat
  index : Nat
  block : Nat
  ranks : List Nat
  data : List Byte
  deriving DecidableEq, Repr

/-- A COLLECTIVE_ABORT on its way between nodes (R466): the collective that ends, and the DETAIL of its cause. -/
structure CollAbort where
  src : BitVec 12
  seqNo : BitVec 32
  job : BitVec 16
  id : BitVec 32
  seq : BitVec 32
  detail : BitVec 8
  deriving DecidableEq, Repr

/-- What an event acts on. The step puts it into `State.target` before it executes the event, as it puts the wave, the
slot and the word of an instruction into `State.cur`, `State.slot` and `State.ir`. -/
inductive Target where
  | none
  | wave (w : Nat)
  | window (w : Nat) (k : Nat)
  | core (c : Nat)
  | ring (core : Nat) (ring : Nat)
  | card (cluster : Nat) (card : Nat)
  | queue (die : Nat) (pipe : Nat) (k : Nat)
  | cluster (c : Nat)
  | group (cluster : Nat) (ctx : Nat) (key : W64)
  | die (d : Nat)
  | op (n : Nat)
  | packet (p : FabPacket)
  | reply (r : FabReply)
  | coll (p : CollPacket)
  | collAbort (a : CollAbort)
  | port (p : Nat)
  | link (port : Nat) (peerNode : BitVec 12) (peerPort : BitVec 8)
  | owner (o : FaultOwner)
  | ecc (core : Nat) (unit : EccUnit) (off : Nat)
  | line (n : Nat) (found : ScrubResult)
  | channel (stack : Nat) (channel : Nat)
  | pair (die : Nat) (pair : Nat)
  | ctx (c : Nat)
  | ctxValue (c : Nat) (value : BitVec 8)
  | launch (ctx : Nat) (launch : BitVec 32)
  | register (off : Nat) (nbytes : Nat) (value : W64)
  | memory (pa : Nat) (nbytes : Nat) (write : Bool) (value : W64)
  deriving DecidableEq, Repr

/-- The instructions and events: one constructor for every row of spec/opcode_table.json. First stand the 244 words
with operand fields, in the table's order; then the rows that take their operands from the machine's latches: 18 words
and the 40 `…Pair` words (a whole P2 word whose slot X holds the instruction of the name, R81), whose operands stand in
the current word `State.ir`, and the 80 events, which act on `State.target`. -/
inductive Instr where
  /-- SMOV -/
  | smov (o : SUn)
  /-- SLI -/
  | sli (o : SWide)
  /-- SLIX -/
  | slix (o : SWide)
  /-- SADD -/
  | sadd (o : SBinT)
  /-- SSUB -/
  | ssub (o : SBinT)
  /-- SMUL -/
  | smul (o : SBinT)
  /-- SMUL_I -/
  | smulI (o : SImmT)
  /-- SMULH -/
  | smulh (o : SBinT)
  /-- SDIV -/
  | sdiv (o : SBinT)
  /-- SREM -/
  | srem (o : SBinT)
  /-- SAND -/
  | sand (o : SBin)
  /-- SAND_I -/
  | sandI (o : SImm)
  /-- SOR -/
  | sor (o : SBin)
  /-- SOR_I -/
  | sorI (o : SImm)
  /-- SXOR -/
  | sxor (o : SBin)
  /-- SXOR_I -/
  | sxorI (o : SImm)
  /-- SSHL -/
  | sshl (o : SBinT)
  /-- SSHL_I -/
  | sshlI (o : SImmT)
  /-- SSHR -/
  | sshr (o : SBinT)
  /-- SSHR_I -/
  | sshrI (o : SImmT)
  /-- SSRA -/
  | ssra (o : SBinT)
  /-- SSRA_I -/
  | ssraI (o : SImmT)
  /-- SMIN -/
  | smin (o : SBinT)
  /-- SMIN_I -/
  | sminI (o : SImmT)
  /-- SMAX -/
  | smax (o : SBinT)
  /-- SMAX_I -/
  | smaxI (o : SImmT)
  /-- SCMP -/
  | scmp (o : SCmp)
  /-- SCMP_I -/
  | scmpI (o : SCmpI)
  /-- SSEL -/
  | ssel (o : SBin)
  /-- SPOPC -/
  | spopc (o : SUnT)
  /-- SCLZ -/
  | sclz (o : SUnT)
  /-- SADDI -/
  | saddi (o : SImmT)
  /-- MFSR -/
  | mfsr (p : Pred) (d : SReg) (idx : BitVec 8)
  /-- MTSR -/
  | mtsr (p : Pred) (idx : BitVec 8) (a : SReg)
  /-- SRDV -/
  | srdv (p : Pred) (d : SReg) (va : VReg) (sb : SReg)
  /-- SRDV_I -/
  | srdvI (p : Pred) (d : SReg) (va : VReg) (n : BitVec 5)
  /-- SWRV -/
  | swrv (p : Pred) (vd : VReg) (sa : SReg) (sb : SReg)
  /-- SWRV_I -/
  | swrvI (p : Pred) (vd : VReg) (sa : SReg) (n : BitVec 5)
  /-- MTM -/
  | mtm (p : Pred) (md : MReg) (sa : SReg)
  /-- MFM -/
  | mfm (p : Pred) (d : SReg) (ma : MReg)
  /-- MAND -/
  | mand (o : MBin)
  /-- MOR -/
  | mor (o : MBin)
  /-- MXOR -/
  | mxor (o : MBin)
  /-- MNOT -/
  | mnot (p : Pred) (md : MReg) (ma : MReg)
  /-- MCNT -/
  | mcnt (p : Pred) (d : SReg) (ma : MReg)
  /-- VMOV -/
  | vmov (o : VUn)
  /-- VLI -/
  | vli (p : Pred) (t : EType) (d : VReg) (imm : BitVec 17)
  /-- VADD -/
  | vadd (o : VBin)
  /-- VADD_I -/
  | vaddI (o : VImm)
  /-- VSUB -/
  | vsub (o : VBin)
  /-- VSUB_I -/
  | vsubI (o : VImm)
  /-- VMUL -/
  | vmul (o : VBin)
  /-- VMUL_I -/
  | vmulI (o : VImm)
  /-- VMULH -/
  | vmulh (o : VBin)
  /-- VMAD -/
  | vmad (o : VBin)
  /-- VMIN -/
  | vmin (o : VBin)
  /-- VMIN_I -/
  | vminI (o : VImm)
  /-- VMAX -/
  | vmax (o : VBin)
  /-- VMAX_I -/
  | vmaxI (o : VImm)
  /-- VABSD -/
  | vabsd (o : VBin)
  /-- VAND -/
  | vand (o : VBin)
  /-- VAND_I -/
  | vandI (o : VImm)
  /-- VOR -/
  | vor (o : VBin)
  /-- VOR_I -/
  | vorI (o : VImm)
  /-- VXOR -/
  | vxor (o : VBin)
  /-- VXOR_I -/
  | vxorI (o : VImm)
  /-- VSHL -/
  | vshl (o : VBin)
  /-- VSHL_I -/
  | vshlI (o : VImm)
  /-- VSHR -/
  | vshr (o : VBin)
  /-- VSHR_I -/
  | vshrI (o : VImm)
  /-- VSRA -/
  | vsra (o : VBin)
  /-- VSRA_I -/
  | vsraI (o : VImm)
  /-- VPOPC -/
  | vpopc (o : VUn)
  /-- VCLZ -/
  | vclz (o : VUn)
  /-- VCMP -/
  | vcmp (o : VCmp)
  /-- VCMP_I -/
  | vcmpI (o : VCmpI)
  /-- VSEL -/
  | vsel (o : VBin)
  /-- VADDS -/
  | vadds (o : VBin)
  /-- VADDS_I -/
  | vaddsI (o : VImm)
  /-- VSUBS -/
  | vsubs (o : VBin)
  /-- VSUBS_I -/
  | vsubsI (o : VImm)
  /-- VDOT4 -/
  | vdot4 (o : VBin)
  /-- VBFX -/
  | vbfx (o : VField)
  /-- VBFI -/
  | vbfi (o : VField)
  /-- VLANE -/
  | vlane (p : Pred) (d : VReg)
  /-- VFADD -/
  | vfadd (o : VBin)
  /-- VFADD_I -/
  | vfaddI (o : VImm)
  /-- VFSUB -/
  | vfsub (o : VBin)
  /-- VFSUB_I -/
  | vfsubI (o : VImm)
  /-- VFMUL -/
  | vfmul (o : VBin)
  /-- VFMUL_I -/
  | vfmulI (o : VImm)
  /-- VFMA -/
  | vfma (o : VBin)
  /-- VFMIN -/
  | vfmin (o : VBin)
  /-- VFMIN_I -/
  | vfminI (o : VImm)
  /-- VFMAX -/
  | vfmax (o : VBin)
  /-- VFMAX_I -/
  | vfmaxI (o : VImm)
  /-- VFCMP -/
  | vfcmp (o : VFCmp)
  /-- VFCMP_I -/
  | vfcmpI (o : VFCmpI)
  /-- VFCLS -/
  | vfcls (o : VUn)
  /-- VFRND -/
  | vfrnd (o : VUn) (rm : RndSel)
  /-- VADD2 -/
  | vadd2 (o : VBin)
  /-- VFMA2 -/
  | vfma2 (o : VBin)
  /-- VRCP -/
  | vrcp (o : SpecOp)
  /-- VRSQ -/
  | vrsq (o : SpecOp)
  /-- VSQRT -/
  | vsqrt (o : SpecOp)
  /-- VEXP2 -/
  | vexp2 (o : SpecOp)
  /-- VLOG2 -/
  | vlog2 (o : SpecOp)
  /-- VTANH -/
  | vtanh (o : SpecOp)
  /-- VSIGM -/
  | vsigm (o : SpecOp)
  /-- VSINPI -/
  | vsinpi (o : SpecOp)
  /-- VCOSPI -/
  | vcospi (o : SpecOp)
  /-- VCVT -/
  | vcvt (o : Cvt)
  /-- VCVQ4 -/
  | vcvq4 (p : Pred) (d : VReg) (a : VReg) (sb : SReg)
  /-- VDQ4 -/
  | vdq4 (p : Pred) (d : VReg) (a : VReg) (sb : SReg)
  /-- VSCL -/
  | vscl (o : VBin)
  /-- VSCL_I -/
  | vsclI (p : Pred) (t : EType) (d : VReg) (a : VReg) (code : BitVec 8)
  /-- VGSCL -/
  | vgscl (p : Pred) (d : VReg) (a : VReg)
  /-- VFDOT2 -/
  | vfdot2 (o : VBin)
  /-- VDOT16 -/
  | vdot16 (p : Pred) (d : VReg) (a : VReg) (b : VReg)
  /-- VROPE3 -/
  | vrope3 (p : Pred) (la : BitVec 4) (d : VReg) (a : VReg)
  /-- VSHUF -/
  | vshuf (o : VBin)
  /-- VBCAST -/
  | vbcast (o : LaneSel)
  /-- VBCAST_I -/
  | vbcastI (o : LaneImm)
  /-- VROT -/
  | vrot (o : LaneSel)
  /-- VROT_I -/
  | vrotI (o : LaneImm)
  /-- VRED -/
  | vred (o : RedOp)
  /-- VSCAN -/
  | vscan (o : RedOp)
  /-- VSEGRED -/
  | vsegred (o : SegOp)
  /-- VSEGSCAN -/
  | vsegscan (o : SegOp)
  /-- VCONFL -/
  | vconfl (p : Pred) (t : EType) (md : MReg) (a : VReg)
  /-- VDUPADD -/
  | vdupadd (p : Pred) (t : EType) (d : VReg) (a : VReg) (b : VReg)
  /-- VBAL -/
  | vbal (p : Pred) (idx : Bool) (md : MReg) (a : VReg) (b : VReg)
  /-- VISECT -/
  | visect (p : Pred) (t : EType) (d : VReg) (a : VReg) (b : VReg)
  /-- VMRG -/
  | vmrg (p : Pred) (uns : Bool) (hi : Bool) (idx : Bool) (d : VReg) (a : VReg) (b : VReg)
  /-- VCMPR -/
  | vcmpr (p : Pred) (d : VReg) (a : VReg) (mb : MReg)
  /-- VEXPD -/
  | vexpd (p : Pred) (d : VReg) (a : VReg) (mb : MReg)
  /-- VBALLOT -/
  | vballot (p : Pred) (md : MReg) (a : VReg)
  /-- VANY -/
  | vany (p : Pred) (all : Bool) (md : MReg) (a : VReg)
  /-- KVSLOT -/
  | kvslot (p : Pred) (la : BitVec 4) (d : VReg) (a : VReg) (sb : SReg) (md : MReg)
  /-- VTRIPLE -/
  | vtriple (p : Pred) (la : BitVec 4) (d : VReg) (a : VReg) (n : BitVec 3)
  /-- TOKROUTE -/
  | tokroute (p : Pred) (la : BitVec 4) (d : VReg) (a : VReg) (sb : SReg)
  /-- VLD -/
  | vld (o : VMem)
  /-- VLD_I -/
  | vldI (o : VMemI)
  /-- VST -/
  | vst (o : VMem)
  /-- VST_I -/
  | vstI (o : VMemI)
  /-- VLDB -/
  | vldb (o : BMem)
  /-- VLDB_I -/
  | vldbI (o : VMemI)
  /-- VSTB -/
  | vstb (o : BMem)
  /-- VSTB_I -/
  | vstbI (o : VMemI)
  /-- SLD -/
  | sld (o : SMem)
  /-- SLD_I -/
  | sldI (o : SMemI)
  /-- SST -/
  | sst (o : SMem)
  /-- SST_I -/
  | sstI (o : SMemI)
  /-- VLDS -/
  | vlds (o : VMem)
  /-- VLDS_I -/
  | vldsI (o : VMemI)
  /-- VSTS -/
  | vsts (o : VMem)
  /-- VSTS_I -/
  | vstsI (o : VMemI)
  /-- VLDQ -/
  | vldq (o : VMem)
  /-- VLDQ_I -/
  | vldqI (o : VMemI)
  /-- VSTQ -/
  | vstq (o : VMem) (a16 : Bool)
  /-- VSTQ_I -/
  | vstqI (o : VMemI) (a16 : Bool)
  /-- SPLK -/
  | splk (p : Pred) (d : SReg) (a : SReg)
  /-- SPTAG -/
  | sptag (p : Pred) (a : SReg) (b : SReg)
  /-- SPTAG_INV -/
  | sptagInv (p : Pred) (a : SReg)
  /-- VATOM -/
  | vatom (o : VMem) (op : AtomOp)
  /-- SATOM -/
  | satom (o : SMem) (op : AtomOp)
  /-- VATOMS -/
  | vatoms (o : VMem) (op : AtomOp)
  /-- VCAS -/
  | vcas (o : VMem)
  /-- SCAS -/
  | scas (o : SMem)
  /-- LFULL -/
  | lfull (o : FEOp)
  /-- LFULL_TAKE -/
  | lfullTake (o : FEOp)
  /-- SFULL -/
  | sfull (o : FEOp)
  /-- SFULL_NB -/
  | sfullNb (o : FEOp) (md : MReg)
  /-- FEMPTY -/
  | fempty (o : FEOp)
  /-- FENCE -/
  | fence (p : Pred) (kind : FenceKind) (scope : FenceScope) (eng : Bool)
  /-- TXBEGIN -/
  | txbegin (p : Pred) (dist : BitVec 11) (cl : Bool)
  /-- FORKPG -/
  | forkpg (p : Pred) (la : BitVec 4) (d : SReg) (a : SReg) (b : SReg)
  /-- MOVTC -/
  | movtc (p : Pred) (la : BitVec 4) (td : TileReg) (sa : SReg)
  /-- MOVFTC -/
  | movftc (p : Pred) (la : BitVec 4) (d : SReg) (ta : TileReg)
  /-- TLD -/
  | tld (p : Pred) (la : BitVec 4) (td : TileReg) (sa : SReg)
  /-- TST -/
  | tst (p : Pred) (la : BitVec 4) (sa : SReg) (tb : TileReg)
  /-- TZERO -/
  | tzero (p : Pred) (la : BitVec 4) (td : TileReg)
  /-- TLDV -/
  | tldv (p : Pred) (la : BitVec 4) (td : TileReg) (va : VReg) (sb : SReg)
  /-- MMA -/
  | mma (o : MmaOp)
  /-- MBIN -/
  | mbin (o : MmaOp) (op : BinOp)
  /-- MRULE -/
  | mrule (p : Pred) (la : BitVec 4) (epi : Bool) (slotNo : BitVec 3) (sa : SReg) (sb : SReg)
  /-- MREC -/
  | mrec (o : RecOp) (ac : Option FrameReg) (tb : Bool)
  /-- MBWD -/
  | mbwd (o : RecOp) (ah : FrameReg)
  /-- MEPI -/
  | mepi (p : Pred) (la : BitVec 4) (ad : FrameReg) (af : FrameReg) (sc : SReg)
  /-- AZERO -/
  | azero (p : Pred) (la : BitVec 4) (ad : FrameReg)
  /-- ALD -/
  | ald (p : Pred) (la : BitVec 4) (sp : Bool) (ad : FrameReg) (sa : SReg) (sb : SReg)
  /-- AST -/
  | ast (p : Pred) (la : BitVec 4) (sp : Bool) (sa : SReg) (af : FrameReg) (sb : SReg)
  /-- AMOV -/
  | amov (p : Pred) (la : BitVec 4) (ad : FrameReg) (af : FrameReg)
  /-- ACALLOC -/
  | acalloc (p : Pred) (la : BitVec 4) (d : SReg) (sa : SReg)
  /-- ACALLOC_NB -/
  | acallocNb (p : Pred) (la : BitVec 4) (d : SReg) (sa : SReg)
  /-- ACFREE -/
  | acfree (p : Pred) (la : BitVec 4) (sa : SReg)
  /-- ELD -/
  | eld (p : Pred) (la : BitVec 4) (sp : Bool) (ed : EdgeReg) (sa : SReg)
  /-- EST -/
  | est (p : Pred) (la : BitVec 4) (sp : Bool) (sa : SReg) (eb : EdgeReg)
  /-- STEXP -/
  | stexp (p : Pred) (la : BitVec 4) (vd : VReg) (sa : SReg) (sb : SReg)
  /-- STIMP -/
  | stimp (p : Pred) (la : BitVec 4) (vd : VReg) (sa : SReg) (sb : SReg)
  /-- CPY -/
  | cpy (o : CopyOp) (out : Bool)
  /-- CGATH -/
  | cgath (o : CopyOp) (fmt : BitVec 4)
  /-- CSCAT -/
  | cscat (o : CopyOp) (fmt : BitVec 4)
  /-- CEXP -/
  | cexp (o : CopyOp) (fmt : BitVec 4)
  /-- CPACK -/
  | cpack (o : CopyOp) (fmt : BitVec 4)
  /-- CPOST -/
  | cpost (p : Pred) (la : BitVec 4) (sa : SReg)
  /-- CPOST_BIND -/
  | cpostBind (p : Pred) (la : BitVec 4) (sa : SReg)
  /-- WAITTK_REG -/
  | waittkReg (p : Pred) (sa : SReg)
  /-- TKINT_REG -/
  | tkintReg (p : Pred) (group : Bool) (sa : SReg)
  /-- CHAIN -/
  | chain (p : Pred) (la : BitVec 4) (sa : SReg) (sb : SReg)
  /-- CHWAIT -/
  | chwait (p : Pred) (sa : SReg) (sb : SReg)
  /-- GJOIN -/
  | gjoin (p : Pred) (d : SReg) (sa : SReg)
  /-- GBAR_ROLE -/
  | gbarRole (p : Pred) (sa : SReg)
  /-- GBAR_ROLE_I -/
  | gbarRoleI (p : Pred) (role : BitVec 3)
  /-- GBAR_ROWS -/
  | gbarRows (p : Pred) (sa : SReg)
  /-- GBAR_ROWS_I -/
  | gbarRowsI (p : Pred) (n : BitVec 17)
  /-- VSYNC -/
  | vsync (p : Pred) (va : VReg)
  /-- GELECT -/
  | gelect (p : Pred) (md : MReg) (sa : SReg)
  /-- GELECT_I -/
  | gelectI (p : Pred) (md : MReg) (role : BitVec 3)
  /-- SPAWN -/
  | spawn (p : Pred) (la : BitVec 4) (sa : SReg)
  /-- SPAWN_PIPE -/
  | spawnPipe (p : Pred) (la : BitVec 4) (sa : SReg)
  /-- QPUSH -/
  | qpush (p : Pred) (la : BitVec 4) (sa : SReg) (sb : SReg)
  /-- QPUSH_CLOSE -/
  | qpushClose (p : Pred) (la : BitVec 4) (sa : SReg)
  /-- QPOP -/
  | qpop (p : Pred) (la : BitVec 4) (d : SReg) (md : MReg) (sa : SReg)
  /-- TMERGE -/
  | tmerge (p : Pred) (la : BitVec 4) (d : SReg) (sa : SReg)
  /-- TUNMERGE -/
  | tunmerge (p : Pred) (la : BitVec 4) (sa : SReg)
  /-- SWMV -/
  | swmv (p : Pred) (la : BitVec 4) (d : SReg) (sa : SReg)
  /-- SWMIG -/
  | swmig (p : Pred) (la : BitVec 4) (d : SReg) (sa : SReg) (sb : SReg)
  /-- SWAGE -/
  | swage (p : Pred) (la : BitVec 4) (sa : SReg)
  /-- XPUT -/
  | xput (p : Pred) (la : BitVec 4) (tok : Tok) (sa : SReg)
  /-- XGET_B64 -/
  | xgetB64 (p : Pred) (la : BitVec 4) (d : SReg) (sa : SReg)
  /-- XGET_BLK -/
  | xgetBlk (p : Pred) (la : BitVec 4) (sa : SReg)
  /-- XSIG -/
  | xsig (p : Pred) (la : BitVec 4) (op : SigOp) (tok : Tok) (sa : SReg) (sb : SReg)
  /-- XCOLL -/
  | xcoll (p : Pred) (la : BitVec 4) (sa : SReg)
  /-- XWAIT -/
  | xwait (p : Pred) (sa : SReg)
  /-- BR -/
  | br (p : Pred) (dist : BitVec 11) (off : BitVec 28)
  /-- BRU -/
  | bru (p : Pred) (off : BitVec 28)
  /-- JMP -/
  | jmp (p : Pred) (off : BitVec 28)
  /-- JMP_REG -/
  | jmpReg (p : Pred) (sa : SReg)
  /-- CALL -/
  | call (p : Pred) (d : SReg) (off : BitVec 28)
  /-- CALL_REG -/
  | callReg (p : Pred) (d : SReg) (sa : SReg)
  /-- RET -/
  | ret (p : Pred) (sa : SReg)
  /-- LOOP -/
  | loop (p : Pred) (d : SReg) (off : BitVec 28)
  /-- TLBINV -/
  | tlbinv (p : Pred) (sa : SReg) (sb : SReg)
  /-- NOP -/
  | nop
  /-- WAKE_RESUME -/
  | wakeResume
  /-- WAKE_KILL -/
  | wakeKill
  /-- TXEND -/
  | txend
  /-- TXABORT -/
  | txabort
  /-- MWAIT -/
  | mwait
  /-- WAITTK -/
  | waittk
  /-- TKINT -/
  | tkint
  /-- UIRET -/
  | uiret
  /-- GLEAVE -/
  | gleave
  /-- GBAR -/
  | gbar
  /-- CKPT -/
  | ckpt
  /-- TDONE -/
  | tdone
  /-- EXIT -/
  | exit
  /-- TRAP -/
  | trap
  /-- BRK -/
  | brk
  /-- ERET -/
  | eret
  /-- HALT -/
  | halt
  /-- SMOV_PAIR -/
  | smovPair
  /-- SADD_PAIR -/
  | saddPair
  /-- SSUB_PAIR -/
  | ssubPair
  /-- SMUL_PAIR -/
  | smulPair
  /-- SAND_PAIR -/
  | sandPair
  /-- SOR_PAIR -/
  | sorPair
  /-- SXOR_PAIR -/
  | sxorPair
  /-- SSHL_PAIR -/
  | sshlPair
  /-- SSHR_PAIR -/
  | sshrPair
  /-- SSRA_PAIR -/
  | ssraPair
  /-- SMIN_PAIR -/
  | sminPair
  /-- SMAX_PAIR -/
  | smaxPair
  /-- SPOPC_PAIR -/
  | spopcPair
  /-- SCLZ_PAIR -/
  | sclzPair
  /-- MAND_PAIR -/
  | mandPair
  /-- MOR_PAIR -/
  | morPair
  /-- MXOR_PAIR -/
  | mxorPair
  /-- MNOT_PAIR -/
  | mnotPair
  /-- VMOV_PAIR -/
  | vmovPair
  /-- VADD_PAIR -/
  | vaddPair
  /-- VSUB_PAIR -/
  | vsubPair
  /-- VMUL_PAIR -/
  | vmulPair
  /-- VMIN_PAIR -/
  | vminPair
  /-- VMAX_PAIR -/
  | vmaxPair
  /-- VABSD_PAIR -/
  | vabsdPair
  /-- VAND_PAIR -/
  | vandPair
  /-- VOR_PAIR -/
  | vorPair
  /-- VXOR_PAIR -/
  | vxorPair
  /-- VSHL_PAIR -/
  | vshlPair
  /-- VSHR_PAIR -/
  | vshrPair
  /-- VSRA_PAIR -/
  | vsraPair
  /-- VPOPC_PAIR -/
  | vpopcPair
  /-- VCLZ_PAIR -/
  | vclzPair
  /-- VADDS_PAIR -/
  | vaddsPair
  /-- VSUBS_PAIR -/
  | vsubsPair
  /-- VFADD_PAIR -/
  | vfaddPair
  /-- VFSUB_PAIR -/
  | vfsubPair
  /-- VFMUL_PAIR -/
  | vfmulPair
  /-- VFMIN_PAIR -/
  | vfminPair
  /-- VFMAX_PAIR -/
  | vfmaxPair
  /-- TX_CONFLICT_ABORT -/
  | txConflictAbort
  /-- ARRAY_OP_START -/
  | arrayOpStart
  /-- ARRAY_OP_COMMIT -/
  | arrayOpCommit
  /-- ARRAY_RESIDUE_ERROR -/
  | arrayResidueError
  /-- ARRAY_UNCORRECTABLE -/
  | arrayUncorrectable
  /-- COPY_ENTRY_START -/
  | copyEntryStart
  /-- COPY_COMPLETION -/
  | copyCompletion
  /-- USER_INTERRUPT_DELIVERY -/
  | userInterruptDelivery
  /-- CARD_START -/
  | cardStart
  /-- CARD_COMPLETION -/
  | cardCompletion
  /-- QUEUE_AUTO_CLOSE -/
  | queueAutoClose
  /-- MERGE_COMPLETION -/
  | mergeCompletion
  /-- SWMV_COMPLETION -/
  | swmvCompletion
  /-- AUTOMATIC_AGEING -/
  | automaticAgeing
  /-- SPLIT_INSTANT_ACT -/
  | splitInstantAct
  /-- FABRIC_TARGET_WRITE -/
  | fabricTargetWrite
  /-- FABRIC_TARGET_SIGNAL -/
  | fabricTargetSignal
  /-- FABRIC_TARGET_READ -/
  | fabricTargetRead
  /-- XGET_REPLY -/
  | xgetReply
  /-- COLLECTIVE_PACKET -/
  | collectivePacket
  /-- COLLECTIVE_COMPLETION -/
  | collectiveCompletion
  /-- COLLECTIVE_ABORT -/
  | collectiveAbort
  /-- FLIT_CRC_FAIL -/
  | flitCrcFail
  /-- ROUTE_FAILURE -/
  | routeFailure
  /-- LANE_FAILURE -/
  | laneFailure
  /-- ILLEGAL_WORD -/
  | illegalWord
  /-- LONG_LATENCY_COMPLETION -/
  | longLatencyCompletion
  /-- WAVE_RELEASE -/
  | waveRelease
  /-- GROUP_HALT_DELIVERY -/
  | groupHaltDelivery
  /-- GROUP_RESUME -/
  | groupResume
  /-- PREEMPTION_REQUEST -/
  | preemptionRequest
  /-- COMPAT_SWAP_OUT -/
  | compatSwapOut
  /-- PAGE_FAULT_SERVICED -/
  | pageFaultServiced
  /-- PAGE_MAP_DECLINED -/
  | pageMapDeclined
  /-- REPLAY_LIMIT -/
  | replayLimit
  /-- COPY_DONE -/
  | copyDone
  /-- COPY_FAULT -/
  | copyFault
  /-- CARD_DONE -/
  | cardDone
  /-- TRAP_RECORD -/
  | trapRecord
  /-- RETIRED -/
  | retired
  /-- BLOCKED -/
  | blocked
  /-- ARRAY_REPLAY -/
  | arrayReplay
  /-- ECC_CORRECTED -/
  | eccCorrected
  /-- ECC_POISON -/
  | eccPoison
  /-- UINT -/
  | uint
  /-- TRAP_QUEUE_RELEASE -/
  | trapQueueRelease
  /-- SINGLE_BIT_ERROR -/
  | singleBitError
  /-- UNCORRECTABLE_ERROR -/
  | uncorrectableError
  /-- MACHINE_CHECK -/
  | machineCheck
  /-- PATROL_SCRUB -/
  | patrolScrub
  /-- PSEUDO_CHANNEL_SPARING -/
  | pseudoChannelSparing
  /-- CORE_PAIR_RETIREMENT -/
  | corePairRetirement
  /-- CLOCK_THROTTLE -/
  | clockThrottle
  /-- RESET_BOOT -/
  | resetBoot
  /-- DISPATCH_ROUND -/
  | dispatchRound
  /-- RECORD_RESERVING -/
  | recordReserving
  /-- LAUNCH_DRAIN -/
  | launchDrain
  /-- INTERRUPT_COUNT_REACHED -/
  | interruptCountReached
  /-- INTERRUPT_WINDOW_EXPIRY -/
  | interruptWindowExpiry
  /-- DOORBELL -/
  | doorbell
  /-- KILL -/
  | kill
  /-- CTXCTL_LIVE -/
  | ctxctlLive
  /-- CTXCTL_RETIRE -/
  | ctxctlRetire
  /-- REGISTER_WRITE -/
  | registerWrite
  /-- HOST_ACCESS -/
  | hostAccess
  /-- SETNODE -/
  | setnode
  /-- SETROUTE -/
  | setroute
  /-- BINDJOB_BIND -/
  | bindjobBind
  /-- BINDJOB_UNBIND -/
  | bindjobUnbind
  /-- EXPORT -/
  | windowExport
  /-- UNEXPORT -/
  | windowUnexport
  /-- EXTENDMR -/
  | extendmr
  /-- ATTEST -/
  | attest
  /-- READPORT -/
  | readport
  /-- FWSTAGE -/
  | fwstage
  /-- FWACTIVATE -/
  | fwactivate
  /-- RAISESVN -/
  | raisesvn
  /-- FABRIC_COMMAND_COMPLETION -/
  | fabricCommandCompletion
  /-- LINK_TRAINED -/
  | linkTrained
  /-- OWL_FIRMWARE_REPLACED -/
  | owlFirmwareReplaced
  deriving DecidableEq, Repr

/-- An event and what it acts on: an input from outside, or an action of an agent. -/
structure Event where
  name : Instr
  target : Target
  deriving DecidableEq, Repr

end Sys2Proof
end

