-- ==== Sys2Proof/Decode.lean ====
section
/-! DEFINITION. The instruction word: the three forms (03_instruction_word R68-R90), the opcode and pair maps
(05_opcode_map R104-R109), what a word that is no instruction does (R110-R112), and the encoder written from the same
tables. -/

namespace Sys2Proof

/-! ### Codes of the enumerations -/

/-- R116: VAR codes of set S. -/
def STypes.ofCode (c : BitVec 4) : Option SType :=
  match c.toNat with
  | 0 => some .i64 | 1 => some .n64 | 2 => some .i32 | 3 => some .n32 | _ => none

def SType.code : SType → BitVec 4
  | .i64 => 0 | .n64 => 1 | .i32 => 2 | .n32 => 3

/-- R77: VAR codes of the element types; 0xE and 0xF are reserved. -/
def ETypes.ofCode (c : BitVec 4) : Option EType :=
  match c.toNat with
  | 0 => some .i32 | 1 => some .n32 | 2 => some .i16 | 3 => some .n16 | 4 => some .i8 | 5 => some .n8
  | 6 => some .i4 | 7 => some .n4 | 8 => some .f32 | 9 => some .f16 | 10 => some .bf16 | 11 => some .e4m3
  | 12 => some .e5m2 | 13 => some .b1 | _ => none

def EType.code : EType → BitVec 4
  | .i32 => 0 | .n32 => 1 | .i16 => 2 | .n16 => 3 | .i8 => 4 | .n8 => 5 | .i4 => 6 | .n4 => 7
  | .f32 => 8 | .f16 => 9 | .bf16 => 10 | .e4m3 => 11 | .e5m2 => 12 | .b1 => 13

/-- Element width in bits of a type's view (R77); one bit for .b1. -/
def EType.width : EType → Nat
  | .i32 | .n32 | .f32 => 32
  | .i16 | .n16 | .f16 | .bf16 => 16
  | .i8 | .n8 | .e4m3 | .e5m2 => 8
  | .i4 | .n4 => 4
  | .b1 => 1

def EType.isFloat : EType → Bool
  | .f32 | .f16 | .bf16 | .e4m3 | .e5m2 => true
  | _ => false

def EType.isSigned : EType → Bool
  | .i32 | .i16 | .i8 | .i4 => true
  | _ => false

/-- The sets of R114. -/
def EType.inI : EType → Bool
  | .i32 | .n32 | .i16 | .n16 | .i8 | .n8 | .i4 | .n4 => true
  | _ => false

def EType.inI32 : EType → Bool
  | .i32 | .n32 => true
  | _ => false

def EType.inF : EType → Bool
  | .f32 | .f16 | .bf16 => true
  | _ => false

/-- R122. -/
def Conds.ofCode (c : BitVec 3) : Option Cond :=
  match c.toNat with
  | 0 => some .eq | 1 => some .ne | 2 => some .lt | 3 => some .le | 4 => some .gt | 5 => some .ge | _ => none

def Cond.code : Cond → BitVec 3
  | .eq => 0 | .ne => 1 | .lt => 2 | .le => 3 | .gt => 4 | .ge => 5

/-- R146. -/
def FConds.ofCode (c : BitVec 3) : FCond :=
  match c.toNat with
  | 0 => .eq | 1 => .ne | 2 => .lt | 3 => .le | 4 => .gt | 5 => .ge | 6 => .un | _ => .ord

def FCond.code : FCond → BitVec 3
  | .eq => 0 | .ne => 1 | .lt => 2 | .le => 3 | .gt => 4 | .ge => 5 | .un => 6 | .ord => 7

/-- R148. -/
def RndSels.ofCode (c : BitVec 3) : Option RndSel :=
  match c.toNat with
  | 0 => some .ctl | 1 => some .rne | 2 => some .rz | 3 => some .ru | 4 => some .rd | _ => none

def RndSel.code : RndSel → BitVec 3
  | .ctl => 0 | .rne => 1 | .rz => 2 | .ru => 3 | .rd => 4

/-- R88: MODA[1:0]. -/
def Ords.ofCode (c : BitVec 2) : Ord :=
  match c.toNat with
  | 0 => .plain | 1 => .acq | 2 => .rel | _ => .ar

def Ord.code : Ord → BitVec 2
  | .plain => 0 | .acq => 1 | .rel => 2 | .ar => 3

/-- R88: VAR[3:2]. -/
def Widths.ofCode (c : BitVec 2) : Width :=
  match c.toNat with
  | 0 => .b8 | 1 => .b16 | 2 => .b32 | _ => .b64

def Width.code : Width → BitVec 2
  | .b8 => 0 | .b16 => 1 | .b32 => 2 | .b64 => 3

/-- R88: VAR[1:0]. -/
def Scopes.ofCode (c : BitVec 2) : Scope :=
  match c.toNat with
  | 0 => .cl | 1 => .die | 2 => .pkg | _ => .sys

def Scope.code : Scope → BitVec 2
  | .cl => 0 | .die => 1 | .pkg => 2 | .sys => 3

/-- R209: MODB. -/
def AtomOps.ofCode (c : BitVec 3) : AtomOp :=
  match c.toNat with
  | 0 => .add | 1 => .fadd | 2 => .smin | 3 => .smax | 4 => .and | 5 => .or | 6 => .xor | _ => .xchg

def AtomOp.code : AtomOp → BitVec 3
  | .add => 0 | .fadd => 1 | .smin => 2 | .smax => 3 | .and => 4 | .or => 5 | .xor => 6 | .xchg => 7

/-- R90. -/
def FenceKinds.ofCode (c : BitVec 3) : Option FenceKind :=
  match c.toNat with
  | 0 => some .all | 1 => some .ld | 2 => some .st | _ => none

def FenceKind.code : FenceKind → BitVec 3
  | .all => 0 | .ld => 1 | .st => 2

/-- R90. -/
def FenceScopes.ofCode (c : BitVec 3) : Option FenceScope :=
  match c.toNat with
  | 0 => some .wave | 1 => some .group | 2 => some .core | 3 => some .cl | 4 => some .die | 5 => some .pkg
  | 6 => some .sys | _ => none

def FenceScope.code : FenceScope → BitVec 3
  | .wave => 0 | .group => 1 | .core => 2 | .cl => 3 | .die => 4 | .pkg => 5 | .sys => 6

/-- R292. -/
def BinOps.ofCode (c : BitVec 2) : Option BinOp :=
  match c.toNat with
  | 0 => some .and | 1 => some .xor | 2 => some .pm | _ => none

def BinOp.code : BinOp → BitVec 2
  | .and => 0 | .xor => 1 | .pm => 2

/-- R454. -/
def SigOps.ofCode (c : BitVec 4) : Option SigOp :=
  match c.toNat with
  | 0 => some .add | 1 => some .fill | 2 => some .set | _ => none

def SigOp.code : SigOp → BitVec 4
  | .add => 0 | .fill => 1 | .set => 2

/-- R162. -/
def RedKinds.ofCode (c : BitVec 4) : Option RedKind :=
  match c.toNat with
  | 0 => some .addI32 | 1 => some .addN32 | 2 => some .minI32 | 3 => some .minN32 | 4 => some .maxI32
  | 5 => some .maxN32 | 6 => some .and | 7 => some .or | 8 => some .fadd | 9 => some .xor | 10 => some .fmin
  | 11 => some .fmax | _ => none

def RedKind.code : RedKind → BitVec 4
  | .addI32 => 0 | .addN32 => 1 | .minI32 => 2 | .minN32 => 3 | .maxI32 => 4 | .maxN32 => 5 | .and => 6 | .or => 7
  | .fadd => 8 | .xor => 9 | .fmin => 10 | .fmax => 11

/-- The 40 legal pair codes (R109). -/
def PairOps.ofCode (c : BitVec 7) : Option PairOp :=
  match c.toNat with
  | 0x01 => some .smov | 0x04 => some .sadd | 0x05 => some .ssub | 0x06 => some .smul
  | 0x0A => some .sand | 0x0B => some .sor | 0x0C => some .sxor | 0x0D => some .sshl | 0x0E => some .sshr
  | 0x0F => some .ssra | 0x10 => some .smin | 0x11 => some .smax | 0x14 => some .spopc | 0x15 => some .sclz
  | 0x1D => some .mand | 0x1E => some .mor | 0x1F => some .mxor | 0x20 => some .mnot
  | 0x40 => some .vmov | 0x42 => some .vadd | 0x43 => some .vsub | 0x44 => some .vmul
  | 0x47 => some .vmin | 0x48 => some .vmax | 0x49 => some .vabsd | 0x4A => some .vand | 0x4B => some .vor
  | 0x4C => some .vxor | 0x4D => some .vshl | 0x4E => some .vshr | 0x4F => some .vsra
  | 0x50 => some .vpopc | 0x51 => some .vclz | 0x54 => some .vadds | 0x55 => some .vsubs
  | 0x60 => some .vfadd | 0x61 => some .vfsub | 0x62 => some .vfmul | 0x64 => some .vfmin | 0x65 => some .vfmax
  | _ => none

def PairOp.code : PairOp → BitVec 7
  | .smov => 0x01 | .sadd => 0x04 | .ssub => 0x05 | .smul => 0x06
  | .sand => 0x0A | .sor => 0x0B | .sxor => 0x0C | .sshl => 0x0D | .sshr => 0x0E
  | .ssra => 0x0F | .smin => 0x10 | .smax => 0x11 | .spopc => 0x14 | .sclz => 0x15
  | .mand => 0x1D | .mor => 0x1E | .mxor => 0x1F | .mnot => 0x20
  | .vmov => 0x40 | .vadd => 0x42 | .vsub => 0x43 | .vmul => 0x44
  | .vmin => 0x47 | .vmax => 0x48 | .vabsd => 0x49 | .vand => 0x4A | .vor => 0x4B
  | .vxor => 0x4C | .vshl => 0x4D | .vshr => 0x4E | .vsra => 0x4F
  | .vpopc => 0x50 | .vclz => 0x51 | .vadds => 0x54 | .vsubs => 0x55
  | .vfadd => 0x60 | .vfsub => 0x61 | .vfmul => 0x62 | .vfmin => 0x64 | .vfmax => 0x65

/-- What the two register fields of a pair slot name (R109). -/
inductive PairKind where
  | scalar | mask | vecInt | vecFloat
  deriving DecidableEq, Repr

def PairOp.kind : PairOp → PairKind
  | .smov | .sadd | .ssub | .smul | .sand | .sor | .sxor | .sshl | .sshr | .ssra | .smin | .smax | .spopc | .sclz => .scalar
  | .mand | .mor | .mxor | .mnot => .mask
  | .vmov | .vadd | .vsub | .vmul | .vmin | .vmax | .vabsd | .vand | .vor | .vxor | .vshl | .vshr | .vsra | .vpopc
  | .vclz | .vadds | .vsubs => .vecInt
  | .vfadd | .vfsub | .vfmul | .vfmin | .vfmax => .vecFloat

/-- A unary pair slot computes d := op s (R86). -/
def PairOp.unary : PairOp → Bool
  | .smov | .spopc | .sclz | .mnot | .vmov | .vpopc | .vclz => true
  | _ => false

/-- Pairable operations whose operands are bit patterns (R80, R115). -/
def PairOp.bitPattern : PairOp → Bool
  | .vand | .vor | .vxor | .vshl | .vshr | .vsra | .vpopc | .vclz => true
  | _ => false

/-- The full variant of a pair slot (R84). -/
def PairOp.eType (op : PairOp) (v : BitVec 3) : Option EType :=
  match op.kind with
  | .vecFloat => ETypes.ofCode (8 + v.setWidth 4)
  | _ => ETypes.ofCode (v.setWidth 4)

/-- R83: the vector register that a field of slot X or Y names. -/
def pairVReg (isY : Bool) (f : BitVec 10) : VReg :=
  BitVec.ofNat 11 (f.toNat / 4 * 8 + (if isY then 4 else 0) + f.toNat % 4)

/-! ### Checks -/

/-- One check of a word: whether it holds, and the cause code and DETAIL it records when it does not (R110-R112);
`y` marks a check of slot Y of a P2 word. -/
structure Check where
  ok : Bool
  cause : Nat
  detail : Nat
  y : Bool := false
  deriving DecidableEq, Repr

/-- ILLEGAL_FIELD with the DETAIL of R112. -/
abbrev field (detail : Nat) (ok : Bool) : Check := ⟨ok, 3, detail, false⟩
/-- ILLEGAL_MODIFIER with the DETAIL of R112. -/
abbrev modf (detail : Nat) (ok : Bool) : Check := ⟨ok, 4, detail, false⟩
/-- ILLEGAL_PAIR. -/
abbrev pairf (detail : Nat) (ok : Bool) : Check := ⟨ok, 5, detail, false⟩

/-- The checks that do not hold. -/
def failing (cs : List Check) : List Check := cs.filter (fun c => !c.ok)

/-- R78, R80: the modifier codes of a type's view. -/
def modOk (t : EType) (c : BitVec 3) : Bool :=
  match t.width with
  | 32 => c.toNat < 4
  | 16 => true
  | 8 => c.toNat < 5
  | 4 => true
  | _ => c == 0

/-- R115: the selection entries of a type's view. -/
def selOk (t : EType) (c : BitVec 3) : Bool :=
  match t.width with
  | 32 => c == 0
  | 16 => c.toNat < 4
  | 8 => c.toNat < 5
  | 4 => true
  | _ => c == 0

/-- Elements in a register of a type; 32 for .b1. -/
def EType.elems (t : EType) : Nat := 32 / t.width

/-- R151, R152: the fields of VCVT. -/
def Cvt.checks (o : Cvt) : List Check :=
  let n := min o.dst.elems o.src.elems
  let ratio := max o.dst.elems o.src.elems / n
  [field 5 (o.dst != .b1), field 4 (o.src != .b1), field 4 (o.dst != o.src), field 4 (o.dst == .b1 || o.part.toNat < ratio),
   modf 1 (selOk o.src o.ma),
   modf 2 (!o.rz || (o.src.isFloat && !o.dst.isFloat)),
   modf 2 (!o.sat || (!o.src.isFloat && !o.dst.isFloat && o.dst.width < o.src.width)),
   modf 2 (!o.ovnan || (o.dst == .e4m3 || o.dst == .e5m2))]

/-- The checks of one slot of a P2 word whose code is legal (R83-R85, R111). -/
def halfChecks (op : PairOp) (h : Half) (isY : Bool) : List Check :=
  let f (detail : Nat) (ok : Bool) : Check := ⟨ok, 3, detail, isY⟩
  let m (ok : Bool) : Check := ⟨ok, 4, 3, isY⟩
  match op.kind with
  | .scalar =>
    [f 2 (h.d.toNat < 64), f 3 (h.s.toNat < 64),
     f 5 (match op with
       | .smov | .sand | .sor | .sxor => h.var == 0
       | _ => h.var.toNat < 4),
     m (!h.m)]
  | .mask => [f 2 (h.d.toNat < 16), f 2 (h.d != 0), f 3 (h.s.toNat < 16), f 5 (h.var == 0), m (!h.m)]
  | .vecInt =>
    [m (!(h.m && op.bitPattern) || ((op.eType h.var).map (fun t => selOk t 1)).getD true)]
  | .vecFloat => [f 5 (h.var.toNat < 3)]

/-- R86: whether both slots write one register. -/
def pairSameDest (op : PairOp) (x : Half) (op' : PairOp) (y : Half) : Bool :=
  (op.kind == .scalar && op'.kind == .scalar && x.d == y.d) || (op.kind == .mask && op'.kind == .mask && x.d == y.d)

/-- The checks of a P2 word with two legal codes: the pair rules apply only when both slots decode (R111). -/
def pairChecks (op : PairOp) (x : Half) (op' : PairOp) (y : Half) : List Check :=
  let slots := halfChecks op x false ++ halfChecks op' y true
  if failing slots = [] then
    [pairf 2 (!pairSameDest op x op' y), pairf 3 (!(op.kind == .vecFloat && op'.kind == .vecFloat))]
  else slots

/-- m0 as a destination raises ILLEGAL_FIELD (R42, R73). -/
abbrev notM0 (detail : Nat) (m : MReg) : Check := field detail (m != 0)

/-- LA of an instruction that is not long-latency (R76). -/
abbrev laZero (la : BitVec 4) : Check := field 1 (la == 0)

/-- A vector binary form of a set of types with modifiers of both sources. -/
def VBin.checks (o : VBin) (types : EType → Bool) (ok : EType → BitVec 3 → Bool) : List Check :=
  [field 5 (types o.t), modf 1 (ok o.t o.ma), modf 2 (ok o.t o.mb)]

def VUn.checks (o : VUn) (types : EType → Bool) (ok : EType → BitVec 3 → Bool) : List Check :=
  [field 5 (types o.t), modf 1 (ok o.t o.ma)]

def anyType (_ : EType) : Bool := true
def inIb1 (t : EType) : Bool := t.inI || t == .b1
def inIF (t : EType) : Bool := t.inI || t.inF
def isF32 (t : EType) : Bool := t == .f32
def in8 (t : EType) : Bool := t == .i8 || t == .n8
def inSeg (t : EType) : Bool := t.inI32 || t == .f32

/-- A float immediate (R91). -/
def fimmCheck (t : EType) (imm : BitVec 17) : Check :=
  field 6 (t == .f32 || t.inI || !imm.getLsbD 16)

def VImm.checks (o : VImm) (types : EType → Bool) : List Check := [field 5 (types o.t), fimmCheck o.t o.imm]

/-- R199: orderings of the loads, of the stores, and of those that take plain only. -/
def ordLoad (o : Ord) : Bool := o == .plain || o == .acq
def ordStore (o : Ord) : Bool := o == .plain || o == .rel

/-- R199: widths of the atomics. -/
def atomWidth (w : Width) (op : AtomOp) : Bool := w == .b32 || (w == .b64 && op != .fadd)

/-- The checks that an instruction's operands must pass (R110 step 4): those a word can still break after its fields
have been split into operands. -/
def Instr.checks : Instr → List Check
  | .scmp o => [notM0 2 o.md]
  | .scmpI o => [notM0 2 o.md]
  | .mfsr _ _ idx => [field 3 (idx.toNat < 0x0E || (0x80 ≤ idx.toNat && idx.toNat < 0x84))]
  | .mtsr _ idx _ => [field 2 (idx.toNat < 0x0E || (0x80 ≤ idx.toNat && idx.toNat < 0x84))]
  | .mtm _ md _ => [notM0 2 md]
  | .mand o => [notM0 2 o.d]
  | .mor o => [notM0 2 o.d]
  | .mxor o => [notM0 2 o.d]
  | .mnot _ md _ => [notM0 2 md]
  | .vmov o => o.checks anyType modOk
  | .vli _ t _ imm => [field 5 (inIF t), fimmCheck t imm]
  | .vadd o => o.checks EType.inI modOk
  | .vsub o => o.checks EType.inI modOk
  | .vmul o => o.checks EType.inI modOk
  | .vmulh o => o.checks EType.inI modOk
  | .vmad o => o.checks EType.inI modOk
  | .vmin o => o.checks EType.inI modOk
  | .vmax o => o.checks EType.inI modOk
  | .vabsd o => o.checks EType.inI modOk
  | .vadds o => o.checks EType.inI modOk
  | .vsubs o => o.checks EType.inI modOk
  | .vand o => o.checks inIb1 selOk
  | .vor o => o.checks inIb1 selOk
  | .vxor o => o.checks inIb1 selOk
  | .vshl o => o.checks EType.inI selOk
  | .vshr o => o.checks EType.inI selOk
  | .vsra o => o.checks EType.inI selOk
  | .vaddI o => o.checks EType.inI
  | .vsubI o => o.checks EType.inI
  | .vmulI o => o.checks EType.inI
  | .vminI o => o.checks EType.inI
  | .vmaxI o => o.checks EType.inI
  | .vaddsI o => o.checks EType.inI
  | .vsubsI o => o.checks EType.inI
  | .vandI o => [field 5 (inIb1 o.t)]
  | .vorI o => [field 5 (inIb1 o.t)]
  | .vxorI o => [field 5 (inIb1 o.t)]
  | .vshlI o => o.checks EType.inI
  | .vshrI o => o.checks EType.inI
  | .vsraI o => o.checks EType.inI
  | .vpopc o => o.checks EType.inI selOk
  | .vclz o => o.checks EType.inI selOk
  | .vcmp o => [field 5 o.t.inI32, notM0 2 o.md, modf 1 (modOk o.t o.ma), modf 2 (modOk o.t o.mb)]
  | .vcmpI o => [field 5 o.t.inI32, notM0 2 o.md]
  | .vsel o => o.checks anyType selOk
  | .vdot4 o => o.checks in8 modOk
  | .vbfx o => [field 5 o.t.inI32]
  | .vbfi o => [field 5 o.t.inI32]
  | .vfadd o => o.checks EType.inF modOk
  | .vfsub o => o.checks EType.inF modOk
  | .vfmul o => o.checks EType.inF modOk
  | .vfma o => o.checks EType.inF modOk
  | .vfmin o => o.checks EType.inF modOk
  | .vfmax o => o.checks EType.inF modOk
  | .vfaddI o => o.checks EType.inF
  | .vfsubI o => o.checks EType.inF
  | .vfmulI o => o.checks EType.inF
  | .vfminI o => o.checks EType.inF
  | .vfmaxI o => o.checks EType.inF
  | .vfcmp o => [field 5 o.t.inF, notM0 2 o.md, modf 1 (modOk o.t o.ma), modf 2 (modOk o.t o.mb)]
  | .vfcmpI o => [field 5 o.t.inF, notM0 2 o.md, fimmCheck o.t o.imm]
  | .vfcls o => o.checks EType.inF selOk
  | .vfrnd o _ => o.checks EType.inF selOk
  | .vadd2 o => o.checks isF32 modOk ++ [field 2 (!o.d.getLsbD 0), field 3 (!o.a.getLsbD 0), modf 1 (o.ma.toNat < 2)]
  | .vfma2 o => o.checks isF32 modOk ++ [field 2 (!o.d.getLsbD 0)]
  | .vrcp o => [modf 1 (modOk .f32 o.ma)]
  | .vrsq o => [modf 1 (modOk .f32 o.ma)]
  | .vsqrt o => [modf 1 (modOk .f32 o.ma)]
  | .vexp2 o => [modf 1 (modOk .f32 o.ma)]
  | .vlog2 o => [modf 1 (modOk .f32 o.ma)]
  | .vtanh o => [modf 1 (modOk .f32 o.ma)]
  | .vsigm o => [modf 1 (modOk .f32 o.ma)]
  | .vsinpi o => [modf 1 (modOk .f32 o.ma)]
  | .vcospi o => [modf 1 (modOk .f32 o.ma)]
  | .vcvt o => o.checks
  | .vscl o => [field 5 o.t.inF, modf 1 (modOk o.t o.ma), modf 2 (o.mb == 0)]
  | .vsclI _ t _ _ _ => [field 5 t.inF]
  | .vfdot2 o => o.checks (· == .bf16) modOk
  | .vdot16 _ _ a b => [field 3 (a.toNat % 4 == 0), field 4 (b.toNat % 4 == 0)]
  | .vshuf o => [modf 1 (selOk o.t o.ma), modf 2 (o.mb == 0)]
  | .vbcast o => [modf 1 (selOk o.t o.ma)]
  | .vrot o => [modf 1 (selOk o.t o.ma)]
  | .vred o => [modf 1 (match o.op with
      | .and | .or | .xor => o.ma == 0
      | _ => o.ma.toNat < 4)]
  | .vscan o => [modf 1 (match o.op with
      | .and | .or | .xor => o.ma == 0
      | _ => o.ma.toNat < 4)]
  | .vsegred o => [field 5 (inSeg o.t), modf 1 (modOk o.t o.ma)]
  | .vsegscan o => [field 5 (inSeg o.t), modf 1 (modOk o.t o.ma)]
  | .vconfl _ t md _ => [field 5 t.inI32, notM0 2 md]
  | .vdupadd _ t _ _ _ => [field 5 (t == .i32 || t == .f32)]
  | .vbal _ idx md _ b => [notM0 2 md, field 4 (idx || b == 0)]
  | .visect _ t _ _ _ => [field 5 t.inI32]
  | .vballot _ md _ => [notM0 2 md]
  | .vany _ _ md _ => [notM0 2 md]
  | .kvslot _ _ _ _ sb md => [field 4 (sb != 63), notM0 4 md]
  | .tokroute _ _ d _ sb => [field 2 (d.toNat % 4 == 0), field 4 (sb != 63)]
  | .vld o => [modf 1 (ordLoad o.ord)]
  | .vst o => [laZero o.la, modf 1 (ordStore o.ord)]
  | .vstI o => [laZero o.la]
  | .vldb o => [modf 1 (ordLoad o.ord)]
  | .vstb o => [laZero o.la, modf 1 (ordStore o.ord)]
  | .vstbI o => [laZero o.la]
  | .sld o => [modf 1 (ordLoad o.ord)]
  | .sst o => [laZero o.la, modf 1 (ordStore o.ord)]
  | .sstI o => [laZero o.la]
  | .vlds o => [field 5 (o.scope == .cl), modf 1 (o.ord == .plain)]
  | .vldsI o => [field 5 (o.scope == .cl)]
  | .vsts o => [laZero o.la, field 5 (o.scope == .cl), modf 1 (o.ord == .plain)]
  | .vstsI o => [laZero o.la, field 5 (o.scope == .cl)]
  | .vldq o => [field 5 (o.w == .b8), modf 1 (ordLoad o.ord)]
  | .vldqI o => [field 5 (o.w == .b8)]
  | .vstq o _ => [laZero o.la, field 5 (o.w == .b8), modf 1 (ordStore o.ord)]
  | .vstqI o _ => [laZero o.la, field 5 (o.w == .b8)]
  | .vatom o op => [field 5 (atomWidth o.w op), modf 2 (o.scale == 0)]
  | .satom o op => [field 5 (atomWidth o.w op), modf 2 (o.scale == 0)]
  | .vatoms o op => [field 5 (atomWidth o.w op && o.scope == .cl), modf 1 (o.ord == .plain), modf 2 (o.scale == 0)]
  | .vcas o => [field 5 (atomWidth o.w .add), modf 1 (!o.chk), modf 2 (o.scale == 0)]
  | .scas o => [field 5 (atomWidth o.w .add), field 2 (o.d != 63), modf 1 (!o.chk), modf 2 (o.scale == 0)]
  | .lfull o => [modf 1 (ordLoad o.ord)]
  | .lfullTake o => [modf 1 (ordLoad o.ord)]
  | .sfull o => [modf 1 (ordStore o.ord)]
  | .sfullNb o md => [modf 1 (ordStore o.ord), notM0 4 md]
  | .txbegin _ dist _ => [field 2 (dist != 0)]
  | .mrule _ _ _ _ _ sb => [field 4 (sb != 63)]
  | .mbwd o _ => [field 3 (o.sa != 63)]
  | .stexp _ _ _ _ sb => [field 4 (sb.toNat ≤ 61)]
  | .stimp _ _ _ _ sb => [field 4 (sb.toNat ≤ 61)]
  | .cpy o _ => [field 3 (1 ≤ o.sa.toNat && o.sa.toNat ≤ 60)]
  | .cgath o _ => [field 3 (1 ≤ o.sa.toNat && o.sa.toNat ≤ 60)]
  | .cscat o _ => [field 3 (1 ≤ o.sa.toNat && o.sa.toNat ≤ 60)]
  | .cexp o _ => [field 3 (1 ≤ o.sa.toNat && o.sa.toNat ≤ 60)]
  | .cpack o _ => [field 3 (1 ≤ o.sa.toNat && o.sa.toNat ≤ 60)]
  | .cpost _ _ sa => [field 3 (1 ≤ sa.toNat && sa.toNat ≤ 60)]
  | .gelect _ md _ => [notM0 2 md]
  | .gelectI _ md _ => [notM0 2 md]
  | .qpop _ _ _ md _ => [notM0 4 md]
  | .xput _ _ _ sa => [field 3 (1 ≤ sa.toNat && sa.toNat ≤ 61)]
  | .xgetBlk _ _ sa => [field 3 (1 ≤ sa.toNat && sa.toNat ≤ 61)]
  | _ => []

/-! ### The fields of a word -/

/-- The fields of an F3 or FI word (R70, R71); a field that the form does not have is 0. -/
structure Fields where
  opc : BitVec 10
  la : BitVec 4
  inv : Bool
  mask : BitVec 4
  d : BitVec 11
  a : BitVec 11
  b : BitVec 11
  moda : BitVec 3
  modb : BitVec 3
  var : BitVec 4
  imm : BitVec 17
  deriving DecidableEq, Repr

/-- R70. -/
def f3Fields (w : W64) : Fields :=
  { opc := w.extractLsb' 52 10, la := w.extractLsb' 48 4, inv := w.getLsbD 47, mask := w.extractLsb' 43 4,
    d := w.extractLsb' 32 11, a := w.extractLsb' 21 11, b := w.extractLsb' 10 11, moda := w.extractLsb' 7 3,
    modb := w.extractLsb' 4 3, var := w.extractLsb' 0 4, imm := 0 }

/-- R71. -/
def fiFields (w : W64) : Fields :=
  { opc := w.extractLsb' 52 10, la := w.extractLsb' 48 4, inv := w.getLsbD 47, mask := w.extractLsb' 43 4,
    d := w.extractLsb' 32 11, a := w.extractLsb' 21 11, b := 0, moda := 0, modb := 0, var := w.extractLsb' 17 4,
    imm := w.extractLsb' 0 17 }

/-- R81: the fields of slot X. -/
def halfX (w : W64) : Half :=
  { var := w.extractLsb' 52 3, d := w.extractLsb' 42 10, s := w.extractLsb' 32 10, m := w.getLsbD 31 }

/-- R81: the fields of slot Y. -/
def halfY (w : W64) : Half :=
  { var := w.extractLsb' 21 3, d := w.extractLsb' 11 10, s := w.extractLsb' 1 10, m := w.getLsbD 0 }

namespace Fields

def pred (f : Fields) : Pred := ⟨f.inv, f.mask⟩
def sd (f : Fields) : SReg := f.d.setWidth 6
def sa (f : Fields) : SReg := f.a.setWidth 6
def sb (f : Fields) : SReg := f.b.setWidth 6
def md (f : Fields) : MReg := f.d.setWidth 4
def ma (f : Fields) : MReg := f.a.setWidth 4
def mb (f : Fields) : MReg := f.b.setWidth 4
def ety (f : Fields) : EType := (ETypes.ofCode f.var).getD .i32
def sty (f : Fields) : SType := (STypes.ofCode f.var).getD .i64
def wide (f : Fields) : BitVec 28 := f.a ++ f.imm

/-- The unused bits of an operand field must be zero (R73). -/
def dBits (f : Fields) (n : Nat) : Check := field 2 (f.d.toNat < 2 ^ n)
def aBits (f : Fields) (n : Nat) : Check := field 3 (f.a.toNat < 2 ^ n)
def bBits (f : Fields) (n : Nat) : Check := field 4 (f.b.toNat < 2 ^ n)
def noLa (f : Fields) : Check := laZero f.la
def var0 (f : Fields) : Check := field 5 (f.var == 0)
def varS (f : Fields) : Check := field 5 (STypes.ofCode f.var).isSome
def varE (f : Fields) : Check := field 5 (ETypes.ofCode f.var).isSome
def varBits (f : Fields) (n : Nat) : Check := field 5 (f.var.toNat < 2 ^ n)
def immBits (f : Fields) (n : Nat) : Check := field 6 (f.imm.toNat < 2 ^ n)
def noModA (f : Fields) : Check := modf 1 (f.moda == 0)
def noModB (f : Fields) : Check := modf 2 (f.modb == 0)
def noMods (f : Fields) : List Check := [f.noModA, f.noModB]

def sUn (f : Fields) : SUn := ⟨f.pred, f.sd, f.sa⟩
def sUnT (f : Fields) : SUnT := ⟨f.pred, f.sty, f.sd, f.sa⟩
def sBin (f : Fields) : SBin := ⟨f.pred, f.sd, f.sa, f.sb⟩
def sBinT (f : Fields) : SBinT := ⟨f.pred, f.sty, f.sd, f.sa, f.sb⟩
def sImm (f : Fields) : SImm := ⟨f.pred, f.sd, f.sa, f.imm⟩
def sImmT (f : Fields) : SImmT := ⟨f.pred, f.sty, f.sd, f.sa, f.imm⟩
def sWide (f : Fields) : SWide := ⟨f.pred, f.sd, f.wide⟩
def mBin (f : Fields) : MBin := ⟨f.pred, f.md, f.ma, f.mb⟩
def cond (f : Fields) : Cond := (Conds.ofCode (f.d.extractLsb' 8 3)).getD .eq
def fcond (f : Fields) : FCond := FConds.ofCode (f.d.extractLsb' 8 3)
def scmp (f : Fields) : SCmp := ⟨f.pred, f.sty, f.cond, f.md, f.sa, f.sb⟩
def scmpI (f : Fields) : SCmpI := ⟨f.pred, f.sty, f.cond, f.md, f.sa, f.imm⟩
def vUn (f : Fields) : VUn := ⟨f.pred, f.ety, f.d, f.a, f.moda⟩
def vBin (f : Fields) : VBin := ⟨f.pred, f.ety, f.d, f.a, f.b, f.moda, f.modb⟩
def vImm (f : Fields) : VImm := ⟨f.pred, f.ety, f.d, f.a, f.imm⟩
def vcmp (f : Fields) : VCmp := ⟨f.pred, f.ety, f.cond, f.md, f.a, f.b, f.moda, f.modb⟩
def vcmpI (f : Fields) : VCmpI := ⟨f.pred, f.ety, f.cond, f.md, f.a, f.imm⟩
def vfcmp (f : Fields) : VFCmp := ⟨f.pred, f.ety, f.fcond, f.md, f.a, f.b, f.moda, f.modb⟩
def vfcmpI (f : Fields) : VFCmpI := ⟨f.pred, f.ety, f.fcond, f.md, f.a, f.imm⟩
def vField (f : Fields) : VField := ⟨f.pred, f.ety, f.d, f.a, f.sb⟩
def spec (f : Fields) : SpecOp := ⟨f.pred, f.la, f.d, f.a, f.moda⟩
def laneSel (f : Fields) : LaneSel := ⟨f.pred, f.ety, f.d, f.a, f.sb, f.moda⟩
def laneImm (f : Fields) : LaneImm := ⟨f.pred, f.ety, f.d, f.a, f.imm.setWidth 5⟩
def red (f : Fields) : RedOp := ⟨f.pred, (RedKinds.ofCode f.var).getD .addI32, f.d, f.a, f.moda⟩
def seg (f : Fields) : SegOp := ⟨f.pred, f.ety, f.d, f.a, f.mb, f.moda⟩
def ord (f : Fields) : Ord := Ords.ofCode (f.moda.setWidth 2)
def chk (f : Fields) : Bool := f.moda.getLsbD 2
def width (f : Fields) : Width := Widths.ofCode (f.var.extractLsb' 2 2)
def scope (f : Fields) : Scope := Scopes.ofCode (f.var.setWidth 2)
def vMem (f : Fields) : VMem := ⟨f.pred, f.la, f.d, f.sa, f.b, f.modb, f.ord, f.chk, f.width, f.scope⟩
def bMem (f : Fields) : BMem := ⟨f.pred, f.la, f.d, f.sa, f.sb, f.modb, f.ord, f.chk, f.width, f.scope⟩
def sMem (f : Fields) : SMem := ⟨f.pred, f.la, f.sd, f.sa, f.sb, f.modb, f.ord, f.chk, f.width, f.scope⟩
def vMemI (f : Fields) : VMemI := ⟨f.pred, f.la, f.d, f.sa, f.imm, f.width, f.scope⟩
def sMemI (f : Fields) : SMemI := ⟨f.pred, f.la, f.sd, f.sa, f.imm, f.width, f.scope⟩
def fe (f : Fields) : FEOp := ⟨f.pred, f.la, f.sd, f.sa, f.ord, f.scope⟩
def mma (f : Fields) : MmaOp :=
  ⟨f.pred, f.la, f.d.setWidth 5, f.d.extractLsb' 5 6, f.a.setWidth 5, f.b.setWidth 5, f.var.getLsbD 0⟩
def recOp (f : Fields) : RecOp := ⟨f.pred, f.la, f.d.setWidth 5, f.sa, f.var.getLsbD 0, f.var.getLsbD 1⟩
def copy (f : Fields) : CopyOp := ⟨f.pred, f.la, f.d.setWidth 3, f.sa, f.var.getLsbD 0, f.var.getLsbD 1⟩

/-- Operand kinds of F3 words, with everything else zero. -/
def scalar3 (f : Fields) : List Check := [f.noLa, f.dBits 6, f.aBits 6, f.bBits 6] ++ f.noMods
def scalar2 (f : Fields) : List Check := [f.noLa, f.dBits 6, f.aBits 6, f.bBits 0] ++ f.noMods
def scalarI (f : Fields) : List Check := [f.noLa, f.dBits 6, f.aBits 6]
def mask3 (f : Fields) : List Check := [f.noLa, f.var0, f.dBits 4, f.aBits 4, f.bBits 4] ++ f.noMods
def vec3 (f : Fields) : List Check := [f.noLa, f.varE]
def vec2 (f : Fields) : List Check := [f.noLa, f.varE, f.bBits 0, f.noModB]
def condBits (f : Fields) : List Check :=
  [field 2 (f.d.extractLsb' 4 4 == 0), field 2 (Conds.ofCode (f.d.extractLsb' 8 3)).isSome]
def fcondBits (f : Fields) : List Check := [field 2 (f.d.extractLsb' 4 4 == 0)]
def specBits (f : Fields) : List Check := [f.bBits 0, field 5 (f.var == 8), f.noModB]
def feBits (f : Fields) : List Check := [f.dBits 6, f.aBits 6, field 5 (f.width == .b64), modf 1 (!f.chk)]
def copyBits (f : Fields) : List Check := [f.dBits 3, f.aBits 6] ++ f.noMods
def memS (f : Fields) : List Check := [f.aBits 6]
def memSS (f : Fields) : List Check := [f.aBits 6, f.bBits 6]
def memSSS (f : Fields) : List Check := [f.dBits 6, f.aBits 6, f.bBits 6]
def arr (f : Fields) (d a b v : Nat) : List Check := [f.dBits d, f.aBits a, f.bBits b, f.varBits v] ++ f.noMods
def plain (f : Fields) (d a b v : Nat) : List Check := f.noLa :: f.arr d a b v

end Fields

/-- The candidate of a word: what it would be, and the checks of its raw fields. -/
abbrev Candidate := List Check × Instr

/-! ### The opcode map (R108) -/

/-- Scalar and mask, F3. -/
def scalarF3 (n : Nat) (f : Fields) : Option Candidate :=
  match n with
  | 0x00 => some (f.plain 0 0 0 0, .nop)
  | 0x01 => some (f.var0 :: f.scalar2, .smov f.sUn)
  | 0x04 => some (f.varS :: f.scalar3, .sadd f.sBinT)
  | 0x05 => some (f.varS :: f.scalar3, .ssub f.sBinT)
  | 0x06 => some (f.varS :: f.scalar3, .smul f.sBinT)
  | 0x07 => some (f.varS :: f.scalar3, .smulh f.sBinT)
  | 0x08 => some (f.varS :: f.scalar3, .sdiv f.sBinT)
  | 0x09 => some (f.varS :: f.scalar3, .srem f.sBinT)
  | 0x0A => some (f.var0 :: f.scalar3, .sand f.sBin)
  | 0x0B => some (f.var0 :: f.scalar3, .sor f.sBin)
  | 0x0C => some (f.var0 :: f.scalar3, .sxor f.sBin)
  | 0x0D => some (f.varS :: f.scalar3, .sshl f.sBinT)
  | 0x0E => some (f.varS :: f.scalar3, .sshr f.sBinT)
  | 0x0F => some (f.varS :: f.scalar3, .ssra f.sBinT)
  | 0x10 => some (f.varS :: f.scalar3, .smin f.sBinT)
  | 0x11 => some (f.varS :: f.scalar3, .smax f.sBinT)
  | 0x12 => some ([f.noLa, f.varS, f.aBits 6, f.bBits 6] ++ f.condBits ++ f.noMods, .scmp f.scmp)
  | 0x13 => some (f.var0 :: f.scalar3, .ssel f.sBin)
  | 0x14 => some (f.varS :: f.scalar2, .spopc f.sUnT)
  | 0x15 => some (f.varS :: f.scalar2, .sclz f.sUnT)
  | 0x17 => some (f.plain 6 8 0 0, .mfsr f.pred f.sd (f.a.setWidth 8))
  | 0x18 => some (f.plain 8 6 0 0, .mtsr f.pred (f.d.setWidth 8) f.sa)
  | 0x19 => some (f.plain 6 11 6 0, .srdv f.pred f.sd f.a f.sb)
  | 0x1A => some (f.plain 11 6 6 0, .swrv f.pred f.d f.sa f.sb)
  | 0x1B => some (f.plain 4 6 0 0, .mtm f.pred f.md f.sa)
  | 0x1C => some (f.plain 6 4 0 0, .mfm f.pred f.sd f.ma)
  | 0x1D => some (f.mask3, .mand f.mBin)
  | 0x1E => some (f.mask3, .mor f.mBin)
  | 0x1F => some (f.mask3, .mxor f.mBin)
  | 0x20 => some (f.plain 4 4 0 0, .mnot f.pred f.md f.ma)
  | 0x21 => some (f.plain 6 4 0 0, .mcnt f.pred f.sd f.ma)
  | _ => none

/-- Scalar and mask, FI. -/
def scalarFI (n : Nat) (f : Fields) : Option Candidate :=
  match n with
  | 0x02 => some ([f.noLa, f.dBits 6, f.var0], .sli f.sWide)
  | 0x03 => some ([f.noLa, f.dBits 6, f.var0], .slix f.sWide)
  | 0x06 => some (f.varS :: f.scalarI, .smulI f.sImmT)
  | 0x0A => some (f.var0 :: f.scalarI, .sandI f.sImm)
  | 0x0B => some (f.var0 :: f.scalarI, .sorI f.sImm)
  | 0x0C => some (f.var0 :: f.scalarI, .sxorI f.sImm)
  | 0x0D => some (f.varS :: f.scalarI, .sshlI f.sImmT)
  | 0x0E => some (f.varS :: f.scalarI, .sshrI f.sImmT)
  | 0x0F => some (f.varS :: f.scalarI, .ssraI f.sImmT)
  | 0x10 => some (f.varS :: f.scalarI, .sminI f.sImmT)
  | 0x11 => some (f.varS :: f.scalarI, .smaxI f.sImmT)
  | 0x12 => some ([f.noLa, f.varS, f.aBits 6] ++ f.condBits, .scmpI f.scmpI)
  | 0x16 => some (f.varS :: f.scalarI, .saddi f.sImmT)
  | 0x19 => some ([f.noLa, f.dBits 6, f.var0, f.immBits 5], .srdvI f.pred f.sd f.a (f.imm.setWidth 5))
  | 0x1A => some ([f.noLa, f.aBits 6, f.var0, f.immBits 5], .swrvI f.pred f.d f.sa (f.imm.setWidth 5))
  | _ => none

/-- Vector integer, F3. -/
def vectorF3 (n : Nat) (f : Fields) : Option Candidate :=
  match n with
  | 0x00 => some (f.vec2, .vmov f.vUn)
  | 0x02 => some (f.vec3, .vadd f.vBin)
  | 0x03 => some (f.vec3, .vsub f.vBin)
  | 0x04 => some (f.vec3, .vmul f.vBin)
  | 0x05 => some (f.vec3, .vmulh f.vBin)
  | 0x06 => some (f.vec3, .vmad f.vBin)
  | 0x07 => some (f.vec3, .vmin f.vBin)
  | 0x08 => some (f.vec3, .vmax f.vBin)
  | 0x09 => some (f.vec3, .vabsd f.vBin)
  | 0x0A => some (f.vec3, .vand f.vBin)
  | 0x0B => some (f.vec3, .vor f.vBin)
  | 0x0C => some (f.vec3, .vxor f.vBin)
  | 0x0D => some (f.vec3, .vshl f.vBin)
  | 0x0E => some (f.vec3, .vshr f.vBin)
  | 0x0F => some (f.vec3, .vsra f.vBin)
  | 0x10 => some (f.vec2, .vpopc f.vUn)
  | 0x11 => some (f.vec2, .vclz f.vUn)
  | 0x12 => some (f.vec3 ++ f.condBits, .vcmp f.vcmp)
  | 0x13 => some (f.vec3, .vsel f.vBin)
  | 0x14 => some (f.vec3, .vadds f.vBin)
  | 0x15 => some (f.vec3, .vsubs f.vBin)
  | 0x16 => some (f.vec3, .vdot4 f.vBin)
  | 0x17 => some ([f.noLa, f.varE, f.bBits 6] ++ f.noMods, .vbfx f.vField)
  | 0x18 => some ([f.noLa, f.varE, f.bBits 6] ++ f.noMods, .vbfi f.vField)
  | 0x19 => some (f.plain 11 0 0 0, .vlane f.pred f.d)
  | _ => none

/-- Vector integer, FI. -/
def vectorFI (n : Nat) (f : Fields) : Option Candidate :=
  match n with
  | 0x01 => some ([f.noLa, f.varE, f.aBits 0], .vli f.pred f.ety f.d f.imm)
  | 0x02 => some (f.vec3, .vaddI f.vImm)
  | 0x03 => some (f.vec3, .vsubI f.vImm)
  | 0x04 => some (f.vec3, .vmulI f.vImm)
  | 0x07 => some (f.vec3, .vminI f.vImm)
  | 0x08 => some (f.vec3, .vmaxI f.vImm)
  | 0x0A => some (f.vec3, .vandI f.vImm)
  | 0x0B => some (f.vec3, .vorI f.vImm)
  | 0x0C => some (f.vec3, .vxorI f.vImm)
  | 0x0D => some (f.vec3, .vshlI f.vImm)
  | 0x0E => some (f.vec3, .vshrI f.vImm)
  | 0x0F => some (f.vec3, .vsraI f.vImm)
  | 0x12 => some (f.vec3 ++ f.condBits, .vcmpI f.vcmpI)
  | 0x14 => some (f.vec3, .vaddsI f.vImm)
  | 0x15 => some (f.vec3, .vsubsI f.vImm)
  | _ => none

/-- R151: the fields of VCVT. -/
def cvtCandidate (f : Fields) : Candidate :=
  let dst := ETypes.ofCode f.var
  let src := ETypes.ofCode (f.b.setWidth 4)
  ([f.noLa, field 5 dst.isSome, field 4 src.isSome, field 4 (f.b.toNat < 128)],
   .vcvt ⟨f.pred, dst.getD (if src == some .i32 then .n32 else .i32), src.getD .n32, if dst.isSome then f.b.extractLsb' 4 3 else 0, f.d, f.a, f.moda, f.modb.getLsbD 0,
     f.modb.getLsbD 1, f.modb.getLsbD 2⟩)

/-- Vector float, conversion and special functions, F3. -/
def floatF3 (n : Nat) (f : Fields) : Option Candidate :=
  match n with
  | 0x00 => some (f.vec3, .vfadd f.vBin)
  | 0x01 => some (f.vec3, .vfsub f.vBin)
  | 0x02 => some (f.vec3, .vfmul f.vBin)
  | 0x03 => some (f.vec3, .vfma f.vBin)
  | 0x04 => some (f.vec3, .vfmin f.vBin)
  | 0x05 => some (f.vec3, .vfmax f.vBin)
  | 0x06 => some (f.vec3 ++ f.fcondBits, .vfcmp f.vfcmp)
  | 0x07 => some (f.vec2, .vfcls f.vUn)
  | 0x08 => some (f.vec3, .vadd2 f.vBin)
  | 0x09 => some (f.vec3, .vfma2 f.vBin)
  | 0x0A => some (f.specBits, .vrcp f.spec)
  | 0x0B => some (f.specBits, .vrsq f.spec)
  | 0x0C => some (f.specBits, .vsqrt f.spec)
  | 0x0D => some (f.specBits, .vexp2 f.spec)
  | 0x0E => some (f.specBits, .vlog2 f.spec)
  | 0x0F => some (f.specBits, .vtanh f.spec)
  | 0x10 => some (f.specBits, .vsigm f.spec)
  | 0x11 => some (f.specBits, .vsinpi f.spec)
  | 0x12 => some (f.specBits, .vcospi f.spec)
  | 0x13 => some (cvtCandidate f)
  | 0x14 => some (f.plain 11 11 6 0, .vcvq4 f.pred f.d f.a f.sb)
  | 0x15 => some (f.plain 11 11 6 0, .vdq4 f.pred f.d f.a f.sb)
  | 0x16 => some (f.vec3, .vscl f.vBin)
  | 0x17 => some ([f.noLa, f.bBits 0, field 5 (f.var == 8)] ++ f.noMods, .vgscl f.pred f.d f.a)
  | 0x18 => some (f.vec3, .vfdot2 f.vBin)
  | 0x19 => some ([f.noLa, field 5 (f.var == 11)] ++ f.noMods, .vdot16 f.pred f.d f.a f.b)
  | 0x1A => some ([f.bBits 0, field 5 (f.var == 8)] ++ f.noMods, .vrope3 f.pred f.la f.d f.a)
  | 0x1B => some ([f.noLa, f.varE, f.bBits 0, modf 2 (RndSels.ofCode f.modb).isSome],
      .vfrnd f.vUn ((RndSels.ofCode f.modb).getD .ctl))
  | _ => none

/-- Vector float, FI. -/
def floatFI (n : Nat) (f : Fields) : Option Candidate :=
  match n with
  | 0x00 => some (f.vec3, .vfaddI f.vImm)
  | 0x01 => some (f.vec3, .vfsubI f.vImm)
  | 0x02 => some (f.vec3, .vfmulI f.vImm)
  | 0x04 => some (f.vec3, .vfminI f.vImm)
  | 0x05 => some (f.vec3, .vfmaxI f.vImm)
  | 0x06 => some (f.vec3 ++ f.fcondBits, .vfcmpI f.vfcmpI)
  | 0x16 => some ([f.noLa, f.varE, f.immBits 8], .vsclI f.pred f.ety f.d f.a (f.imm.setWidth 8))
  | _ => none

/-- Cross-lane, F3. -/
def crossF3 (n : Nat) (f : Fields) : Option Candidate :=
  match n with
  | 0x00 => some (f.vec3, .vshuf f.vBin)
  | 0x01 => some ([f.noLa, f.varE, f.bBits 6, f.noModB], .vbcast f.laneSel)
  | 0x02 => some ([f.noLa, f.varE, f.bBits 6, f.noModB], .vrot f.laneSel)
  | 0x03 => some ([f.noLa, f.bBits 0, field 5 (RedKinds.ofCode f.var).isSome, f.noModB], .vred f.red)
  | 0x04 => some ([f.noLa, f.bBits 0, field 5 (RedKinds.ofCode f.var).isSome, f.noModB], .vscan f.red)
  | 0x05 => some ([f.noLa, f.varE, f.bBits 4, f.noModB], .vsegred f.seg)
  | 0x06 => some ([f.noLa, f.varE, f.bBits 4, f.noModB], .vsegscan f.seg)
  | 0x07 => some ([f.noLa, f.varE, f.dBits 4, f.bBits 0] ++ f.noMods, .vconfl f.pred f.ety f.md f.a)
  | 0x08 => some ([f.noLa, f.varE] ++ f.noMods, .vdupadd f.pred f.ety f.d f.a f.b)
  | 0x09 => some ([f.noLa, f.varBits 1, f.dBits 4] ++ f.noMods,
      .vbal f.pred (f.var.getLsbD 0 || decide (2 ≤ f.var.toNat)) f.md f.a f.b)
  | 0x0A => some ([f.noLa, f.varE] ++ f.noMods, .visect f.pred f.ety f.d f.a f.b)
  | 0x0B => some ([f.noLa, f.varBits 3] ++ f.noMods,
      .vmrg f.pred (f.var.getLsbD 0) (f.var.getLsbD 1) (f.var.getLsbD 2) f.d f.a f.b)
  | 0x0C => some (f.plain 11 11 4 0, .vcmpr f.pred f.d f.a f.mb)
  | 0x0D => some (f.plain 11 11 4 0, .vexpd f.pred f.d f.a f.mb)
  | 0x0E => some (f.plain 4 11 0 0, .vballot f.pred f.md f.a)
  | 0x0F => some (f.plain 4 11 0 1, .vany f.pred (f.var.getLsbD 0) f.md f.a)
  | 0x10 => some (f.arr 11 11 10 0, .kvslot f.pred f.la f.d f.a f.sb (f.b.extractLsb' 6 4))
  | 0x11 => some ([f.bBits 3, field 5 (f.var == 8)] ++ f.noMods, .vtriple f.pred f.la f.d f.a (f.b.setWidth 3))
  | 0x12 => some (f.arr 11 11 6 0, .tokroute f.pred f.la f.d f.a f.sb)
  | _ => none

/-- Cross-lane, FI. -/
def crossFI (n : Nat) (f : Fields) : Option Candidate :=
  match n with
  | 0x01 => some ([f.noLa, f.varE, f.immBits 5], .vbcastI f.laneImm)
  | 0x02 => some ([f.noLa, f.varE, f.immBits 5], .vrotI f.laneImm)
  | _ => none

/-- R212: the options of SFULL and their register fields. -/
def sfullCandidate (f : Fields) : Candidate :=
  if f.modb.getLsbD 1 then (f.feBits ++ [f.bBits 4, modf 2 (f.modb == 2)], .sfullNb f.fe f.mb)
  else (f.feBits ++ [f.bBits 0, f.noModB], .sfull f.fe)

/-- R212: the options of LFULL. -/
def lfullCandidate (f : Fields) : Candidate :=
  (f.feBits ++ [f.bBits 0, modf 2 (f.modb.toNat < 2)], if f.modb.getLsbD 0 then .lfullTake f.fe else .lfull f.fe)

/-- R206: VAR[2] of VSTQ is .a16. -/
def vMemQ (f : Fields) : VMem := { f.vMem with w := .b8 }
def vMemIQ (f : Fields) : VMemI := { f.vMemI with w := .b8 }

/-- Memory, F3. -/
def memoryF3 (n : Nat) (f : Fields) : Option Candidate :=
  match n with
  | 0x00 => some (f.memS, .vld f.vMem)
  | 0x01 => some (f.memS, .vst f.vMem)
  | 0x02 => some (f.memSS, .vldb f.bMem)
  | 0x03 => some (f.memSS, .vstb f.bMem)
  | 0x04 => some (f.memSSS, .sld f.sMem)
  | 0x05 => some (f.memSSS, .sst f.sMem)
  | 0x06 => some (f.memS, .vlds f.vMem)
  | 0x07 => some (f.memS, .vsts f.vMem)
  | 0x08 => some (f.plain 6 6 0 0, .splk f.pred f.sd f.sa)
  | 0x09 => some (if f.d == 1 then (f.plain 11 6 0 0, .sptagInv f.pred f.sa)
      else (f.plain 0 6 6 0, .sptag f.pred f.sa f.sb))
  | 0x0A => some (f.memS, .vatom { f.vMem with scale := 0 } (AtomOps.ofCode f.modb))
  | 0x0B => some (f.memS, .vcas f.vMem)
  | 0x0C => some (f.memSSS, .satom { f.sMem with scale := 0 } (AtomOps.ofCode f.modb))
  | 0x0D => some (f.memSSS, .scas f.sMem)
  | 0x0E => some (f.memS ++ [modf 1 (f.moda.toNat % 4 == 0)], .vatoms { f.vMem with scale := 0 } (AtomOps.ofCode f.modb))
  | 0x0F => some (lfullCandidate f)
  | 0x10 => some (sfullCandidate f)
  | 0x11 => some (f.feBits ++ [f.bBits 0, f.noModB], .fempty f.fe)
  | 0x12 => some ([f.noLa, f.dBits 0, f.aBits 0, f.bBits 0, f.noModB,
        field 5 (FenceScopes.ofCode (f.var.setWidth 3)).isSome, modf 1 (FenceKinds.ofCode f.moda).isSome],
      .fence f.pred ((FenceKinds.ofCode f.moda).getD .all) ((FenceScopes.ofCode (f.var.setWidth 3)).getD .wave)
        (f.var.getLsbD 3))
  | 0x13 => some (f.plain 11 0 0 1, .txbegin f.pred f.d (f.var.getLsbD 0))
  | 0x14 => some (f.plain 0 0 0 0, .txend)
  | 0x16 => some (f.arr 6 6 6 0, .forkpg f.pred f.la f.sd f.sa f.sb)
  | 0x17 => some (f.memS, .vldq f.vMem)
  | 0x18 => some (f.memS ++ [f.varBits 3], .vstq (vMemQ f) (f.var.getLsbD 2))
  | _ => none

/-- Memory, FI. -/
def memoryFI (n : Nat) (f : Fields) : Option Candidate :=
  match n with
  | 0x00 => some (f.memS, .vldI f.vMemI)
  | 0x01 => some (f.memS, .vstI f.vMemI)
  | 0x02 => some (f.memS, .vldbI f.vMemI)
  | 0x03 => some (f.memS, .vstbI f.vMemI)
  | 0x04 => some ([f.dBits 6, f.aBits 6], .sldI f.sMemI)
  | 0x05 => some ([f.dBits 6, f.aBits 6], .sstI f.sMemI)
  | 0x06 => some (f.memS, .vldsI f.vMemI)
  | 0x07 => some (f.memS, .vstsI f.vMemI)
  | 0x15 => some ([f.noLa, f.dBits 0, f.aBits 0, f.var0, f.immBits 8], .txabort)
  | 0x17 => some (f.memS, .vldqI f.vMemI)
  | 0x18 => some (f.memS ++ [f.varBits 3], .vstqI (vMemIQ f) (f.var.getLsbD 2))
  | _ => none

/-- R295: B of MREC is a frame or 0x7FF for none. -/
def optFrame (b : BitVec 11) : Option FrameReg := if b == 0x7FF then none else some (b.setWidth 5)

/-- Tile, array and accumulator (the table after R284). -/
def arrayF3 (n : Nat) (f : Fields) : Option Candidate :=
  match n with
  | 0x00 => some (f.arr 5 6 0 0, .movtc f.pred f.la (f.d.setWidth 5) f.sa)
  | 0x01 => some (f.arr 6 5 0 0, .movftc f.pred f.la f.sd (f.a.setWidth 5))
  | 0x02 => some (f.arr 5 6 0 0, .tld f.pred f.la (f.d.setWidth 5) f.sa)
  | 0x03 => some (f.arr 0 6 5 0, .tst f.pred f.la f.sa (f.b.setWidth 5))
  | 0x04 => some (f.arr 5 0 0 0, .tzero f.pred f.la (f.d.setWidth 5))
  | 0x05 => some (f.arr 5 11 6 0, .tldv f.pred f.la (f.d.setWidth 5) f.a f.sb)
  | 0x06 => some (f.arr 11 5 5 1, .mma f.mma)
  | 0x07 => some (f.arr 11 5 5 3 ++ [field 5 (BinOps.ofCode (f.var.extractLsb' 1 2)).isSome],
      .mbin f.mma ((BinOps.ofCode (f.var.extractLsb' 1 2)).getD .and))
  | 0x08 => some (f.arr 3 6 6 1, .mrule f.pred f.la (f.var.getLsbD 0) (f.d.setWidth 3) f.sa f.sb)
  | 0x09 => some (f.arr 5 6 11 3 ++ [field 4 (f.b == 0x7FF || f.b.toNat < 32)],
      .mrec f.recOp (optFrame f.b) (f.var.getLsbD 2))
  | 0x0A => some (f.arr 5 6 5 2, .mbwd f.recOp (f.b.setWidth 5))
  | 0x0B => some (f.arr 5 5 6 0, .mepi f.pred f.la (f.d.setWidth 5) (f.a.setWidth 5) f.sb)
  | 0x0C => some (f.arr 5 0 0 0, .azero f.pred f.la (f.d.setWidth 5))
  | 0x0D => some (f.arr 5 6 6 1, .ald f.pred f.la (f.var.getLsbD 0) (f.d.setWidth 5) f.sa f.sb)
  | 0x0E => some (f.arr 5 6 6 1, .ast f.pred f.la (f.var.getLsbD 0) f.sa (f.d.setWidth 5) f.sb)
  | 0x0F => some (f.arr 5 5 0 0, .amov f.pred f.la (f.d.setWidth 5) (f.a.setWidth 5))
  | 0x10 => some (f.arr 6 6 0 1, if f.var.getLsbD 0 then .acallocNb f.pred f.la f.sd f.sa else .acalloc f.pred f.la f.sd f.sa)
  | 0x11 => some (f.arr 0 6 0 0, .acfree f.pred f.la f.sa)
  | 0x12 => some (f.arr 3 6 0 1, .eld f.pred f.la (f.var.getLsbD 0) (f.d.setWidth 3) f.sa)
  | 0x13 => some (f.arr 3 6 0 1, .est f.pred f.la (f.var.getLsbD 0) f.sa (f.d.setWidth 3))
  | 0x14 => some (f.arr 0 0 0 0, .mwait)
  | 0x15 => some (f.arr 11 6 6 0, .stexp f.pred f.la f.d f.sa f.sb)
  | 0x16 => some (f.arr 11 6 6 0, .stimp f.pred f.la f.d f.sa f.sb)
  | _ => none

/-- Engines, groups, tasks, merging, split weights and fabric, F3. -/
def engineF3 (n : Nat) (f : Fields) : Option Candidate :=
  match n with
  | 0x00 => some (f.copyBits ++ [f.bBits 0, f.varBits 3], .cpy f.copy (f.var.getLsbD 2))
  | 0x01 => some (f.copyBits ++ [f.bBits 4, f.varBits 2], .cgath f.copy (f.b.setWidth 4))
  | 0x02 => some (f.copyBits ++ [f.bBits 4, f.varBits 2], .cscat f.copy (f.b.setWidth 4))
  | 0x03 => some (f.copyBits ++ [f.bBits 4, f.varBits 2], .cexp f.copy (f.b.setWidth 4))
  | 0x04 => some (f.copyBits ++ [f.bBits 4, f.varBits 2], .cpack f.copy (f.b.setWidth 4))
  | 0x05 => some (f.arr 0 6 0 1, if f.var = 0 then .cpost f.pred f.la f.sa else .cpostBind f.pred f.la f.sa)
  | 0x06 => some (f.plain 0 6 0 0, .waittkReg f.pred f.sa)
  | 0x07 => some (f.plain 0 6 0 1, .tkintReg f.pred (f.var.getLsbD 0) f.sa)
  | 0x08 => some (f.plain 0 0 0 0, .uiret)
  | 0x09 => some (f.arr 0 6 6 0, .chain f.pred f.la f.sa f.sb)
  | 0x0A => some (f.plain 0 6 6 0, .chwait f.pred f.sa f.sb)
  | 0x0B => some (f.plain 6 6 0 0, .gjoin f.pred f.sd f.sa)
  | 0x0C => some (f.plain 0 0 0 0, .gleave)
  | 0x0D => some (match f.var.toNat with
      | 0 => (f.plain 0 0 0 0, .gbar)
      | 1 => (f.plain 0 6 0 1, .gbarRole f.pred f.sa)
      | 2 => (f.plain 0 6 0 2, .gbarRows f.pred f.sa)
      | _ => (field 5 false :: f.plain 0 6 0 4, .gbar))
  | 0x0E => some (f.plain 0 11 0 0, .vsync f.pred f.a)
  | 0x0F => some (f.plain 4 6 0 0, .gelect f.pred f.md f.sa)
  | 0x10 => some (f.arr 0 6 0 1, if f.var.getLsbD 0 then .spawnPipe f.pred f.la f.sa else .spawn f.pred f.la f.sa)
  | 0x11 => some (match f.var.toNat with
      | 0 => (f.arr 0 6 6 0, .qpush f.pred f.la f.sa f.sb)
      | 1 => (f.arr 0 6 0 1, .qpushClose f.pred f.la f.sa)
      | _ => (field 5 false :: f.arr 0 6 6 4, .qpush f.pred f.la f.sa f.sb))
  | 0x12 => some (f.arr 6 6 4 0, .qpop f.pred f.la f.sd f.mb f.sa)
  | 0x13 => some (f.plain 0 0 0 0, .tdone)
  | 0x14 => some (f.plain 0 0 0 0, .ckpt)
  | 0x15 => some (f.arr 6 6 0 0, .tmerge f.pred f.la f.sd f.sa)
  | 0x16 => some (f.arr 0 6 0 0, .tunmerge f.pred f.la f.sa)
  | 0x17 => some (f.arr 6 6 0 0, .swmv f.pred f.la f.sd f.sa)
  | 0x18 => some (f.arr 6 6 6 0, .swmig f.pred f.la f.sd f.sa f.sb)
  | 0x19 => some (f.arr 0 6 0 0, .swage f.pred f.la f.sa)
  | 0x1A => some (f.arr 3 6 0 0, .xput f.pred f.la (f.d.setWidth 3) f.sa)
  | 0x1B => some (match f.var.toNat with
      | 0 => (f.arr 6 6 0 0, .xgetB64 f.pred f.la f.sd f.sa)
      | 1 => (f.arr 0 6 0 1, .xgetBlk f.pred f.la f.sa)
      | _ => (field 5 false :: f.arr 6 6 0 4, .xgetB64 f.pred f.la f.sd f.sa))
  | 0x1C => some (f.arr 0 6 0 0, .xcoll f.pred f.la f.sa)
  | 0x1D => some (f.plain 0 6 0 0, .xwait f.pred f.sa)
  | 0x1E => some (f.arr 3 6 6 2 ++ [field 5 (SigOps.ofCode f.var).isSome],
      .xsig f.pred f.la ((SigOps.ofCode f.var).getD .add) (f.d.setWidth 3) f.sa f.sb)
  | _ => none

/-- Engines and groups, FI. FI `TKINT` reads IMM17[7:0] and no rule checks the rest (R233). DEDUCED (log 13). -/
def engineFI (n : Nat) (f : Fields) : Option Candidate :=
  match n with
  | 0x06 => some ([f.noLa, f.dBits 0, f.aBits 0, f.var0, f.immBits 8], .waittk)
  | 0x07 => some ([f.noLa, f.dBits 0, f.aBits 0, f.varBits 1], .tkint)
  | 0x0D => some (match f.var.toNat with
      | 0 => ([f.noLa, f.dBits 0, f.aBits 0, f.immBits 0], .gbar)
      | 1 => ([f.noLa, f.dBits 0, f.aBits 0, f.immBits 3], .gbarRoleI f.pred (f.imm.setWidth 3))
      | 2 => ([f.noLa, f.dBits 0, f.aBits 0], .gbarRowsI f.pred f.imm)
      | _ => ([f.noLa, f.dBits 0, f.aBits 0, field 5 false], .gbar))
  | 0x0F => some ([f.noLa, f.dBits 4, f.aBits 0, f.var0, f.immBits 3], .gelectI f.pred f.md (f.imm.setWidth 3))
  | _ => none

/-- Control and system, F3. -/
def controlF3 (n : Nat) (f : Fields) : Option Candidate :=
  match n with
  | 0x02 => some (f.plain 0 6 0 0, .jmpReg f.pred f.sa)
  | 0x03 => some (f.plain 6 6 0 0, .callReg f.pred f.sd f.sa)
  | 0x04 => some (f.plain 0 6 0 0, .ret f.pred f.sa)
  | 0x06 => some (f.plain 0 0 0 0, .exit)
  | 0x08 => some (f.plain 0 0 0 0, .brk)
  | 0x09 => some (f.plain 0 0 0 0, .eret)
  | 0x0A => some (f.plain 0 0 0 0, .halt)
  | 0x0B => some (f.plain 0 6 6 0, .tlbinv f.pred f.sa f.sb)
  | _ => none

/-- Control, FI. -/
def controlFI (n : Nat) (f : Fields) : Option Candidate :=
  match n with
  | 0x00 => some ([f.noLa, f.var0], .br f.pred f.d f.wide)
  | 0x01 => some ([f.noLa, f.dBits 0, f.var0], .bru f.pred f.wide)
  | 0x02 => some ([f.noLa, f.dBits 0, f.var0], .jmp f.pred f.wide)
  | 0x03 => some ([f.noLa, f.dBits 6, f.var0], .call f.pred f.sd f.wide)
  | 0x05 => some ([f.noLa, f.dBits 6, f.var0], .loop f.pred f.sd f.wide)
  | 0x07 => some ([f.noLa, f.dBits 0, f.aBits 0, f.var0, f.immBits 8], .trap)
  | _ => none

/-- R104: the class of an opcode selects its table. -/
def f3Candidate (f : Fields) : Option Candidate :=
  let n := f.opc.toNat % 128
  match f.opc.toNat / 128 with
  | 0 => scalarF3 n f
  | 1 => vectorF3 n f
  | 2 => floatF3 n f
  | 3 => crossF3 n f
  | 4 => memoryF3 n f
  | 5 => arrayF3 n f
  | 6 => engineF3 n f
  | _ => controlF3 n f

def fiCandidate (f : Fields) : Option Candidate :=
  let n := f.opc.toNat % 128
  match f.opc.toNat / 128 with
  | 0 => scalarFI n f
  | 1 => vectorFI n f
  | 2 => floatFI n f
  | 3 => crossFI n f
  | 4 => memoryFI n f
  | 5 => none
  | 6 => engineFI n f
  | _ => controlFI n f

/-- The row of a P2 word whose slot X holds `p` (R81); its operands stand in the word. -/
def pairInstr : PairOp → Instr
  | .smov => .smovPair
  | .sadd => .saddPair
  | .ssub => .ssubPair
  | .smul => .smulPair
  | .sand => .sandPair
  | .sor => .sorPair
  | .sxor => .sxorPair
  | .sshl => .sshlPair
  | .sshr => .sshrPair
  | .ssra => .ssraPair
  | .smin => .sminPair
  | .smax => .smaxPair
  | .spopc => .spopcPair
  | .sclz => .sclzPair
  | .mand => .mandPair
  | .mor => .morPair
  | .mxor => .mxorPair
  | .mnot => .mnotPair
  | .vmov => .vmovPair
  | .vadd => .vaddPair
  | .vsub => .vsubPair
  | .vmul => .vmulPair
  | .vmin => .vminPair
  | .vmax => .vmaxPair
  | .vabsd => .vabsdPair
  | .vand => .vandPair
  | .vor => .vorPair
  | .vxor => .vxorPair
  | .vshl => .vshlPair
  | .vshr => .vshrPair
  | .vsra => .vsraPair
  | .vpopc => .vpopcPair
  | .vclz => .vclzPair
  | .vadds => .vaddsPair
  | .vsubs => .vsubsPair
  | .vfadd => .vfaddPair
  | .vfsub => .vfsubPair
  | .vfmul => .vfmulPair
  | .vfmin => .vfminPair
  | .vfmax => .vfmaxPair

/-- The result of decoding: an instruction, or the cause that the word raises (R110). -/
abbrev Decoded := Except BadWord Instr

/-- A word that raises a cause instead of being an instruction. -/
def illegal (w : W64) (cause detail : Nat) (y : Bool) : Decoded :=
  .error ⟨w, BitVec.ofNat 6 cause, BitVec.ofNat 8 detail, y⟩

/-- R59, R87, R112: of the failing checks the lowest cause is taken with its lowest DETAIL, and PAIRY is set when it
arose in slot Y alone. -/
def takeChecks (w : W64) (cs : List Check) (i : Instr) : Decoded :=
  match failing cs with
  | [] => .ok i
  | c :: rest =>
    let cause := rest.foldl (fun m e => min m e.cause) c.cause
    let taken := (c :: rest).filter (fun e => e.cause == cause)
    illegal w cause (taken.foldl (fun m e => min m e.detail) 255) (taken.all (·.y))

/-- R110 step 3: an opcode marked s, or a system register index of 0x80 or more. -/
def privilegeDetail (i : Instr) : Option Nat :=
  match i with
  | .eret | .halt | .tlbinv _ _ _ => some 1
  | .mfsr _ _ idx => if 0x80 ≤ idx.toNat then some 2 else none
  | .mtsr _ idx _ => if 0x80 ≤ idx.toNat then some 2 else none
  | _ => none

/-- Steps 2-4 of R110 for an F3 or FI word. -/
def takeCandidate (sysMode : Bool) (w : W64) (missing : Nat) : Option Candidate → Decoded
  | none => illegal w 2 missing false
  | some (cs, i) =>
    match privilegeDetail i, sysMode with
    | some n, false => illegal w 7 n false
    | _, _ => takeChecks w (cs ++ i.checks) i

/-- The codes of the two slots of a P2 word. -/
def codeX (w : W64) : Option PairOp := PairOps.ofCode (w.extractLsb' 55 7)
def codeY (w : W64) : Option PairOp := PairOps.ofCode (w.extractLsb' 24 7)

/-- A P2 word (R81-R87, R111). ILLEGAL_PAIR arises in the word as a whole: PAIRY is 0 (R87). -/
def decodePair (w : W64) : Decoded :=
  match codeX w, codeY w with
  | some p, some op => takeChecks w (pairChecks p (halfX w) op (halfY w)) (pairInstr p)
  | some p, none => takeChecks w (⟨false, 5, 1, false⟩ :: halfChecks p (halfX w) false) .nop
  | none, some op => takeChecks w (⟨false, 5, 1, false⟩ :: halfChecks op (halfY w) true) .nop
  | none, none => illegal w 5 1 false

/-- Steps 1-4 of R110. -/
def decodeWord (sysMode : Bool) (w : W64) : Decoded :=
  match (w.extractLsb' 62 2).toNat with
  | 0 => takeCandidate sysMode w 0 (f3Candidate (f3Fields w))
  | 2 => takeCandidate sysMode w 1 (fiCandidate (fiFields w))
  | 1 => decodePair w
  | _ => illegal w 1 0 false

/-- Decoding is total: a word that is no instruction is the row ILLEGAL_WORD, whose cause `decodeWord` names. -/
def decode (sysMode : Bool) (w : W64) : Instr :=
  match decodeWord sysMode w with
  | .ok i => i
  | .error _ => .illegalWord

/-- The bytes at an address as a word, little-endian (R68): a word needs 8 bytes. -/
def wordOfBytes : List Byte → Option W64
  | b0 :: b1 :: b2 :: b3 :: b4 :: b5 :: b6 :: b7 :: _ =>
    some (b7 ++ b6 ++ b5 ++ b4 ++ b3 ++ b2 ++ b1 ++ b0)
  | _ => none

/-- The eight bytes of a word, the least significant first. -/
def bytesOfWord (w : W64) : List Byte := (List.range 8).map (fun k => w.extractLsb' (8 * k) 8)

/-- Decoding bytes: fewer than 8 bytes are no word. -/
def decodeBytes (sysMode : Bool) (bs : List Byte) : Option Instr := (wordOfBytes bs).map (decode sysMode)

/-- The instruction that the bits of a row of the opcode table decode to, in system mode; none for a word that is no
instruction. -/
def decodeTableWord (_nbits w : Nat) : Option Instr :=
  match decodeBytes true (bytesOfWord (BitVec.ofNat 64 w)) with
  | some .illegalWord => none
  | r => r

/-! ### The encoder -/

/-- The word of F3 fields (R70). -/
def f3Word (opc : BitVec 10) (p : Pred) (la : BitVec 4) (d a b : BitVec 11) (ma mb : BitVec 3) (var : BitVec 4) : W64 :=
  BitVec.cast (by decide)
    (0b00#2 ++ opc ++ la ++ BitVec.ofBool p.inv ++ p.mask ++ d ++ a ++ b ++ ma ++ mb ++ var)

/-- The word of FI fields (R71). -/
def fiWord (opc : BitVec 10) (p : Pred) (la : BitVec 4) (d a : BitVec 11) (var : BitVec 4) (imm : BitVec 17) : W64 :=
  BitVec.cast (by decide) (0b10#2 ++ opc ++ la ++ BitVec.ofBool p.inv ++ p.mask ++ d ++ a ++ var ++ imm)

/-- The bits of one slot of a P2 word (R81). -/
def halfBits (op : PairOp) (h : Half) : BitVec 31 :=
  BitVec.cast (by decide) (op.code ++ h.var ++ h.d ++ h.s ++ BitVec.ofBool h.m)

/-- A P2 word (R81). -/
def p2Word (p : PairOp) (x : Half) (op : PairOp) (y : Half) : W64 :=
  BitVec.cast (by decide) (0b01#2 ++ halfBits p x ++ halfBits op y)

namespace Enc

/-- An operand in an 11-bit field (R73). -/
abbrev x11 {n : Nat} (r : BitVec n) : BitVec 11 := r.setWidth 11

def sUn (c : BitVec 10) (o : SUn) : W64 := f3Word c o.p 0 (x11 o.d) (x11 o.a) 0 0 0 0
def sUnT (c : BitVec 10) (o : SUnT) : W64 := f3Word c o.p 0 (x11 o.d) (x11 o.a) 0 0 0 o.t.code
def sBin (c : BitVec 10) (o : SBin) : W64 := f3Word c o.p 0 (x11 o.d) (x11 o.a) (x11 o.b) 0 0 0
def sBinT (c : BitVec 10) (o : SBinT) : W64 := f3Word c o.p 0 (x11 o.d) (x11 o.a) (x11 o.b) 0 0 o.t.code
def sImm (c : BitVec 10) (o : SImm) : W64 := fiWord c o.p 0 (x11 o.d) (x11 o.a) 0 o.imm
def sImmT (c : BitVec 10) (o : SImmT) : W64 := fiWord c o.p 0 (x11 o.d) (x11 o.a) o.t.code o.imm
/-- R92: a wide immediate stands in A and IMM17. -/
def wide (c : BitVec 10) (p : Pred) (d : BitVec 11) (imm : BitVec 28) : W64 :=
  fiWord c p 0 d (imm.extractLsb' 17 11) 0 (imm.setWidth 17)
def mBin (c : BitVec 10) (o : MBin) : W64 := f3Word c o.p 0 (x11 o.d) (x11 o.a) (x11 o.b) 0 0 0
def vUn (c : BitVec 10) (o : VUn) (mb : BitVec 3) : W64 := f3Word c o.p 0 o.d o.a 0 o.ma mb o.t.code
def vBin (c : BitVec 10) (o : VBin) : W64 := f3Word c o.p 0 o.d o.a o.b o.ma o.mb o.t.code
def vImm (c : BitVec 10) (o : VImm) : W64 := fiWord c o.p 0 o.d o.a o.t.code o.imm
def vField (c : BitVec 10) (o : VField) : W64 := f3Word c o.p 0 o.d o.a (x11 o.sb) 0 0 o.t.code
/-- R122, R146: the condition in D[10:8], the mask destination in D[3:0]. -/
def condD (c : BitVec 3) (md : MReg) : BitVec 11 := c ++ (0#4 : BitVec 4) ++ md
def spec (c : BitVec 10) (o : SpecOp) : W64 := f3Word c o.p o.la o.d o.a 0 o.ma 0 8
def laneSel (c : BitVec 10) (o : LaneSel) : W64 := f3Word c o.p 0 o.d o.a (x11 o.sb) o.ma 0 o.t.code
def laneImm (c : BitVec 10) (o : LaneImm) : W64 := fiWord c o.p 0 o.d o.a o.t.code (o.n.setWidth 17)
def red (c : BitVec 10) (o : RedOp) : W64 := f3Word c o.p 0 o.d o.a 0 o.ma 0 o.op.code
def seg (c : BitVec 10) (o : SegOp) : W64 := f3Word c o.p 0 o.d o.a (x11 o.mb) o.ma 0 o.t.code
/-- R88: MODA of a memory form. -/
def modA (chk : Bool) (o : Ord) : BitVec 3 := BitVec.ofBool chk ++ o.code
/-- R88: VAR of a memory form. -/
def ws (w : Width) (s : Scope) : BitVec 4 := w.code ++ s.code
def vMem (c : BitVec 10) (o : VMem) (mb : BitVec 3) : W64 :=
  f3Word c o.p o.la o.d (x11 o.sa) o.vb (modA o.chk o.ord) mb (ws o.w o.scope)
def bMem (c : BitVec 10) (o : BMem) : W64 :=
  f3Word c o.p o.la o.d (x11 o.sa) (x11 o.sb) (modA o.chk o.ord) o.scale (ws o.w o.scope)
def sMem (c : BitVec 10) (o : SMem) (mb : BitVec 3) : W64 :=
  f3Word c o.p o.la (x11 o.d) (x11 o.sa) (x11 o.sb) (modA o.chk o.ord) mb (ws o.w o.scope)
def vMemI (c : BitVec 10) (o : VMemI) : W64 := fiWord c o.p o.la o.d (x11 o.sa) (ws o.w o.scope) o.imm
def sMemI (c : BitVec 10) (o : SMemI) : W64 := fiWord c o.p o.la (x11 o.d) (x11 o.sa) (ws o.w o.scope) o.imm
/-- R206: VAR of VSTQ. -/
def wsQ (a16 : Bool) (s : Scope) : BitVec 4 := (0#1) ++ BitVec.ofBool a16 ++ s.code
def fe (c : BitVec 10) (o : FEOp) (b : BitVec 11) (mb : BitVec 3) : W64 :=
  f3Word c o.p o.la (x11 o.d) (x11 o.sa) b (modA false o.ord) mb (ws .b64 o.scope)
def mma (c : BitVec 10) (o : MmaOp) (hi : BitVec 3) : W64 :=
  f3Word c o.p o.la (o.sc ++ o.ad) (x11 o.ta) (x11 o.tb) 0 0 (hi ++ BitVec.ofBool o.pair)
def recOp (c : BitVec 10) (o : RecOp) (b : BitVec 11) (tb : Bool) : W64 :=
  f3Word c o.p o.la (x11 o.ad) (x11 o.sa) b 0 0 ((0#1) ++ BitVec.ofBool tb ++ BitVec.ofBool o.rb ++ BitVec.ofBool o.pair)
def copy (c : BitVec 10) (o : CopyOp) (b : BitVec 11) (out : Bool) : W64 :=
  f3Word c o.p o.la (x11 o.tok) (x11 o.sa) b 0 0 ((0#1) ++ BitVec.ofBool out ++ BitVec.ofBool o.int ++ BitVec.ofBool o.rows)
/-- A VAR whose bit 0 is an option. -/
def opt (b : Bool) : BitVec 4 := (BitVec.ofBool b).setWidth 4
/-- The predicate of the current word. -/
def irPred (ir : W64) : Pred := ⟨ir.getLsbD 47, ir.extractLsb' 43 4⟩

end Enc

/-- PMASK and PINV of an F3 or FI word (R70, R71); a word of another form has none. -/
def wordPred (w : W64) : Pred := if w.getLsbD 62 then ⟨false, 0⟩ else Enc.irPred w

open Enc in
/-- The word of an instruction, from the same tables as the decoder. The rows without operand fields take their operands
from `ir`, the current word. An event, and the two forms of MTSR that the value of a register tells apart, have no word
of their own. -/
def encode (ir : W64) : Instr → Option W64
  | .nop => some (f3Word 0x000 (irPred ir) 0 0 0 0 0 0 0)
  | .smov o => some (sUn 0x001 o)
  | .sli o => some (wide 0x002 o.p (x11 o.d) o.imm)
  | .slix o => some (wide 0x003 o.p (x11 o.d) o.imm)
  | .sadd o => some (sBinT 0x004 o)
  | .ssub o => some (sBinT 0x005 o)
  | .smul o => some (sBinT 0x006 o)
  | .smulh o => some (sBinT 0x007 o)
  | .sdiv o => some (sBinT 0x008 o)
  | .srem o => some (sBinT 0x009 o)
  | .sshl o => some (sBinT 0x00D o)
  | .sshr o => some (sBinT 0x00E o)
  | .ssra o => some (sBinT 0x00F o)
  | .smin o => some (sBinT 0x010 o)
  | .smax o => some (sBinT 0x011 o)
  | .sand o => some (sBin 0x00A o)
  | .sor o => some (sBin 0x00B o)
  | .sxor o => some (sBin 0x00C o)
  | .ssel o => some (sBin 0x013 o)
  | .smulI o => some (sImmT 0x006 o)
  | .sshlI o => some (sImmT 0x00D o)
  | .sshrI o => some (sImmT 0x00E o)
  | .ssraI o => some (sImmT 0x00F o)
  | .sminI o => some (sImmT 0x010 o)
  | .smaxI o => some (sImmT 0x011 o)
  | .saddi o => some (sImmT 0x016 o)
  | .sandI o => some (sImm 0x00A o)
  | .sorI o => some (sImm 0x00B o)
  | .sxorI o => some (sImm 0x00C o)
  | .spopc o => some (sUnT 0x014 o)
  | .sclz o => some (sUnT 0x015 o)
  | .scmp o => some (f3Word 0x012 o.p 0 (condD o.c.code o.md) (x11 o.a) (x11 o.b) 0 0 o.t.code)
  | .scmpI o => some (fiWord 0x012 o.p 0 (condD o.c.code o.md) (x11 o.a) o.t.code o.imm)
  | .mfsr p d idx => some (f3Word 0x017 p 0 (x11 d) (x11 idx) 0 0 0 0)
  | .mtsr p idx a => some (f3Word 0x018 p 0 (x11 idx) (x11 a) 0 0 0 0)
  | .srdv p d va sb => some (f3Word 0x019 p 0 (x11 d) va (x11 sb) 0 0 0)
  | .srdvI p d va n => some (fiWord 0x019 p 0 (x11 d) va 0 (n.setWidth 17))
  | .swrv p vd sa sb => some (f3Word 0x01A p 0 vd (x11 sa) (x11 sb) 0 0 0)
  | .swrvI p vd sa n => some (fiWord 0x01A p 0 vd (x11 sa) 0 (n.setWidth 17))
  | .mtm p md sa => some (f3Word 0x01B p 0 (x11 md) (x11 sa) 0 0 0 0)
  | .mfm p d ma => some (f3Word 0x01C p 0 (x11 d) (x11 ma) 0 0 0 0)
  | .mand o => some (mBin 0x01D o)
  | .mor o => some (mBin 0x01E o)
  | .mxor o => some (mBin 0x01F o)
  | .mnot p md ma => some (f3Word 0x020 p 0 (x11 md) (x11 ma) 0 0 0 0)
  | .mcnt p d ma => some (f3Word 0x021 p 0 (x11 d) (x11 ma) 0 0 0 0)
  | .vmov o => some (vUn 0x080 o 0)
  | .vli p t d imm => some (fiWord 0x081 p 0 d 0 t.code imm)
  | .vadd o => some (vBin 0x082 o)
  | .vsub o => some (vBin 0x083 o)
  | .vmul o => some (vBin 0x084 o)
  | .vmulh o => some (vBin 0x085 o)
  | .vmad o => some (vBin 0x086 o)
  | .vmin o => some (vBin 0x087 o)
  | .vmax o => some (vBin 0x088 o)
  | .vabsd o => some (vBin 0x089 o)
  | .vand o => some (vBin 0x08A o)
  | .vor o => some (vBin 0x08B o)
  | .vxor o => some (vBin 0x08C o)
  | .vshl o => some (vBin 0x08D o)
  | .vshr o => some (vBin 0x08E o)
  | .vsra o => some (vBin 0x08F o)
  | .vsel o => some (vBin 0x093 o)
  | .vadds o => some (vBin 0x094 o)
  | .vsubs o => some (vBin 0x095 o)
  | .vdot4 o => some (vBin 0x096 o)
  | .vaddI o => some (vImm 0x082 o)
  | .vsubI o => some (vImm 0x083 o)
  | .vmulI o => some (vImm 0x084 o)
  | .vminI o => some (vImm 0x087 o)
  | .vmaxI o => some (vImm 0x088 o)
  | .vandI o => some (vImm 0x08A o)
  | .vorI o => some (vImm 0x08B o)
  | .vxorI o => some (vImm 0x08C o)
  | .vshlI o => some (vImm 0x08D o)
  | .vshrI o => some (vImm 0x08E o)
  | .vsraI o => some (vImm 0x08F o)
  | .vaddsI o => some (vImm 0x094 o)
  | .vsubsI o => some (vImm 0x095 o)
  | .vpopc o => some (vUn 0x090 o 0)
  | .vclz o => some (vUn 0x091 o 0)
  | .vcmp o => some (f3Word 0x092 o.p 0 (condD o.c.code o.md) o.a o.b o.ma o.mb o.t.code)
  | .vcmpI o => some (fiWord 0x092 o.p 0 (condD o.c.code o.md) o.a o.t.code o.imm)
  | .vbfx o => some (vField 0x097 o)
  | .vbfi o => some (vField 0x098 o)
  | .vlane p d => some (f3Word 0x099 p 0 d 0 0 0 0 0)
  | .vfadd o => some (vBin 0x100 o)
  | .vfsub o => some (vBin 0x101 o)
  | .vfmul o => some (vBin 0x102 o)
  | .vfma o => some (vBin 0x103 o)
  | .vfmin o => some (vBin 0x104 o)
  | .vfmax o => some (vBin 0x105 o)
  | .vadd2 o => some (vBin 0x108 o)
  | .vfma2 o => some (vBin 0x109 o)
  | .vscl o => some (vBin 0x116 o)
  | .vfdot2 o => some (vBin 0x118 o)
  | .vfaddI o => some (vImm 0x100 o)
  | .vfsubI o => some (vImm 0x101 o)
  | .vfmulI o => some (vImm 0x102 o)
  | .vfminI o => some (vImm 0x104 o)
  | .vfmaxI o => some (vImm 0x105 o)
  | .vfcmp o => some (f3Word 0x106 o.p 0 (condD o.c.code o.md) o.a o.b o.ma o.mb o.t.code)
  | .vfcmpI o => some (fiWord 0x106 o.p 0 (condD o.c.code o.md) o.a o.t.code o.imm)
  | .vfcls o => some (vUn 0x107 o 0)
  | .vfrnd o rm => some (vUn 0x11B o rm.code)
  | .vrcp o => some (spec 0x10A o)
  | .vrsq o => some (spec 0x10B o)
  | .vsqrt o => some (spec 0x10C o)
  | .vexp2 o => some (spec 0x10D o)
  | .vlog2 o => some (spec 0x10E o)
  | .vtanh o => some (spec 0x10F o)
  | .vsigm o => some (spec 0x110 o)
  | .vsinpi o => some (spec 0x111 o)
  | .vcospi o => some (spec 0x112 o)
  | .vcvt o => some (f3Word 0x113 o.p 0 o.d o.a ((0#4) ++ o.part ++ o.src.code) o.ma (BitVec.ofBool o.ovnan ++ BitVec.ofBool o.sat ++ BitVec.ofBool o.rz) o.dst.code)
  | .vcvq4 p d a sb => some (f3Word 0x114 p 0 d a (x11 sb) 0 0 0)
  | .vdq4 p d a sb => some (f3Word 0x115 p 0 d a (x11 sb) 0 0 0)
  | .vsclI p t d a code => some (fiWord 0x116 p 0 d a t.code (code.setWidth 17))
  | .vgscl p d a => some (f3Word 0x117 p 0 d a 0 0 0 8)
  | .vdot16 p d a b => some (f3Word 0x119 p 0 d a b 0 0 11)
  | .vrope3 p la d a => some (f3Word 0x11A p la d a 0 0 0 8)
  | .vshuf o => some (vBin 0x180 o)
  | .vbcast o => some (laneSel 0x181 o)
  | .vbcastI o => some (laneImm 0x181 o)
  | .vrot o => some (laneSel 0x182 o)
  | .vrotI o => some (laneImm 0x182 o)
  | .vred o => some (red 0x183 o)
  | .vscan o => some (red 0x184 o)
  | .vsegred o => some (seg 0x185 o)
  | .vsegscan o => some (seg 0x186 o)
  | .vconfl p t md a => some (f3Word 0x187 p 0 (x11 md) a 0 0 0 t.code)
  | .vdupadd p t d a b => some (f3Word 0x188 p 0 d a b 0 0 t.code)
  | .vbal p idx md a b => some (f3Word 0x189 p 0 (x11 md) a b 0 0 (opt idx))
  | .visect p t d a b => some (f3Word 0x18A p 0 d a b 0 0 t.code)
  | .vmrg p uns hi idx d a b => some (f3Word 0x18B p 0 d a b 0 0 ((0#1) ++ BitVec.ofBool idx ++ BitVec.ofBool hi ++ BitVec.ofBool uns))
  | .vcmpr p d a mb => some (f3Word 0x18C p 0 d a (x11 mb) 0 0 0)
  | .vexpd p d a mb => some (f3Word 0x18D p 0 d a (x11 mb) 0 0 0)
  | .vballot p md a => some (f3Word 0x18E p 0 (x11 md) a 0 0 0 0)
  | .vany p all md a => some (f3Word 0x18F p 0 (x11 md) a 0 0 0 (opt all))
  | .kvslot p la d a sb md => some (f3Word 0x190 p la d a ((0#1) ++ md ++ sb) 0 0 0)
  | .vtriple p la d a n => some (f3Word 0x191 p la d a (x11 n) 0 0 8)
  | .tokroute p la d a sb => some (f3Word 0x192 p la d a (x11 sb) 0 0 0)
  | .vld o => some (vMem 0x200 o o.scale)
  | .vst o => some (vMem 0x201 o o.scale)
  | .vlds o => some (vMem 0x206 o o.scale)
  | .vsts o => some (vMem 0x207 o o.scale)
  | .vcas o => some (vMem 0x20B o o.scale)
  | .vldq o => some (vMem 0x217 o o.scale)
  | .vldI o => some (vMemI 0x200 o)
  | .vstI o => some (vMemI 0x201 o)
  | .vldbI o => some (vMemI 0x202 o)
  | .vstbI o => some (vMemI 0x203 o)
  | .vldsI o => some (vMemI 0x206 o)
  | .vstsI o => some (vMemI 0x207 o)
  | .vldqI o => some (vMemI 0x217 o)
  | .vldb o => some (bMem 0x202 o)
  | .vstb o => some (bMem 0x203 o)
  | .sld o => some (sMem 0x204 o o.scale)
  | .sst o => some (sMem 0x205 o o.scale)
  | .scas o => some (sMem 0x20D o o.scale)
  | .sldI o => some (sMemI 0x204 o)
  | .sstI o => some (sMemI 0x205 o)
  | .vstq o a16 => some (f3Word 0x218 o.p o.la o.d (x11 o.sa) o.vb (modA o.chk o.ord) o.scale (wsQ a16 o.scope))
  | .vstqI o a16 => some (fiWord 0x218 o.p o.la o.d (x11 o.sa) (wsQ a16 o.scope) o.imm)
  | .splk p d a => some (f3Word 0x208 p 0 (x11 d) (x11 a) 0 0 0 0)
  | .sptag p a b => some (f3Word 0x209 p 0 0 (x11 a) (x11 b) 0 0 0)
  | .sptagInv p a => some (f3Word 0x209 p 0 1 (x11 a) 0 0 0 0)
  | .vatom o op => some (vMem 0x20A o op.code)
  | .satom o op => some (sMem 0x20C o op.code)
  | .vatoms o op => some (vMem 0x20E o op.code)
  | .lfull o => some (fe 0x20F o 0 0)
  | .lfullTake o => some (fe 0x20F o 0 1)
  | .sfull o => some (fe 0x210 o 0 0)
  | .sfullNb o md => some (fe 0x210 o (x11 md) 2)
  | .fempty o => some (fe 0x211 o 0 0)
  | .fence p kind scope eng => some (f3Word 0x212 p 0 0 0 0 kind.code 0 (BitVec.ofBool eng ++ scope.code))
  | .txbegin p dist cl => some (f3Word 0x213 p 0 dist 0 0 0 0 (opt cl))
  | .txend => some (f3Word 0x214 (irPred ir) 0 0 0 0 0 0 0)
  | .txabort => some (fiWord 0x215 (irPred ir) 0 0 0 0 ((ir.setWidth 8 : BitVec 8).setWidth 17))
  | .forkpg p la d a b => some (f3Word 0x216 p la (x11 d) (x11 a) (x11 b) 0 0 0)
  | .movtc p la td sa => some (f3Word 0x280 p la (x11 td) (x11 sa) 0 0 0 0)
  | .movftc p la d ta => some (f3Word 0x281 p la (x11 d) (x11 ta) 0 0 0 0)
  | .tld p la td sa => some (f3Word 0x282 p la (x11 td) (x11 sa) 0 0 0 0)
  | .tst p la sa tb => some (f3Word 0x283 p la 0 (x11 sa) (x11 tb) 0 0 0)
  | .tzero p la td => some (f3Word 0x284 p la (x11 td) 0 0 0 0 0)
  | .tldv p la td va sb => some (f3Word 0x285 p la (x11 td) va (x11 sb) 0 0 0)
  | .mma o => some (mma 0x286 o 0)
  | .mbin o op => some (mma 0x287 o ((0#1) ++ op.code))
  | .mrule p la epi slotNo sa sb => some (f3Word 0x288 p la (x11 slotNo) (x11 sa) (x11 sb) 0 0 (opt epi))
  | .mrec o ac tb => some (recOp 0x289 o (match ac with | none => 0x7FF | some a => x11 a) tb)
  | .mbwd o ah => some (recOp 0x28A o (x11 ah) false)
  | .mepi p la ad af sc => some (f3Word 0x28B p la (x11 ad) (x11 af) (x11 sc) 0 0 0)
  | .azero p la ad => some (f3Word 0x28C p la (x11 ad) 0 0 0 0 0)
  | .ald p la sp ad sa sb => some (f3Word 0x28D p la (x11 ad) (x11 sa) (x11 sb) 0 0 (opt sp))
  | .ast p la sp sa af sb => some (f3Word 0x28E p la (x11 af) (x11 sa) (x11 sb) 0 0 (opt sp))
  | .amov p la ad af => some (f3Word 0x28F p la (x11 ad) (x11 af) 0 0 0 0)
  | .acalloc p la d sa => some (f3Word 0x290 p la (x11 d) (x11 sa) 0 0 0 0)
  | .acallocNb p la d sa => some (f3Word 0x290 p la (x11 d) (x11 sa) 0 0 0 1)
  | .acfree p la sa => some (f3Word 0x291 p la 0 (x11 sa) 0 0 0 0)
  | .eld p la sp ed sa => some (f3Word 0x292 p la (x11 ed) (x11 sa) 0 0 0 (opt sp))
  | .est p la sp sa eb => some (f3Word 0x293 p la (x11 eb) (x11 sa) 0 0 0 (opt sp))
  | .mwait => some (f3Word 0x294 (irPred ir) (ir.extractLsb' 48 4) 0 0 0 0 0 0)
  | .stexp p la vd sa sb => some (f3Word 0x295 p la vd (x11 sa) (x11 sb) 0 0 0)
  | .stimp p la vd sa sb => some (f3Word 0x296 p la vd (x11 sa) (x11 sb) 0 0 0)
  | .cpy o out => some (copy 0x300 o 0 out)
  | .cgath o fmt => some (copy 0x301 o (x11 fmt) false)
  | .cscat o fmt => some (copy 0x302 o (x11 fmt) false)
  | .cexp o fmt => some (copy 0x303 o (x11 fmt) false)
  | .cpack o fmt => some (copy 0x304 o (x11 fmt) false)
  | .cpost p la sa => some (f3Word 0x305 p la 0 (x11 sa) 0 0 0 0)
  | .cpostBind p la sa => some (f3Word 0x305 p la 0 (x11 sa) 0 0 0 1)
  | .waittk => some (fiWord 0x306 (irPred ir) 0 0 0 0 ((ir.setWidth 8 : BitVec 8).setWidth 17))
  | .waittkReg p sa => some (f3Word 0x306 p 0 0 (x11 sa) 0 0 0 0)
  | .tkint => some (fiWord 0x307 (irPred ir) 0 0 0 (opt (ir.getLsbD 17)) ((ir.setWidth 8 : BitVec 8).setWidth 17))
  | .tkintReg p group sa => some (f3Word 0x307 p 0 0 (x11 sa) 0 0 0 (opt group))
  | .uiret => some (f3Word 0x308 (irPred ir) 0 0 0 0 0 0 0)
  | .chain p la sa sb => some (f3Word 0x309 p la 0 (x11 sa) (x11 sb) 0 0 0)
  | .chwait p sa sb => some (f3Word 0x30A p 0 0 (x11 sa) (x11 sb) 0 0 0)
  | .gjoin p d sa => some (f3Word 0x30B p 0 (x11 d) (x11 sa) 0 0 0 0)
  | .gleave => some (f3Word 0x30C (irPred ir) 0 0 0 0 0 0 0)
  | .gbar => some (f3Word 0x30D (irPred ir) 0 0 0 0 0 0 0)
  | .gbarRole p sa => some (f3Word 0x30D p 0 0 (x11 sa) 0 0 0 1)
  | .gbarRoleI p role => some (fiWord 0x30D p 0 0 0 1 (role.setWidth 17))
  | .gbarRows p sa => some (f3Word 0x30D p 0 0 (x11 sa) 0 0 0 2)
  | .gbarRowsI p n => some (fiWord 0x30D p 0 0 0 2 n)
  | .vsync p va => some (f3Word 0x30E p 0 0 va 0 0 0 0)
  | .gelect p md sa => some (f3Word 0x30F p 0 (x11 md) (x11 sa) 0 0 0 0)
  | .gelectI p md role => some (fiWord 0x30F p 0 (x11 md) 0 0 (role.setWidth 17))
  | .ckpt => some (f3Word 0x314 (irPred ir) 0 0 0 0 0 0 0)
  | .spawn p la sa => some (f3Word 0x310 p la 0 (x11 sa) 0 0 0 0)
  | .spawnPipe p la sa => some (f3Word 0x310 p la 0 (x11 sa) 0 0 0 1)
  | .qpush p la sa sb => some (f3Word 0x311 p la 0 (x11 sa) (x11 sb) 0 0 0)
  | .qpushClose p la sa => some (f3Word 0x311 p la 0 (x11 sa) 0 0 0 1)
  | .qpop p la d md sa => some (f3Word 0x312 p la (x11 d) (x11 sa) (x11 md) 0 0 0)
  | .tdone => some (f3Word 0x313 (irPred ir) 0 0 0 0 0 0 0)
  | .tmerge p la d sa => some (f3Word 0x315 p la (x11 d) (x11 sa) 0 0 0 0)
  | .tunmerge p la sa => some (f3Word 0x316 p la 0 (x11 sa) 0 0 0 0)
  | .swmv p la d sa => some (f3Word 0x317 p la (x11 d) (x11 sa) 0 0 0 0)
  | .swmig p la d sa sb => some (f3Word 0x318 p la (x11 d) (x11 sa) (x11 sb) 0 0 0)
  | .swage p la sa => some (f3Word 0x319 p la 0 (x11 sa) 0 0 0 0)
  | .xput p la tok sa => some (f3Word 0x31A p la (x11 tok) (x11 sa) 0 0 0 0)
  | .xgetB64 p la d sa => some (f3Word 0x31B p la (x11 d) (x11 sa) 0 0 0 0)
  | .xgetBlk p la sa => some (f3Word 0x31B p la 0 (x11 sa) 0 0 0 1)
  | .xsig p la op tok sa sb => some (f3Word 0x31E p la (x11 tok) (x11 sa) (x11 sb) 0 0 op.code)
  | .xcoll p la sa => some (f3Word 0x31C p la 0 (x11 sa) 0 0 0 0)
  | .xwait p sa => some (f3Word 0x31D p 0 0 (x11 sa) 0 0 0 0)
  | .br p dist off => some (wide 0x380 p dist off)
  | .bru p off => some (wide 0x381 p 0 off)
  | .jmp p off => some (wide 0x382 p 0 off)
  | .jmpReg p sa => some (f3Word 0x382 p 0 0 (x11 sa) 0 0 0 0)
  | .call p d off => some (wide 0x383 p (x11 d) off)
  | .callReg p d sa => some (f3Word 0x383 p 0 (x11 d) (x11 sa) 0 0 0 0)
  | .ret p sa => some (f3Word 0x384 p 0 0 (x11 sa) 0 0 0 0)
  | .loop p d off => some (wide 0x385 p (x11 d) off)
  | .exit => some (f3Word 0x386 (irPred ir) 0 0 0 0 0 0 0)
  | .trap => some (fiWord 0x387 (irPred ir) 0 0 0 0 ((ir.setWidth 8 : BitVec 8).setWidth 17))
  | .brk => some (f3Word 0x388 (irPred ir) 0 0 0 0 0 0 0)
  | .eret => some (f3Word 0x389 (irPred ir) 0 0 0 0 0 0 0)
  | .halt => some (f3Word 0x38A (irPred ir) 0 0 0 0 0 0 0)
  | .tlbinv p sa sb => some (f3Word 0x38B p 0 0 (x11 sa) (x11 sb) 0 0 0)
  | .smovPair => (codeY ir).map (fun op => p2Word .smov (halfX ir) op (halfY ir))
  | .saddPair => (codeY ir).map (fun op => p2Word .sadd (halfX ir) op (halfY ir))
  | .ssubPair => (codeY ir).map (fun op => p2Word .ssub (halfX ir) op (halfY ir))
  | .smulPair => (codeY ir).map (fun op => p2Word .smul (halfX ir) op (halfY ir))
  | .sandPair => (codeY ir).map (fun op => p2Word .sand (halfX ir) op (halfY ir))
  | .sorPair => (codeY ir).map (fun op => p2Word .sor (halfX ir) op (halfY ir))
  | .sxorPair => (codeY ir).map (fun op => p2Word .sxor (halfX ir) op (halfY ir))
  | .sshlPair => (codeY ir).map (fun op => p2Word .sshl (halfX ir) op (halfY ir))
  | .sshrPair => (codeY ir).map (fun op => p2Word .sshr (halfX ir) op (halfY ir))
  | .ssraPair => (codeY ir).map (fun op => p2Word .ssra (halfX ir) op (halfY ir))
  | .sminPair => (codeY ir).map (fun op => p2Word .smin (halfX ir) op (halfY ir))
  | .smaxPair => (codeY ir).map (fun op => p2Word .smax (halfX ir) op (halfY ir))
  | .spopcPair => (codeY ir).map (fun op => p2Word .spopc (halfX ir) op (halfY ir))
  | .sclzPair => (codeY ir).map (fun op => p2Word .sclz (halfX ir) op (halfY ir))
  | .mandPair => (codeY ir).map (fun op => p2Word .mand (halfX ir) op (halfY ir))
  | .morPair => (codeY ir).map (fun op => p2Word .mor (halfX ir) op (halfY ir))
  | .mxorPair => (codeY ir).map (fun op => p2Word .mxor (halfX ir) op (halfY ir))
  | .mnotPair => (codeY ir).map (fun op => p2Word .mnot (halfX ir) op (halfY ir))
  | .vmovPair => (codeY ir).map (fun op => p2Word .vmov (halfX ir) op (halfY ir))
  | .vaddPair => (codeY ir).map (fun op => p2Word .vadd (halfX ir) op (halfY ir))
  | .vsubPair => (codeY ir).map (fun op => p2Word .vsub (halfX ir) op (halfY ir))
  | .vmulPair => (codeY ir).map (fun op => p2Word .vmul (halfX ir) op (halfY ir))
  | .vminPair => (codeY ir).map (fun op => p2Word .vmin (halfX ir) op (halfY ir))
  | .vmaxPair => (codeY ir).map (fun op => p2Word .vmax (halfX ir) op (halfY ir))
  | .vabsdPair => (codeY ir).map (fun op => p2Word .vabsd (halfX ir) op (halfY ir))
  | .vandPair => (codeY ir).map (fun op => p2Word .vand (halfX ir) op (halfY ir))
  | .vorPair => (codeY ir).map (fun op => p2Word .vor (halfX ir) op (halfY ir))
  | .vxorPair => (codeY ir).map (fun op => p2Word .vxor (halfX ir) op (halfY ir))
  | .vshlPair => (codeY ir).map (fun op => p2Word .vshl (halfX ir) op (halfY ir))
  | .vshrPair => (codeY ir).map (fun op => p2Word .vshr (halfX ir) op (halfY ir))
  | .vsraPair => (codeY ir).map (fun op => p2Word .vsra (halfX ir) op (halfY ir))
  | .vpopcPair => (codeY ir).map (fun op => p2Word .vpopc (halfX ir) op (halfY ir))
  | .vclzPair => (codeY ir).map (fun op => p2Word .vclz (halfX ir) op (halfY ir))
  | .vaddsPair => (codeY ir).map (fun op => p2Word .vadds (halfX ir) op (halfY ir))
  | .vsubsPair => (codeY ir).map (fun op => p2Word .vsubs (halfX ir) op (halfY ir))
  | .vfaddPair => (codeY ir).map (fun op => p2Word .vfadd (halfX ir) op (halfY ir))
  | .vfsubPair => (codeY ir).map (fun op => p2Word .vfsub (halfX ir) op (halfY ir))
  | .vfmulPair => (codeY ir).map (fun op => p2Word .vfmul (halfX ir) op (halfY ir))
  | .vfminPair => (codeY ir).map (fun op => p2Word .vfmin (halfX ir) op (halfY ir))
  | .vfmaxPair => (codeY ir).map (fun op => p2Word .vfmax (halfX ir) op (halfY ir))
  | .wakeResume => none
  | .wakeKill => none
  | .txConflictAbort => none
  | .arrayOpStart => none
  | .arrayOpCommit => none
  | .arrayResidueError => none
  | .arrayUncorrectable => none
  | .copyEntryStart => none
  | .copyCompletion => none
  | .userInterruptDelivery => none
  | .cardStart => none
  | .cardCompletion => none
  | .queueAutoClose => none
  | .mergeCompletion => none
  | .swmvCompletion => none
  | .automaticAgeing => none
  | .splitInstantAct => none
  | .fabricTargetWrite => none
  | .fabricTargetSignal => none
  | .fabricTargetRead => none
  | .xgetReply => none
  | .collectivePacket => none
  | .collectiveCompletion => none
  | .collectiveAbort => none
  | .flitCrcFail => none
  | .routeFailure => none
  | .laneFailure => none
  | .illegalWord => none
  | .longLatencyCompletion => none
  | .waveRelease => none
  | .groupHaltDelivery => none
  | .groupResume => none
  | .preemptionRequest => none
  | .compatSwapOut => none
  | .pageFaultServiced => none
  | .pageMapDeclined => none
  | .replayLimit => none
  | .copyDone => none
  | .copyFault => none
  | .cardDone => none
  | .trapRecord => none
  | .retired => none
  | .blocked => none
  | .arrayReplay => none
  | .eccCorrected => none
  | .eccPoison => none
  | .uint => none
  | .trapQueueRelease => none
  | .singleBitError => none
  | .uncorrectableError => none
  | .machineCheck => none
  | .patrolScrub => none
  | .pseudoChannelSparing => none
  | .corePairRetirement => none
  | .clockThrottle => none
  | .resetBoot => none
  | .dispatchRound => none
  | .recordReserving => none
  | .launchDrain => none
  | .interruptCountReached => none
  | .interruptWindowExpiry => none
  | .doorbell => none
  | .kill => none
  | .ctxctlLive => none
  | .ctxctlRetire => none
  | .registerWrite => none
  | .hostAccess => none
  | .setnode => none
  | .setroute => none
  | .bindjobBind => none
  | .bindjobUnbind => none
  | .windowExport => none
  | .windowUnexport => none
  | .extendmr => none
  | .attest => none
  | .readport => none
  | .fwstage => none
  | .fwactivate => none
  | .raisesvn => none
  | .fabricCommandCompletion => none
  | .linkTrained => none
  | .owlFirmwareReplaced => none

end Sys2Proof
end

