-- ==== Sys2Proof/Config.lean ====
section
/-! DEFINITION. What an implementation fixes, and the free values: constants without a body, so that nothing can be
proved of the number they stand for. A free value is applied to the operands it depends on, or to the counter
`State.fresh`. -/

namespace Sys2Proof.Config

/-- The core clock after reset in MHz (R1). -/
abbrev coreClockMHz : Nat := 2250
/-- One throttling step in MHz (R442). -/
abbrev throttleStepMHz : Nat := 75
/-- Active cores of the package (R1): 4 dies of 8 clusters of 8 cores. -/
abbrev nCores : Nat := 256
/-- Clusters of the package. -/
abbrev nClusters : Nat := 32
/-- Dies of the package. -/
abbrev nDies : Nat := 4
/-- Contexts (R1). -/
abbrev nContexts : Nat := 256

/-- Free choice: which of several agents that may act takes the next step. DESIGN CHOICE, safe (log 5). -/
opaque pickAgent : Nat → Nat

/-- Free value: a vector register outside a listed checkpoint range after resume (R98, R333), by register, lane and
draw; also any other lane-wide undefined value. DESIGN CHOICE, safe (log 10). -/
opaque freeWord : Nat → W32

/-- Free value: a byte the manual leaves undefined (RECV of an aborted collective R466, HEAD, TAIL and CLOSED of a
registered queue R398, unsaved scratchpad, tile and frame bytes R333). DESIGN CHOICE, safe (log 10). -/
opaque freeByte : Nat → Byte

/-- How many clocks pass in a core before a word issues there, by the core and the draw (R45, R442; log 5). -/
opaque clockTicks (core draw : Nat) : Nat

/-- Free value: whether an access to host memory fails on UCIe (R426). DESIGN CHOICE, safe (log 11). -/
opaque hostLinkFails : Nat → Bool

/-- Free choice: whether a cached translation that differs from the page table is still used (R408). DESIGN CHOICE,
safe (log 12). -/
opaque cachedTranslationUsed : Nat → Bool

/-- Free value: the private area that the runtime gives a wave at its dispatch (R45, R61), as a 4 KiB page number.
DESIGN CHOICE, safe (log 8). -/
opaque privatePage : Nat → BitVec 44

/-- The device id (R429), bound by the certificate chain of R440. -/
opaque deviceId : W64

/-- Whether the image of boot stage k carries a valid signature (R439); the key is not given. -/
opaque bootImageOk : Nat → Bool
/-- The SVN in the header of the image of boot stage k (R439). -/
opaque bootImageSvn : Nat → BitVec 32
/-- The digest of the image of boot stage k (R439). -/
opaque bootImageDigest : Nat → List Byte
/-- The fused minimum SVN of boot stage k at reset (R439). -/
opaque fusedMinimumSvn : Nat → BitVec 32
/-- The page-table root of context 0, which the boot sequence makes live (R429, R439). -/
opaque systemRoot : W64
/-- The other words of the descriptor of context 0 (R427), by their offset. -/
opaque systemDescriptor : Nat → W64

/-- Whether a staged image verifies (R429 FWSTAGE, R439): the header's layout and the key are not given. -/
opaque imageVerifies : List Byte → Bool
/-- The SVN that a staged image carries. -/
opaque imageSvn : List Byte → BitVec 32
/-- The digest that a staged image carries. -/
opaque imageDigest : List Byte → List Byte
/-- Whether r and s sign a digest under Rilhioft's firmware key (R429 RAISESVN). -/
opaque firmwareKeySigns : List Byte → List Byte → Bool
/-- The identity key's signature over a digest, r then s (R440). -/
opaque identitySignature : List Byte → List Byte

end Sys2Proof.Config
end

