-- ==== Sys2Proof/Machine/Cells.lean ====
section
/-! DEFINITION. Sparse storage: what a memory or a register file holds, as a list of (key, value) pairs in one canonical
form. Keys rise strictly, and no pair holds the value that an unlisted key reads as. -/

namespace Sys2Proof.Machine

/-- Values by key. An unlisted key reads as the default that the reader names. -/
abbrev Cells (α : Type) := List (Nat × α)

namespace Cells

variable {α : Type}

/-- The value at a key. -/
def get (dflt : α) : Cells α → Nat → α
  | [], _ => dflt
  | (k, v) :: rest, key => if key = k then v else if key < k then dflt else get dflt rest key

/-- Removes a key. -/
def erase : Cells α → Nat → Cells α
  | [], _ => []
  | (k, v) :: rest, key => if key = k then rest else if key < k then (k, v) :: rest else (k, v) :: erase rest key

/-- Puts a value that is not the default at a key. -/
def insert : Cells α → Nat → α → Cells α
  | [], key, x => [(key, x)]
  | (k, v) :: rest, key, x =>
    if key = k then (key, x) :: rest
    else if key < k then (key, x) :: (k, v) :: rest
    else (k, v) :: insert rest key x

/-- Writes a value at a key; writing the default removes the entry. -/
def set [DecidableEq α] (dflt : α) (m : Cells α) (key : Nat) (x : α) : Cells α :=
  if x = dflt then erase m key else insert m key x

/-- Every key of the list is at least `lo`, keys rise strictly, and no value is the default. -/
def wfFrom [DecidableEq α] (dflt : α) : Nat → Cells α → Bool
  | _, [] => true
  | lo, (k, v) :: rest => decide (lo ≤ k) && decide (v ≠ dflt) && wfFrom dflt (k + 1) rest

/-- The canonical form. -/
def wf [DecidableEq α] (dflt : α) (m : Cells α) : Bool := wfFrom dflt 0 m

/-- Writes consecutive keys. -/
def setList [DecidableEq α] (dflt : α) (m : Cells α) (key : Nat) : List α → Cells α
  | [] => m
  | x :: xs => setList dflt (set dflt m key x) (key + 1) xs

/-- Writes consecutive keys in one pass: what lies below, the new values, what lies above. -/
def fill [DecidableEq α] (dflt : α) (m : Cells α) (lo : Nat) (xs : List α) : Cells α :=
  m.filter (fun e => decide (e.1 < lo))
    ++ (xs.mapIdx (fun k x => (lo + k, x))).filter (fun e => decide (e.2 ≠ dflt))
    ++ m.filter (fun e => decide (lo + xs.length ≤ e.1))

/-- Reads consecutive keys. -/
def getList (dflt : α) (m : Cells α) (key n : Nat) : List α := (List.range n).map (fun k => get dflt m (key + k))

/-- The values of the keys from `key` on, over a list whose keys are at least `key`. -/
def expand (dflt : α) : Nat → Nat → Cells α → List α
  | 0, _, _ => []
  | n + 1, key, m =>
    match m with
    | [] => dflt :: expand dflt n (key + 1) []
    | (k, v) :: rest => if k = key then v :: expand dflt n (key + 1) rest else dflt :: expand dflt n (key + 1) ((k, v) :: rest)

/-- Reads consecutive keys in one pass. -/
def slice (dflt : α) (m : Cells α) (lo n : Nat) : List α := expand dflt n lo (m.dropWhile (fun e => decide (e.1 < lo)))

/-- Makes consecutive keys read as the default. -/
def clear (m : Cells α) (lo n : Nat) : Cells α := m.filter (fun e => e.1 < lo || lo + n ≤ e.1)

end Cells

/-- A set of numbers in canonical form. -/
abbrev NatSet := Cells Bool

namespace NatSet

def has (m : NatSet) (k : Nat) : Bool := Cells.get false m k
def add (m : NatSet) (k : Nat) : NatSet := Cells.set false m k true
def remove (m : NatSet) (k : Nat) : NatSet := Cells.set false m k false
def hasAny (m : NatSet) (lo n : Nat) : Bool := m.any (fun e => decide (lo ≤ e.1) && decide (e.1 < lo + n) && e.2)

end NatSet

/-- The element of a list at a position, changed by `f`. -/
def updAt {α : Type} (l : List α) (i : Nat) (f : α → α) : List α :=
  match l, i with
  | [], _ => []
  | x :: xs, 0 => f x :: xs
  | x :: xs, i + 1 => x :: updAt xs i f

end Sys2Proof.Machine
end

