-- ==== Sys2Proof/Machine/State.lean ====
section
/-! DEFINITION. What the machine holds: every piece of state that the specification names (INVENTORY.md lists each with
its rule), the causes of traps, the ways a step can stop, and the state after reset. -/

namespace Sys2Proof.Machine

/-! ### Causes -/

/-- The kinds of causes (R64). -/
inductive Kind where
  | none | p | l | y | e | h
  deriving DecidableEq, Repr

/-- The causes, in the order of their codes 0x00-0x3F (R64). -/
inductive Cause where
  | noCause | illegalForm | illegalOpcode | illegalField | illegalModifier | illegalPair | lookaheadHazard | privileged
  | softwareTrap | breakpoint | divergeOverflow | indirectTarget | intDivideZero | fpTrap | scaleNan | outlierEscape
  | pageNotPresent | pageProtection | pageAttrReserved | misaligned | atomicStraddle | elemRange | sharedPageWrite
  | tagNotEnabled | scratchRange | scratchTagDuplicate | txForbidden | poisonConsumed | hostLinkError | forkNoPage
  | replayLimit | atomicUnsupported | tileConfig | tileShape | accumFrame | ruleInvalid | edgeLength | pairUnavailable
  | arrayUncorrectable | epilogueInvalid | streamImport | splitDescriptor | mergeMapStale | kvPosition | balanceOverflow
  | routeInvalid | accumLimit | ropePartition | syncMaskMismatch | groupFull | groupLimit | notMember | roleInvalid
  | ringFormat | chainFormat | footprintInvalid | spawnDepth | queueFormat | uivecUnset | collectiveAborted
  | fabricUnreachable | groupHalt | contextKilled | machineCheck
  deriving DecidableEq, Repr

/-- A cause recorded for a word (R59, R469): its lanes, DETAIL, fault address, and the flags ENG and PAIRY of R63. -/
structure Raise where
  cause : Cause
  lanes : W32 := 0
  detail : Nat := 0
  addr : W64 := 0
  eng : Bool := false
  /-- Taken as kind P whatever the cause's own kind: a page that the runtime declined to map (R409, R453), a cause met at the
  start of an array operation (R283), at the completion of a split-weight word (R417), or at the submission of a task (R394). -/
  declined : Bool := false
  pairY : Bool := false
  deriving DecidableEq, Repr

/-! ### Registers of a wave -/

/-- A register that a word names, for R56 and the scoreboard. -/
inductive Reg where
  | s (n : Nat) | v (n : Nat) | m (n : Nat) | t (n : Nat) | a (n : Nat) | e (n : Nat)
  deriving DecidableEq, Repr

/-- A held register write of a long-latency instruction. -/
inductive RegWrite where
  | s (n : Nat) (x : W64)
  | v (n lane : Nat) (x : W32)
  | m (n : Nat) (x : W32)
  deriving DecidableEq, Repr

/-- When the instruction of a window completes: at a moment that nothing fixes (R6, R55), when an operation of the wave
commits (R282), or when the wave has no pending array operation (R303). -/
inductive WindowEnd where
  | any
  | op (order : Nat)
  | drain
  deriving DecidableEq, Repr

/-- A window of lookahead (R55-R57): the slot that opened it (true: B), how many words it still lets run, whether its
instruction has completed, the registers of that instruction, and its writes until it completes. -/
structure Window where
  slotB : Bool
  left : Nat
  done : Bool
  dests : List Reg
  srcs : List Reg
  writes : List RegWrite
  ends : WindowEnd := .any
  deriving DecidableEq, Repr

/-- Why a slot does not issue its word again yet. The blocking points are those of R107 and R336. -/
inductive WaitKind where
  /-- R187: the token's count is 63. -/
  | tokenRoom (tk : Nat)
  /-- R227: the ring of the wave holds SIZE - 1 entries that have not completed. -/
  | ringRoom (core ring : Nat)
  /-- R230: WAITTK. -/
  | tokens (mask : Nat)
  /-- R240: CHWAIT, the descriptor and the sequence number. -/
  | chain (desc : W64) (seq : Nat)
  /-- R212: the word at a physical address is empty. -/
  | wordFull (pa : Nat) (take : Bool) (va : W64)
  /-- R212: the word is full. -/
  | wordEmpty (pa : Nat) (va : W64)
  /-- R350: the all-member generation. -/
  | barrier (gen : Nat)
  | roleBarrier (role gen : Nat)
  | rows (n : Nat)
  /-- R355. -/
  | sync
  /-- R300. -/
  | frames (n : Nat)
  /-- R272: four pending array operations. -/
  | arrayRoom
  /-- R303: MWAIT. -/
  | arrayDrain
  /-- R214: FENCE.eng waits for the wave's posted commands with ticket below `upto`. -/
  | engines (upto : Nat)
  /-- R401, R402. -/
  | queueRoom (die pipe k : Nat) (queue : W64)
  | queueItem (die pipe k : Nat) (queue : W64)
  /-- R394: the die queue is full. -/
  | dieQueue (die : Nat)
  /-- R238: 64 cards. -/
  | cards
  /-- R348: pair operations of the wave. -/
  | pairOps
  /-- R364: the wave's pending merge operation. -/
  | mergeRoom
  /-- R453: the reply of a command. -/
  | reply (cmd : Nat) (fa : W64)
  /-- R462. -/
  | coll (id : Nat)
  /-- R457: 16 collectives. -/
  | collRoom
  /-- R220: a serialised transaction runs. `begins`: the scope of the TXBEGIN that waits; none for an access. -/
  | txTurn (begins : Option Bool)
  deriving DecidableEq, Repr

/-- A wait with its place in the order of waiting (R213), and the word that waits. -/
structure Wait where
  kind : WaitKind
  ticket : Nat
  word : W64
  deriving DecidableEq, Repr

/-- A PC slot (R42). -/
structure Slot where
  valid : Bool := false
  parked : Bool := false
  pc : W64 := 0
  mask : W32 := 0
  rpc : Option W64 := none
  wait : Option Wait := none
  /-- PAGE_NOT_PRESENT faults of the word that the slot executes again (R409). -/
  faults : Nat := 0
  deriving DecidableEq, Repr

/-- A divergence stack entry (R54). -/
inductive StackEntry where
  /-- Lanes that have not yet run their side of a branch: start PC, mask, RPC. -/
  | pending (pc : W64) (mask : W32) (rpc : W64)
  /-- A split region: its RPC, its lanes, the RPC of its slot before the split. -/
  | join (rpc : W64) (mask : W32) (outer : Option W64)
  deriving DecidableEq, Repr

/-- The stage that a stage task belongs to (R400). -/
structure StageId where
  die : Nat
  pipe : Nat
  stage : Nat
  deriving DecidableEq, Repr

/-- Where a wave was placed and what it was granted (R175-R186). -/
structure Place where
  ctx : Nat
  cluster : Nat
  core : Nat
  part : Nat
  num : Nat
  /-- Dispatch order (R47). -/
  age : Nat
  /-- Age for ACALLOC, kept over an eviction there (R277, R279). -/
  frameAge : Nat
  /-- Frames kept for the ACALLOC at which the wave was evicted, until that executes again (R279). -/
  frameHold : Nat := 0
  regs : Nat
  scratchBase : Nat
  scratchLen : Nat
  frameMap : List (Option Nat)
  edgeMap : List (Option Nat)
  depth : Nat
  stage : Option StageId
  deriving DecidableEq, Repr

/-- System registers (R45, R430). CLOCK is a free value and WAKE holds nothing. -/
structure SysRegs where
  gkey : W64 := 0
  role : W64 := 0
  fpctl : W32 := 0x0007_0000
  fpstat : W32 := 0
  bound : W64 := 0
  txstat : W64 := 0
  uivec : W64 := 0
  ropepart : W64 := 0
  priv : W64 := 0
  launch : W32 := 0
  sysvec : W64 := 0
  ctxsel : W64 := 0
  inHandler : Bool := false
  deriving DecidableEq, Repr

/-- The run status of a wave. -/
inductive WaveStatus where
  | running
  /-- Halted by a trap (R60). -/
  | halted
  /-- The Owl services a fault of kind Y (R409). -/
  | service
  /-- Stopped by a group halt (R326). -/
  | stopped
  /-- HALT (R433). -/
  | asleep
  /-- Every lane has exited; the footprint is kept until the commands complete (R53). -/
  | retiring
  /-- Released. -/
  | gone
  deriving DecidableEq, Repr

/-- What a halted wave recorded in its trap frame, as its resumption needs it (R62-R65). -/
structure TrapInfo where
  cause : Cause
  eng : Bool
  pc : W64
  slotB : Bool
  orig : Bool
  /-- The slots of the wave resume as they stand: a cause found at the start of an operation (R65). -/
  fromOp : Bool
  /-- Whether the runtime has resumed the member of a halted group (R329). -/
  resumed : Bool
  /-- A wave that HALT had stopped stays so after the resumption (R331, R433). -/
  asleep : Bool
  deriving DecidableEq, Repr

/-- An armed interrupt (R233): its tokens and, under .g, the key of the group at the arming (0 once that has dissolved). -/
structure Armed where
  mask : Nat
  group : Option W64
  deriving DecidableEq, Repr

/-- Interrupt state (R233-R235, R335). `requests`: what is requested and not yet delivered, in the order in which it arose,
each with the wave that armed it; none for that of a copy command (R229). -/
structure Intr where
  armed : Option Armed := none
  requests : List (Option Nat) := []
  inHandler : Bool := false
  savedA : Slot := {}
  savedB : Slot := {}
  savedDepth : Nat := 0
  deriving DecidableEq, Repr

/-- An open transaction (R215-R220). Lines are 64 bytes of physical memory; `written` holds the bytes written, `pages` the
addresses in whose 64 KiB pages they lie (R412). -/
structure Tx where
  slotB : Bool
  mask : W32
  rpc : Option W64
  depth : Nat
  abortPc : W64
  cluster : Bool
  order : Nat
  reads : NatSet
  writes : NatSet
  written : Cells (Option Byte)
  pages : List Nat := []
  serial : Bool
  /-- An abort with its CODE waits to be taken. -/
  conflict : Bool
  deriving DecidableEq, Repr

/-- A captured array or merge operation (R275). -/
structure Captured where
  instr : Instr
  word : W64
  pc : W64
  slotB : Bool
  lanes : W32
  scalars : List W64
  vectors : List W32
  /-- Its place in the wave's issue order. -/
  order : Nat
  /-- PAGE_NOT_PRESENT faults at its starts (R409). -/
  faults : Nat := 0
  deriving DecidableEq, Repr

/-- A fault that an engine recorded against a posted command, in post order (R228, R230). -/
structure EngineFault where
  order : Nat
  token : Nat
  cause : Cause
  detail : Nat
  addr : W64
  deriving DecidableEq, Repr

/-- What an evicted wave saved of its core's storage (R333): tiles with strip and TCR, frames by map entry, edges with
length and base. A listed scratchpad range keeps the window in place (R186). -/
structure Saved where
  tiles : List (Nat × List Byte × List Byte × W32) := []
  frames : List (Nat × List W32) := []
  edges : List (Nat × List W32 × Nat × W32) := []
  deriving DecidableEq, Repr

/-- Progress of a wave beside its registers. -/
structure WaveRun where
  status : WaveStatus := .running
  trap : Option TrapInfo := none
  evicted : Bool := false
  /-- The wake condition of an evicted wave (R336). -/
  wake : Option WaitKind := none
  /-- The Owl has stored the wake condition (R321 BLOCKED). -/
  wakeStored : Bool := false
  /-- The window stays in place while evicted (R186). -/
  windowKept : Bool := false
  preempt : Bool := false
  /-- The wave has reached the point of its eviction and waits for it: a pair operation holds its frames (R313). -/
  evicting : Bool := false
  /-- The counts of the slots that the system trap handler has replaced (R409, R432). -/
  heldFaults : Nat × Nat := (0, 0)
  /-- The 17th such fault, which raises REPLAY_LIMIT: what it recorded, its slot, its PC and its word (R409). -/
  limit : Option (Raise × Bool × W64 × W64) := none
  /-- A group halt has been sent to the wave and has not reached its partition (R326). -/
  haltDue : Bool := false
  /-- Words issued since a group halt reached the wave (R326). -/
  skid : Option Nat := none
  lastSlotB : Bool := false
  /-- The wave does not issue until its split operations have completed (R417). -/
  holdSplit : Bool := false
  /-- Words of the wave that have issued; the order of its operations. -/
  issued : Nat := 0
  killed : Bool := false
  deriving DecidableEq, Repr

/-- A wave (R42): its registers, slots, system registers and what it has in flight. -/
structure Wave where
  place : Place
  v : Cells W32 := []
  s : Cells W64 := []
  m : Cells W32 := []
  slotA : Slot := {}
  slotB : Slot := {}
  exited : W32 := 0
  stack : List StackEntry := []
  tokens : Cells Nat := []
  sys : SysRegs := {}
  run : WaveRun := {}
  intr : Intr := {}
  tx : Option Tx := none
  windows : List Window := []
  /-- Lanes waiting at VSYNC with the mask that each supplied (R355). -/
  sync : Cells (Option W32) := []
  /-- Abandoned operations, to be issued again (R274). -/
  abandoned : List Captured := []
  faults : List EngineFault := []
  saved : Saved := {}
  /-- Poisoned register units, 32 * register + lane (R193). -/
  poison : NatSet := []
  deriving DecidableEq, Repr

/-! ### Array -/

/-- An operation in a core's sequencer (R243, R281). `card` marks a word of an array card (R306). -/
structure ArrayOp where
  wave : Nat
  cap : Captured
  card : Option (Nat × Nat × Nat)
  /-- The core clock in which its word issued, and the word's partition (R243). -/
  clock : W64 := 0
  part : Nat := 0
  deriving DecidableEq, Repr

/-- One write that a finished array operation makes at its commit. -/
inductive ArrayWrite where
  /-- All 4096 elements of a frame of a wave: the map entry, the elements, and the rows and columns that are new. -/
  | frame (wave entry : Nat) (elems : List W32) (row0 rows cols : Nat)
  /-- An edge register of the core: the first values, length, base. -/
  | edge (core n : Nat) (vals : List W32) (len : Nat) (base : W32)
  | tileBytes (core : Nat) (off : Nat) (bytes : List Byte)
  | stripBytes (core : Nat) (off : Nat) (bytes : List Byte)
  | tcr (core tile : Nat) (x : W32)
  | tileZero (core tile : Nat)
  | rule (core slot : Nat) (uops : List W32) (consts : List W32)
  | scalar (reg : Nat) (x : W64)
  | vector (reg : Nat) (lanes : List W32)
  | memory (va : W64) (bytes : List Byte)
  | scratch (off : Nat) (bytes : List Byte)
  | freeFrames (mask : W64)
  deriving DecidableEq, Repr

/-- An operation that has started, with what it will write (R272). -/
structure Running where
  op : ArrayOp
  writes : List ArrayWrite
  /-- The follower wave of a pair operation (R311). -/
  follower : Option Nat
  attempts : Nat
  /-- A restart waits: its ARRAY_REPLAY record has found no entry of the event queue (R190, R276). -/
  restart : Bool := false
  deriving DecidableEq, Repr

/-- A rule slot (R252, R293). -/
structure RuleSlot where
  uops : List W32 := []
  consts : List W32 := [0, 0, 0, 0]
  poisoned : Bool := false
  deriving DecidableEq, Repr

/-! ### Core -/

/-- An event record (R188, R189). -/
structure EventRec where
  kind : Nat
  wave : Nat
  token : Nat
  cause : Cause
  data : Nat
  addr : W64
  /-- The wave's index in the model, which the record's 6-bit number names on its core. -/
  who : Nat
  /-- A TRAP record of a fault of kind Y, whose frame has REPLAY set (R63): the Owl services it (R321). -/
  replay : Bool := false
  deriving DecidableEq, Repr

/-- An element that an engine serves (R409): its address, the PAGE_NOT_PRESENT faults that it met, whether the Owl services
one now, and the elements that the runtime declined (false) or that met a 17th fault (true). -/
structure Serving where
  addr : Nat := 0
  faults : Nat := 0
  waiting : Bool := false
  declined : List (Nat × Bool) := []
  deriving DecidableEq, Repr

/-- A posted entry of a copy ring (R222, R227). -/
structure CopyEntry where
  words : List W64
  bound : W64
  wave : Nat
  oete : Bool
  order : Nat
  /-- Its place in the ring. -/
  index : Nat
  started : Bool := false
  /-- The lowest faulting element with its cause and address (R228). -/
  fault : Option (Nat × Cause × W64) := none
  /-- A Q4 marker in slot 30 or 31 was met (R229). -/
  escape : Bool := false
  serving : Serving := {}
  deriving DecidableEq, Repr

/-- A copy ring (R191, R226). The binding of one whose group has dissolved has ended; its entries still complete. -/
structure Ring where
  base : Nat
  size : Nat
  ctx : Nat
  key : W64
  entries : List CopyEntry := []
  bound : Bool := true
  done : Nat := 0
  deriving DecidableEq, Repr

/-- A cached translation (R408): context, the page's first byte and size, and the entry that the walk found. -/
structure Cached where
  ctx : Nat
  va : Nat
  size : Nat
  entry : Nat
  pteAddr : Nat
  deriving DecidableEq, Repr

/-- Storage of a core that array instructions name. -/
structure ArrayStore where
  tiles : Cells Byte := []
  strips : Cells Byte := []
  tcr : Cells W32 := []
  tilePoison : NatSet := []
  frames : Cells W32 := []
  framePoison : NatSet := []
  edges : Cells W32 := []
  edgeLen : Cells Nat := []
  edgeBase : Cells W32 := []
  edgePoison : NatSet := []
  rules : List RuleSlot := List.replicate 16 {}
  deriving DecidableEq, Repr

/-- A core (R175). -/
structure Core where
  store : ArrayStore := {}
  scratch : Cells Byte := []
  scratchPoison : NatSet := []
  tags : Cells W64 := []
  queue : List ArrayOp := []
  running : Option Running := none
  rings : List Ring := []
  turn : Nat := 0
  /-- The wave number that issued last in each partition (R47). -/
  turns : List (Option Nat) := List.replicate 4 none
  /-- CLOCK (R45): the clocks since the core was reset. It moves when a word issues, and nothing sees it between. -/
  clock : W64 := 0
  /-- The partitions that have issued a word in this clock (R46). -/
  issued : List Nat := []
  events : List EventRec := []
  held : List EventRec := []
  fenced : Bool := false
  /-- The Theique retires its pair: no wave is placed on it (R438). -/
  draining : Bool := false
  spare : Bool := false
  tlb : List Cached := []
  deriving DecidableEq, Repr

/-! ### Cluster -/

/-- A member of a group (R316): its rank, the wave, and the ROLE last reported. -/
structure Member where
  rank : Nat
  wave : Nat
  role : Nat
  stopped : Bool
  deriving DecidableEq, Repr

/-- One barrier generation (R319, R349): completed count, whether it is open, the ranks arrived and required. -/
structure Barrier where
  gen : Nat := 0
  isOpen : Bool := false
  arrived : NatSet := []
  required : NatSet := []
  deriving DecidableEq, Repr

/-- A live group (R316, R349). -/
structure Group where
  key : W64
  ctx : Nat
  members : List Member
  all : Barrier
  roles : List Barrier
  rows : Nat
  /-- GBAR.rows waiters in arrival order: rank, whether the slot is B, n. -/
  rowWait : List (Nat × Bool × Nat)
  halt : Nat
  deriving DecidableEq, Repr

/-- A job card in the dependence engine (R236, R322). -/
structure Card where
  addr : W64
  wave : Nat
  ctx : Nat
  core : Nat
  chain : W64
  /-- Its 128 bytes. -/
  header : List Byte
  /-- BOUND and OETE of the chaining wave. -/
  bound : W64
  oete : Bool
  /-- Its SEQ is not ahead of that of the previous card of the chain (R239). -/
  late : Bool
  /-- Cards that must complete first, by their number (R323). -/
  deps : List Nat
  number : Nat
  /-- Its place in the order of posting. -/
  order : Nat
  started : Bool := false
  finished : Bool := false
  cause : Option (Cause × Nat × W64) := none
  /-- The word of an array card that runs. -/
  word : Nat := 0
  serving : Serving := {}
  deriving DecidableEq, Repr

/-- A card of a chain that DONE has not passed. -/
structure ChainCard where
  number : Nat
  seq : Nat
  completed : Bool
  cause : Option (Cause × Nat × W64)
  deriving DecidableEq, Repr

/-- A chain as the engine follows it (R237-R240): the SEQ of the last card handed over, the cards that DONE has not passed
in order, and the causes of the cards that DONE has passed, with the numbers of these cards. -/
structure Chain where
  ctx : Nat
  desc : W64
  lastSeq : Nat
  cards : List ChainCard
  causes : List (Nat × Cause × Nat × W64)
  deriving DecidableEq, Repr

/-- An operation of the Merge Unit (R364). -/
structure MergeOp where
  wave : Nat
  cap : Captured
  card : Option Nat
  /-- Abandoned while it ran: its outputs hold a mixture of old and new values (R375). -/
  torn : Bool := false
  /-- Bytes that the operation has read already, by physical address: it sees no later store to them (R376). -/
  seen : List (Nat × Byte) := []
  /-- Step 4 of R373 has begun: the writes of the map, and the result. The operation completes whatever its wave does (R375). -/
  rest : Option (List (Nat × List Byte) × Nat) := none
  deriving DecidableEq, Repr

/-- A cluster. -/
structure Cluster where
  groups : List Group := []
  cards : List Card := []
  nextCard : Nat := 0
  chains : List Chain := []
  mergeQueue : List MergeOp := []
  /-- The Owl reads no records while its firmware is replaced (R441). -/
  owlPaused : Bool := false
  copyFaults : List EventRec := []
  l2 : List Cached := []
  deriving DecidableEq, Repr

/-! ### Die -/

/-- A task record in a die queue (R384, R388). -/
structure Task where
  entry : W64
  args : W64
  /-- HOME with its placement byte. -/
  home : W64
  foot : W32
  launch : W32
  /-- The physical words of READY. -/
  ready : List Nat
  /-- Every ready word has been full at one instant (R389). -/
  isReady : Bool
  ctx : Nat
  depth : Nat
  /-- The local stack of its home, when it has near clusters. -/
  near : Option Nat
  passed : Nat
  /-- The cores that it reserves (R391). -/
  reserving : List Nat
  /-- Its place in the order of arrival. -/
  number : Nat
  deriving DecidableEq, Repr

/-- A queue of a registered pipeline (R398). -/
structure PipeQueue where
  addr : W64
  base : W64
  cap : Nat
  hwm : Nat
  head : Nat
  tail : Nat
  closed : Bool
  live : Nat
  entry : W64
  args : W64
  foot : W32
  maxt : Nat
  deriving DecidableEq, Repr

/-- A registered pipeline (R399). -/
structure Pipe where
  /-- Its place in the order of registration. -/
  number : Nat
  ctx : Nat
  launch : W32
  index : Nat
  home : W64
  depth : Nat
  near : Option Nat
  queues : List PipeQueue
  deriving DecidableEq, Repr

/-- A split-weight operation (R415-R420): a product, or an instant (SWMIG, SWAGE). A card's product captures no word. -/
structure SplitOp where
  /-- Its place in the order of posting. -/
  number : Nat
  wave : Nat
  cap : Captured
  card : Option (Nat × Nat)
  /-- The parameter block, when it has been read. -/
  block : List Byte
  /-- The physical address of the descriptor, when it has been found. -/
  desc : Option Nat
  /-- Automatic ageing is due (R416), since this place in the order. -/
  ageDue : Option Nat
  /-- GEN under which it ran, while its ageing is due. -/
  gen : Nat
  /-- A cause that its wave takes once it runs again. -/
  cause : Option Raise
  deriving DecidableEq, Repr

/-- A die. -/
structure Die where
  queue : List Task := []
  pipes : List Pipe := []
  /-- The stage that won the previous tie (R400). -/
  lastTie : Option (Nat × Nat) := none
  splitOps : List SplitOp := []
  clockMHz : Nat := Config.coreClockMHz
  sparePairs : Nat := 2
  deriving DecidableEq, Repr

/-! ### Contexts -/

/-- A window of a fabric job (R450). -/
structure FabWindow where
  num : Nat
  base : W64
  length : Nat
  flags : Nat
  deriving DecidableEq, Repr

/-- A launch that has not drained (R396). -/
structure LaunchRec where
  launch : W32
  killed : Bool
  deriving DecidableEq, Repr

/-- The launch port of a context (R423). -/
structure Port where
  record : Cells Byte := []
  refused : Bool := false
  refCause : Nat := 0
  window : Nat := 0
  count : Nat := 0
  intRing : W64 := 0
  intSize : Nat := 0
  intVec : W32 := 0
  intTail : W32 := 0
  pending : Nat := 0
  deriving DecidableEq, Repr

/-- A context (R427). -/
structure Context where
  live : Bool := false
  root : W64 := 0
  asid : W64 := 0
  forkPool : W64 := 0
  trapQ : W64 := 0
  trapQN : Nat := 0
  waitThr : Nat := 0
  compat : Bool := false
  ckdir : List W64 := List.replicate 8 0
  descAddr : Nat := 0
  port : Port := {}
  trapHeld : List W64 := []
  launches : List LaunchRec := []
  job : Option (BitVec 16) := none
  windows : List FabWindow := []
  deriving DecidableEq, Repr

/-! ### Fabric -/

/-- What a fabric command does at its target. -/
inductive FabOp where
  | put | signal (op : SigOp) | get
  deriving DecidableEq, Repr

/-- A fabric command of a wave (R451-R455). -/
structure FabCmd where
  /-- Its place in the order of posting. -/
  number : Nat
  wave : Nat
  slotB : Bool
  op : FabOp
  ctx : Nat
  fa : W64
  addr : W64
  length : Nat
  value : W64
  token : Option Nat
  /-- Commands of the wave posted before it, which an XSIG follows (R456). -/
  after : List Nat
  /-- 0 posted, 1 sent, 2 the target has answered. -/
  phase : Nat
  reply : List Byte
  fault : Option (Cause × Nat × W64)
  serving : Serving
  deriving DecidableEq, Repr

/-- A request at this node's fabric engine, of this node or of another. -/
structure Arrival where
  number : Nat
  op : FabOp
  packet : FabPacket
  serving : Serving
  deriving DecidableEq, Repr

/-- A request that left for another node. -/
structure SentPacket where
  node : Nat
  op : FabOp
  packet : FabPacket
  deriving DecidableEq, Repr

/-- A part of a collective that has arrived: tree level, index, block, ranks held, bytes. -/
structure CollPart where
  level : Nat
  index : Nat
  block : Nat
  ranks : List Nat
  data : List Byte
  deriving DecidableEq, Repr

/-- A collective of a wave of this node (R457-R466); a finished one waits for its XWAIT. -/
structure Coll where
  /-- Its place in the order of posting. -/
  number : Nat
  wave : Nat
  ctx : Nat
  job : BitVec 16
  op : Nat
  typ : Nat
  nch : Nat
  id : BitVec 32
  seq : BitVec 32
  rank : Nat
  nrank : Nat
  count : Nat
  rcap : Nat
  team : List Nat
  send : W64
  recv : W64
  counts : W64
  parts : List CollPart
  /-- Its own contribution has been read and sent. -/
  contributed : Bool
  finished : Bool
  cause : Option (Cause × Nat × W64)
  serving : Serving
  deriving DecidableEq, Repr

/-- A fabric port (R447). -/
structure FabPort where
  crcRetry : Nat := 0
  peerPort : Nat := 0
  peerNode : Nat := 0
  spared : Bool := false
  width : Nat := 0
  up : Bool := false
  deriving DecidableEq, Repr

/-- The fabric of the package. -/
structure Fabric where
  node : Nat := 0xFFF
  /-- By destination node, the mask of package ports. -/
  routes : Cells Nat := []
  ports : List FabPort := List.replicate 32 {}
  cmds : List FabCmd := []
  /-- Packets applied, by source node and sequence number (R446). -/
  applied : List (Nat × Nat) := []
  nextSeq : Nat := 0
  /-- Requests that have not been applied yet. -/
  inbox : List Arrival := []
  /-- Arrived .fill signals that wait for an empty word: the packet, its ticket, the physical word (R454). -/
  fills : List (FabPacket × Nat × Nat) := []
  colls : List Coll := []
  /-- Contributions that wait for their XCOLL. -/
  early : List CollPacket := []
  /-- The latest SEQ that the node holds for a job and ID, and the aborted SEQ (R461, R466). -/
  latest : List (BitVec 16 × BitVec 32 × BitVec 32) := []
  aborted : List (BitVec 16 × BitVec 32 × BitVec 32) := []
  /-- What left for other nodes. -/
  sent : List SentPacket := []
  sentColl : List (Nat × CollPacket) := []
  sentReply : List (Nat × FabReply) := []
  sentAbort : List (Nat × CollAbort) := []
  deriving DecidableEq, Repr

/-! ### Package -/

/-- Device registers (R429). -/
structure DevRegs where
  ctxBase : W64 := 0
  ctxEn : Bool := false
  ctxRef : Bool := false
  mbLen : Nat := 0
  mbCmd : Nat := 0
  mbReply : Nat := 0
  mbResult : Nat := 0
  mbBusy : Bool := false
  mbData : Cells Byte := []
  deriving DecidableEq, Repr

/-- Root of trust and Theique (R437-R441). -/
structure Trust where
  booted : Bool := false
  recovery : Bool := false
  mr : List (List Byte) := List.replicate 8 (List.replicate 32 0)
  svn : List (BitVec 32) := List.replicate 5 0
  fused : List (BitVec 32) := (List.range 5).map (fun k => Config.fusedMinimumSvn (k + 1))
  staged : List (Nat × List Byte) := []
  updating : NatSet := []
  /-- An update of the Theique firmware runs: telemetry and sparing pause (R441). -/
  paused : Bool := false
  deriving DecidableEq, Repr

/-- Telemetry that the Theique keeps (R321, R190, R425). -/
structure Telemetry where
  records : List EventRec := []
  dropped : Nat := 0
  hostLinkErrors : Nat := 0
  /-- Spared pseudo-channels: stack and channel (R437). -/
  channels : List (Nat × Nat) := []
  deriving DecidableEq, Repr

/-- Memory: bytes by physical address (R2, R407), full/empty bits by word (R212), poisoned 128-byte lines (R405). -/
structure Memory where
  bytes : List Host.Cell := []
  full : NatSet := []
  poison : NatSet := []
  deriving DecidableEq, Repr

/-- The package. -/
structure State where
  mem : Memory := {}
  waves : List Wave := []
  cores : List Core := List.replicate Config.nCores {}
  clusters : List Cluster := List.replicate Config.nClusters {}
  dies : List Die := List.replicate Config.nDies {}
  ctxs : List Context := List.replicate Config.nContexts {}
  fabric : Fabric := {}
  dev : DevRegs := {}
  trust : Trust := {}
  telemetry : Telemetry := {}
  /-- Interrupts sent to the host: the target id of each (R425, R428). -/
  interrupts : List W32 := []
  /-- The model's own latches (log 7): the wave, the slot (true: B) and the word that execute, the causes that the issue
  checks recorded for it, and what an event acts on. -/
  cur : Nat := 0
  slotB : Bool := false
  ir : W64 := 0
  raised : List Raise := []
  target : Target := .none
  /-- The draw of free values (log 7). -/
  fresh : Nat := 0
  /-- The order of waiting, of dispatch and of posting (log 7). -/
  ticket : Nat := 0
  /-- Inputs from outside that have not been taken (log 7). -/
  inputs : List Event := []
  deriving DecidableEq, Repr

/-- What stops the machine. -/
inductive Fault where
  /-- A word executes and no wave is current. Raised by every word; the step never executes a word so. Safe. -/
  | noWave
  deriving DecidableEq, Repr

/-- What the machine declines. -/
inductive Refusal where
  /-- An instruction without a meaning yet. Safe. -/
  | notModelled (mnemonic : String)
  /-- An event executes while its agent cannot act, or names a unit that is absent. Raised by the events; the step takes
  only enabled events, so only an input from outside that names an impossible event ends so. Safe. -/
  | notEnabled
  deriving DecidableEq, Repr

/-- The machine right after reset: no wave is resident, memory lists nothing, the root of trust has not started a
boot image (R439). -/
def State.reset : State := {}

end Sys2Proof.Machine
end

