-- ==== Sys2Proof/Machine/Access.lean ====
section
/-! DEFINITION. Reading and writing the parts of the state: causes and their codes, waves and their registers, cores,
clusters, dies and contexts. Every register is read and written through these. -/

namespace Sys2Proof.Machine

/-! ### Causes -/

/-- The causes in code order (R64). -/
def Causes.list : List Cause :=
  [.noCause, .illegalForm, .illegalOpcode, .illegalField, .illegalModifier, .illegalPair, .lookaheadHazard, .privileged,
   .softwareTrap, .breakpoint, .divergeOverflow, .indirectTarget, .intDivideZero, .fpTrap, .scaleNan, .outlierEscape,
   .pageNotPresent, .pageProtection, .pageAttrReserved, .misaligned, .atomicStraddle, .elemRange, .sharedPageWrite,
   .tagNotEnabled, .scratchRange, .scratchTagDuplicate, .txForbidden, .poisonConsumed, .hostLinkError, .forkNoPage,
   .replayLimit, .atomicUnsupported] ++
  [.tileConfig, .tileShape, .accumFrame, .ruleInvalid, .edgeLength, .pairUnavailable,
   .arrayUncorrectable, .epilogueInvalid, .streamImport, .splitDescriptor, .mergeMapStale, .kvPosition, .balanceOverflow,
   .routeInvalid, .accumLimit, .ropePartition, .syncMaskMismatch, .groupFull, .groupLimit, .notMember, .roleInvalid,
   .ringFormat, .chainFormat, .footprintInvalid, .spawnDepth, .queueFormat, .uivecUnset, .collectiveAborted,
   .fabricUnreachable, .groupHalt, .contextKilled, .machineCheck]

/-- The code of a cause (R64). -/
def Cause.code (c : Cause) : Nat := c.ctorIdx

/-- The cause of a code. -/
def Causes.ofCode (n : Nat) : Cause := Causes.list.getD n .noCause

/-- The kind of a cause (R64). -/
def Cause.kind : Cause → Kind
  | .noCause => .none
  | .pageNotPresent => .y
  | .elemRange => .l
  | .chainFormat | .collectiveAborted => .e
  | .groupHalt | .contextKilled | .machineCheck => .h
  | _ => .p

/-- The kind with which a recorded cause is taken: one that an engine recorded is of kind E (R64), a page that the runtime
declined is of kind P (R409). -/
def Raise.kind (r : Raise) : Kind := if r.eng then .e else if r.declined then .p else r.cause.kind

/-- R59: the lowest code is taken, with the lanes that recorded it; the DETAIL is the lowest of these (R112), the address
that of the lowest lane (R62), and PAIRY holds when it arose in slot Y alone (R87). -/
def settleRaises : List Raise → Option Raise
  | [] => none
  | r :: rest =>
    let code := rest.foldl (fun m e => min m e.cause.code) r.cause.code
    let taken := (r :: rest).filter (fun e => e.cause.code == code)
    let lanes := taken.foldl (fun m e => m ||| e.lanes) 0
    let low := (List.range 32).find? (fun l => lanes.getLsbD l)
    let atLow := taken.filter (fun e => match low with
      | some l => e.lanes.getLsbD l
      | none => true)
    let addrs := (atLow.map (·.addr.toNat))
    some
      { cause := Causes.ofCode code
        lanes := lanes
        detail := taken.foldl (fun m e => min m e.detail) 255
        addr := BitVec.ofNat 64 (match addrs with
          | [] => 0
          | a :: as => as.foldl min a)
        eng := taken.any (·.eng)
        declined := taken.any (·.declined)
        pairY := taken.all (·.pairY) }

/-! ### Lanes -/

/-- The lanes of a mask in ascending order. -/
def lanesOf (mask : W32) : List Nat := (List.range 32).filter (fun l => mask.getLsbD l)

/-- The mask that holds one lane. -/
def laneBit (l : Nat) : W32 := BitVec.ofNat 32 (2 ^ l)

/-- The mask of the lanes for which `p` holds. -/
def maskOf (p : Nat → Bool) : W32 := (List.range 32).foldl (fun m l => if p l then m ||| laneBit l else m) 0

/-- The number of ones. -/
def popcount {n : Nat} (x : BitVec n) : Nat := (List.range n).foldl (fun c k => if x.getLsbD k then c + 1 else c) 0

/-! ### Registers of a wave -/

namespace Wave

/-- A scalar register; s0 reads zero (R73). -/
def getS (w : Wave) (n : Nat) : W64 := if n = 0 then 0 else Cells.get 0 w.s n
/-- A write to s0 is discarded (R73, R117). -/
def setS (w : Wave) (n : Nat) (x : W64) : Wave := if n = 0 then w else { w with s := Cells.set 0 w.s n x }
/-- A mask register; m0 reads all ones (R126). -/
def getM (w : Wave) (n : Nat) : W32 := if n = 0 then allLanes else Cells.get 0 w.m n
/-- m0 is never written (R42). -/
def setM (w : Wave) (n : Nat) (x : W32) : Wave := if n = 0 then w else { w with m := Cells.set 0 w.m n x }
/-- One lane of a vector register. -/
def getV (w : Wave) (n lane : Nat) : W32 := Cells.get 0 w.v (32 * n + lane)
/-- Writing a lane of a register replaces its unit, which clears its poison (R193). -/
def setV (w : Wave) (n lane : Nat) (x : W32) : Wave :=
  { w with v := Cells.set 0 w.v (32 * n + lane) x, poison := w.poison.remove (32 * n + lane) }
/-- All 32 lanes of a vector register. -/
def getVec (w : Wave) (n : Nat) : List W32 := Cells.getList 0 w.v (32 * n) 32
/-- Writes the lanes of a list of (lane, value) pairs. -/
def setLanes (w : Wave) (n : Nat) (xs : List (Nat × W32)) : Wave := xs.foldl (fun w e => w.setV n e.1 e.2) w

def slot (w : Wave) (b : Bool) : Slot := if b then w.slotB else w.slotA
def setSlot (w : Wave) (b : Bool) (x : Slot) : Wave := if b then { w with slotB := x } else { w with slotA := x }
def updSlot (w : Wave) (b : Bool) (f : Slot → Slot) : Wave := w.setSlot b (f (w.slot b))

def token (w : Wave) (k : Nat) : Nat := Cells.get 0 w.tokens k
def setToken (w : Wave) (k n : Nat) : Wave := { w with tokens := Cells.set 0 w.tokens k n }

/-- Waves of context 0 run in system mode (R427). -/
def sysMode (w : Wave) : Bool := w.place.ctx == 0

/-- A scalar register pair and its neighbours, by number. -/
def getSs (w : Wave) (n k : Nat) : List W64 := (List.range k).map (fun i => w.getS (n + i))

end Wave

/-- The predicate mask of a word (R75). -/
def Pred.lanes (p : Pred) (w : Wave) : W32 := if p.inv then ~~~ (w.getM p.mask.toNat) else w.getM p.mask.toNat

/-! ### Parts of the state -/

namespace State

def wave (s : State) (i : Nat) : Option Wave := s.waves[i]?
def setWave (s : State) (i : Nat) (w : Wave) : State := { s with waves := s.waves.set i w }
def updWave (s : State) (i : Nat) (f : Wave → Wave) : State := { s with waves := updAt s.waves i f }
def core (s : State) (i : Nat) : Core := s.cores.getD i {}
def updCore (s : State) (i : Nat) (f : Core → Core) : State := { s with cores := updAt s.cores i f }
def cluster (s : State) (i : Nat) : Cluster := s.clusters.getD i {}
def updCluster (s : State) (i : Nat) (f : Cluster → Cluster) : State := { s with clusters := updAt s.clusters i f }
def die (s : State) (i : Nat) : Die := s.dies.getD i {}
def updDie (s : State) (i : Nat) (f : Die → Die) : State := { s with dies := updAt s.dies i f }
def ctx (s : State) (i : Nat) : Context := s.ctxs.getD i {}
def updCtx (s : State) (i : Nat) (f : Context → Context) : State := { s with ctxs := updAt s.ctxs i f }
/-- Takes the next number of the common order of waiting, dispatch and posting. -/
def nextTicket (s : State) : State := { s with ticket := s.ticket + 1 }
/-- Moves on to the next free value. -/
def nextFresh (s : State) : State := { s with fresh := s.fresh + 1 }

end State

/-- The cluster of a core, and the core's number in its die (R45). -/
abbrev clusterOf (core : Nat) : Nat := core / 8
abbrev dieOf (core : Nat) : Nat := core / 64
/-- The other core of a pair (R270). -/
abbrev partnerOf (core : Nat) : Nat := if core % 2 = 0 then core + 1 else core - 1

/-- WID (R45): the core's number within its die, the partition and the wave number. -/
def Wave.wid (w : Wave) : W64 :=
  BitVec.ofNat 64 ((w.place.core % 64) * 256 + w.place.part * 64 + w.place.num)

/-- SLOTSTAT (R45). -/
def Wave.slotStat (w : Wave) : W64 :=
  BitVec.ofNat 64 (w.stack.length * 256 + (if w.slotB.parked then 8 else 0) + (if w.slotB.valid then 4 else 0)
    + (if w.slotA.parked then 2 else 0) + (if w.slotA.valid then 1 else 0))

/-! ### Bytes -/

/-- A little-endian number (R3). -/
def leNat : List Byte → Nat
  | [] => 0
  | b :: bs => b.toNat + 256 * leNat bs

/-- The `n` bytes of a number, the least significant first (R3). -/
def leBytes (n x : Nat) : List Byte := (List.range n).map (fun k => BitVec.ofNat 8 (x / 256 ^ k))

/-- A field of a byte image. -/
def fieldAt (img : List Byte) (off n : Nat) : Nat := leNat ((img.drop off).take n)

/-- The most significant byte first, as digests and signatures are laid out. -/
def beBytes (n x : Nat) : List Byte := (leBytes n x).reverse

/-- Whether `align` divides `x`. -/
abbrev aligned (x align : Nat) : Bool := x % align == 0

/-- A power of two. -/
def isPow2 (x lo hi : Nat) : Bool := (List.range 20).any (fun k => x == 2 ^ k) && decide (lo ≤ x) && decide (x ≤ hi)

/-- Whether two byte ranges intersect. -/
def overlap (a an b bn : Nat) : Bool := decide (0 < an) && decide (0 < bn) && decide (a < b + bn) && decide (b < a + an)

end Sys2Proof.Machine
end

