-- ==== Sys2Proof/Machine/Memory.lean ====
section
/-! DEFINITION. Memory: physical bytes (R2, R407), the page-table walk and its checks (R406-R410), cached translations
(R408), poison (R405), transactions' buffered bytes (R216), and single accesses of a lane or engine (R58, R201). -/

namespace Sys2Proof.Machine

/-! ### Physical memory -/

/-- What an unlisted byte reads as. DESIGN CHOICE, unsafe (log 1): no rule gives the contents after power-on. -/
abbrev blankByte : Byte := 0

/-- HBM addresses (R407). -/
def isHbm (pa : Nat) : Bool := pa < 2 ^ 40
/-- Host memory addresses (R407). -/
def isHost (pa : Nat) : Bool := decide (2 ^ 51 ≤ pa) && decide (pa < 2 ^ 52)
/-- The physical map. -/
def inMap (pa : Nat) : Bool := isHbm pa || isHost pa

namespace Memory

/-- The canonical form of memory (log 1). -/
def wf (m : Memory) : Bool := Cells.wf blankByte m.bytes && Cells.wf false m.full && Cells.wf false m.poison

def read (m : Memory) (pa : Nat) : Byte := Cells.get blankByte m.bytes pa
def readN (m : Memory) (pa n : Nat) : List Byte := Cells.slice blankByte m.bytes pa n
def write (m : Memory) (pa : Nat) (b : Byte) : Memory := { m with bytes := Cells.set blankByte m.bytes pa b }
/-- Writes bytes; a write that covers a whole 128-byte line clears its poison (R193, R405). -/
def writeN (m : Memory) (pa : Nat) (bs : List Byte) : Memory :=
  let whole := (List.range (bs.length / 128 + 1)).map (fun k => (pa + 127) / 128 + k)
  { m with
    bytes := Cells.fill blankByte m.bytes pa bs
    poison := whole.foldl (fun p line => if line * 128 + 128 ≤ pa + bs.length then p.remove line else p) m.poison }
def isFull (m : Memory) (pa : Nat) : Bool := m.full.has (pa / 8)
def setFull (m : Memory) (pa : Nat) (b : Bool) : Memory :=
  { m with full := if b then m.full.add (pa / 8) else m.full.remove (pa / 8) }
/-- Whether any byte of a range lies in a poisoned line. -/
def poisoned (m : Memory) (pa n : Nat) : Bool := m.poison.hasAny (pa / 128) ((pa + n - 1) / 128 + 1 - pa / 128) && decide (0 < n)

end Memory

namespace State

def readPA (s : State) (pa n : Nat) : List Byte := s.mem.readN pa n
def writePA (s : State) (pa : Nat) (bs : List Byte) : State := { s with mem := s.mem.writeN pa bs }
def readPA64 (s : State) (pa : Nat) : Nat := leNat (s.readPA pa 8)

end State

/-! ### Page tables -/

/-- Ordering kinds of pages (R407). -/
inductive PageKind where
  | so | rc | uo
  deriving DecidableEq, Repr

/-- A page that translation found: its first virtual byte, its size, the physical byte of the address, its entry. -/
structure Page where
  va : Nat
  size : Nat
  pa : Nat
  entry : Nat
  pteAddr : Nat
  deriving DecidableEq, Repr

namespace Page

def kind (p : Page) : PageKind := match bitsOf p.entry 7 6 with
  | 0 => .so
  | 1 => .rc
  | _ => .uo
/-- On a host page TAG is taken as 0 (R407). -/
def tag (p : Page) : Bool := p.entry.testBit 5 && isHbm p.pa
def user (p : Page) : Bool := p.entry.testBit 4
def canWrite (p : Page) : Bool := p.entry.testBit 3
def canRead (p : Page) : Bool := p.entry.testBit 2
def canExec (p : Page) : Bool := p.entry.testBit 8
def host (p : Page) : Bool := isHost p.pa

end Page

/-- The levels of a page table: lowest bit of the index, index bits, whether a leaf is allowed, is required (R406). -/
def pageLevels : List (Nat × Nat × Bool × Bool) :=
  [(48, 8, false, false), (39, 9, false, false), (30, 9, true, false), (21, 9, true, false), (16, 5, true, true)]

/-- Reserved bits of an entry (R407). -/
def entryReserved (e : Nat) : Bool :=
  bitsOf e 126 112 != 0 || bitsOf e 63 52 != 0 || bitsOf e 11 9 != 0
    || (!e.testBit 127 && bitsOf e 111 80 != 0)

/-- The walk of a page table (R406, R407 steps 1 and 2): the page, or the cause. -/
def walkFrom (s : State) (va : Nat) (table : Nat) : List (Nat × Nat × Bool × Bool) → Except Cause Page
  | [] => .error .pageNotPresent
  | (lo, bits, leafOk, leafMust) :: rest =>
    let pteAddr := table + 16 * (va / 2 ^ lo % 2 ^ bits)
    let e := leNat (s.readPA pteAddr 16)
    let leaf := e.testBit 1
    if !e.testBit 0 then .error .pageNotPresent
    else if entryReserved e || bitsOf e 7 6 == 3 || (leaf && !leafOk) || (!leaf && leafMust) then .error .pageAttrReserved
    else
      let base := bitsOf e 51 12 * 4096
      if leaf then
        if !inMap base || base % 2 ^ lo != 0 then .error .pageAttrReserved
        else .ok { va := va / 2 ^ lo * 2 ^ lo, size := 2 ^ lo, pa := base + va % 2 ^ lo, entry := e, pteAddr := pteAddr }
      else walkFrom s va base rest

/-- The page of a virtual address in a context. -/
def walk (s : State) (ctx va : Nat) : Except Cause Page := walkFrom s va ((s.ctx ctx).root.toNat / 4096 * 4096) pageLevels

/-- The refcount of a page, in its primary entry (R410). -/
def refCount (s : State) (e : Nat) : Nat :=
  if e.testBit 127 then bitsOf (leNat (s.readPA (bitsOf e 111 64 * 16) 16)) 79 64 else bitsOf e 79 64

/-- A cached translation of an address (R408). -/
def lookupCache (tlb : List Cached) (ctx va : Nat) : Option Cached :=
  tlb.find? (fun c => c.ctx == ctx && decide (c.va ≤ va) && decide (va < c.va + c.size))

def cachedPage (c : Cached) (va : Nat) : Page :=
  { va := c.va, size := c.size, pa := bitsOf c.entry 51 12 * 4096 + (va - c.va), entry := c.entry, pteAddr := c.pteAddr }

/-- Who makes an access: the context and the mode of its translation, the core whose TLB it uses, the wave whose
transaction it may belong to, and the cluster whose order it keeps. -/
structure Agent where
  ctx : Nat
  user : Bool
  core : Option Nat
  wave : Option Nat
  deriving DecidableEq, Repr

/-- R408: a translation comes from the page table, or from a cache whose copy differs: which one is a free choice
(log 12). -/
def translate (s : State) (g : Agent) (va : Nat) : Except Cause Page :=
  let fresh := walk s g.ctx va
  match g.core with
  | none => fresh
  | some c =>
    let hit := match lookupCache (s.core c).tlb g.ctx va with
      | some x => some x
      | none => lookupCache (s.cluster (clusterOf c)).l2 g.ctx va
    match hit with
    | none => fresh
    | some x =>
      let same := match fresh with
        | .ok p => p == cachedPage x va
        | .error _ => false
      if !same && Config.cachedTranslationUsed (s.fresh * 2 ^ 64 + va) then .ok (cachedPage x va) else fresh

/-- R408: the caches keep a translation that was used: 256 entries in a core, 4096 in a cluster. -/
def fillCaches (s : State) (g : Agent) (p : Page) : State :=
  match g.core with
  | none => s
  | some c =>
    let x : Cached := { ctx := g.ctx, va := p.va, size := p.size, entry := p.entry, pteAddr := p.pteAddr }
    if (lookupCache (s.core c).tlb g.ctx p.va) = some x then s
    else
      let put (l : List Cached) (n : Nat) : List Cached :=
        (x :: l.filter (fun y => !(y.ctx == x.ctx && overlap y.va y.size x.va x.size))).take n
      (s.updCore c (fun k => { k with tlb := put k.tlb 256 })).updCluster (clusterOf c)
        (fun k => { k with l2 := put k.l2 4096 })

/-! ### Accesses -/

/-- The rights that an access needs (R407). -/
inductive Need where
  | read | write | both | exec
  deriving DecidableEq, Repr

def Need.reads : Need → Bool
  | .read | .both => true
  | _ => false
def Need.writes : Need → Bool
  | .write | .both => true
  | _ => false

/-- R407 step 3 and R410: the rights of a page. -/
def rightsOf (s : State) (g : Agent) (p : Page) (need : Need) : Option Cause :=
  if (g.user && !p.user) || (need.reads && !p.canRead) || (need == .exec && !p.canExec) then some .pageProtection
  else if need.writes && !p.canWrite then
    some (if 1 < refCount s p.entry then .sharedPageWrite else .pageProtection)
  else none

/-- One part of an access within one page (R201): its bytes, or the cause that it raises with the first byte's address. -/
structure Part where
  va : Nat
  len : Nat
  page : Except Cause Page
  deriving Repr

/-- One part: translation, then rights (R407). An address with bits [63:56] raises PAGE_PROTECTION (R200). -/
def partOf (s : State) (g : Agent) (need : Need) (va len : Nat) : Part :=
  { va := va, len := len, page :=
    if 2 ^ 56 ≤ va then .error .pageProtection
    else match translate s g va with
      | .error c => .error c
      | .ok p => match rightsOf s g p need with
        | some c => .error c
        | none => .ok p }

/-- R201: an element that crosses a page boundary is split there. A page that no translation finds ends at a 64 KiB
boundary, the smallest page. -/
def partsOf (s : State) (g : Agent) (need : Need) (va len : Nat) : List Part :=
  let first := match (if 2 ^ 56 ≤ va then .error .pageProtection else translate s g va) with
    | .ok p => p.va + p.size - va
    | .error _ => 2 ^ 16 - va % 2 ^ 16
  if len ≤ first then [partOf s g need va len]
  else [partOf s g need va first, partOf s g need ((va + first) % 2 ^ 64) (len - first)]

/-- The causes of the parts of one element, for its lanes (R409). -/
def partRaises (lanes : W32) (parts : List Part) : List Raise :=
  parts.filterMap (fun q => match q.page with
    | .error c => some { cause := c, lanes := lanes, addr := BitVec.ofNat 64 q.va }
    | .ok _ => none)

/-- The physical ranges of parts that translate. -/
def partRanges (parts : List Part) : List (Nat × Nat) :=
  parts.filterMap (fun q => match q.page with
    | .ok p => some (p.pa, q.len)
    | .error _ => none)

/-- R405, R426: reading a poisoned line, and an access to host memory that fails on UCIe. -/
def mediumRaises (s : State) (lanes : W32) (reads : Bool) (parts : List Part) : List Raise :=
  (parts.map (fun q => match q.page with
    | .error _ => []
    | .ok p =>
      (if reads && s.mem.poisoned p.pa q.len then
        [({ cause := .poisonConsumed, lanes := lanes,
            addr := BitVec.ofNat 64 (q.va + ((List.range q.len).find? (fun k => s.mem.poisoned (p.pa + k) 1)).getD 0) } : Raise)]
       else []) ++
      (if p.host && Config.hostLinkFails (s.fresh * 2 ^ 64 + q.va) then
        [({ cause := .hostLinkError, lanes := lanes, addr := BitVec.ofNat 64 q.va } : Raise)] else []))).flatten

/-! ### Transactions (R216, R218) -/

/-- Whether an agent lies in the scope of a wave's transaction. -/
def inTxScope (w : Wave) (t : Tx) (g : Agent) : Bool :=
  match g.core with
  | none => false
  | some c => if t.cluster then clusterOf c == w.place.cluster else c == w.place.core

/-- The 64-byte lines of a physical range. -/
def txLines (pa n : Nat) : List Nat := (List.range ((pa + n - 1) / 64 + 1 - pa / 64)).map (fun k => pa / 64 + k)

/-- R218: whether an access to a range conflicts with a transaction. -/
def txConflict (t : Tx) (pa n : Nat) (writes : Bool) : Bool :=
  (txLines pa n).any (fun l => t.writes.has l || (writes && t.reads.has l))

/-- The open transaction of the agent's wave. -/
def agentTx (s : State) (g : Agent) : Option Tx :=
  match g.wave with
  | none => none
  | some i => match s.wave i with
    | none => none
    | some w => w.tx

/-- R220: a serialised transaction of another wave, within scope, holds an access that conflicts with it. -/
def serialHolds (s : State) (g : Agent) (pa n : Nat) (writes : Bool) : Bool :=
  (List.range s.waves.length).any (fun i =>
    match s.wave i with
    | none => false
    | some w => match w.tx with
      | none => false
      | some t => t.serial && !t.conflict && g.wave != some i && inTxScope w t g && txConflict t pa n writes)

/-- R218: an access makes the transactions that it conflicts with abort; when it belongs to a transaction that began later,
that one aborts instead. -/
def touchTx (s : State) (g : Agent) (pa n : Nat) (writes : Bool) : State :=
  let mine := agentTx s g
  let hit := (List.range s.waves.length).filter (fun i =>
    match s.wave i with
    | none => false
    | some w => match w.tx with
      | none => false
      | some t => g.wave != some i && inTxScope w t g && txConflict t pa n writes)
  let older := match mine with
    | none => []
    | some m => hit.filter (fun i => match s.wave i with
      | some w => match w.tx with
        | some t => decide (t.order < m.order)
        | none => false
      | none => false)
  if older.isEmpty then
    hit.foldl (fun s i => s.updWave i (fun w => { w with tx := w.tx.map (fun t => { t with conflict := true }) })) s
  else match g.wave with
    | some i => s.updWave i (fun w => { w with tx := w.tx.map (fun t => { t with conflict := true }) })
    | none => s

/-- R216: the lines of an access join the read and the write set. -/
def joinTx (t : Tx) (pa n : Nat) (reads writes : Bool) : Tx :=
  { t with
    reads := if reads then (txLines pa n).foldl (fun m l => m.add l) t.reads else t.reads
    writes := if writes then (txLines pa n).foldl (fun m l => m.add l) t.writes else t.writes }

/-- Bytes as an agent sees them: a transaction sees its own writes (R216). -/
def readAs (s : State) (g : Agent) (pa n : Nat) : List Byte :=
  match agentTx s g with
  | none => s.readPA pa n
  | some t => (List.range n).map (fun k => match Cells.get none t.written (pa + k) with
    | some b => b
    | none => s.mem.read (pa + k))

/-- The read of translated parts, with its effect on transactions. -/
def readRange (s : State) (g : Agent) (pa n : Nat) : State × List Byte :=
  let bs := readAs s g pa n
  let s1 := touchTx s g pa n false
  match g.wave, agentTx s g with
  | some i, some _ => (s1.updWave i (fun w => { w with tx := w.tx.map (fun t => joinTx t pa n true false) }), bs)
  | _, _ => (s1, bs)

/-- The write of bytes at a physical address: into the transaction of the agent's wave, or into memory. -/
def writeRange (s : State) (g : Agent) (pa : Nat) (bs : List Byte) : State :=
  let s1 := touchTx s g pa bs.length true
  match g.wave, agentTx s g with
  | some i, some _ =>
    s1.updWave i (fun w => { w with tx := w.tx.map (fun t =>
      { joinTx t pa bs.length false true with written := Cells.setList none t.written pa (bs.map some) }) })
  | _, _ => s1.writePA pa bs

/-- Keeps the translations of parts in the caches. -/
def fillParts (s : State) (g : Agent) (parts : List Part) : State :=
  parts.foldl (fun s q => match q.page with
    | .ok p => fillCaches s g p
    | .error _ => s) s

/-- mem_read of an access whose parts translate (R58). -/
def readParts (s : State) (g : Agent) (parts : List Part) : State × List Byte :=
  (partRanges parts).foldl (fun (acc : State × List Byte) r =>
    let (s1, bs) := readRange acc.1 g r.1 r.2
    (s1, acc.2 ++ bs)) (fillParts s g parts, [])

/-- R412: the pages that an access stores to join those of the transaction of the agent's wave. -/
def notePages (s : State) (g : Agent) (parts : List Part) : State := match g.wave with
  | none => s
  | some i => s.updWave i (fun w => { w with tx := w.tx.map (fun t => { t with
      pages := parts.foldl (fun l q => if l.contains (q.va / 2 ^ 16 * 2 ^ 16) then l else l ++ [q.va / 2 ^ 16 * 2 ^ 16])
        t.pages }) })

/-- mem_write of an access whose parts translate (R58). -/
def writeParts (s : State) (g : Agent) (parts : List Part) (bs : List Byte) : State :=
  let s1 := ((partRanges parts).foldl (fun (acc : State × List Byte) r =>
    (writeRange acc.1 g r.1 (acc.2.take r.2), acc.2.drop r.2)) (fillParts s g parts, bs)).1
  if (agentTx s g).isSome then notePages s1 g parts else s1

/-- A read by an engine or the hardware: the bytes, or the cause. -/
def engineRead (s : State) (g : Agent) (va n : Nat) : Except (Cause × W64) (List Byte) :=
  let parts := partsOf s g .read va n
  match settleRaises (partRaises 1 parts ++ mediumRaises s 1 true parts) with
  | some r => .error (r.cause, r.addr)
  | none => .ok (readParts s g parts).2

/-- A range of any length, page by page of 64 KiB; addresses are modulo 2^64 (R200). -/
def chunks (va n : Nat) : List (Nat × Nat) :=
  (List.range ((va + n + 2 ^ 16 - 1) / 2 ^ 16 - va / 2 ^ 16)).filterMap (fun k =>
    let lo := max va ((va / 2 ^ 16 + k) * 2 ^ 16)
    let hi := min (va + n) ((va / 2 ^ 16 + k + 1) * 2 ^ 16)
    if lo < hi then some (lo % 2 ^ 64, hi - lo) else none)

/-- The causes of a long range, without performing it. -/
def rangeRaises (s : State) (g : Agent) (need : Need) (va n : Nat) : List Raise :=
  ((chunks va n).map (fun c =>
    let parts := partsOf s g need c.1 c.2
    partRaises 1 parts ++ mediumRaises s 1 need.reads parts)).flatten

/-- The bytes of a long range that translates. -/
def rangeRead (s : State) (g : Agent) (va n : Nat) : List Byte :=
  ((chunks va n).map (fun c => (readParts s g (partsOf s g .read c.1 c.2)).2)).flatten

/-- Writes a long range that translates. -/
def rangeWrite (s : State) (g : Agent) (va : Nat) (bs : List Byte) : State :=
  ((chunks va bs.length).foldl (fun (acc : State × List Byte) c =>
    (writeParts acc.1 g (partsOf acc.1 g .write c.1 c.2) (acc.2.take c.2), acc.2.drop c.2)) (s, bs)).1

/-- The agent that a wave's own accesses form. -/
def waveAgent (w : Wave) (i : Nat) : Agent :=
  { ctx := w.place.ctx, user := !w.sysMode, core := some w.place.core, wave := some i }

/-- An engine of a core that acts for a wave: its accesses stand outside transactions. -/
def engineAgent (w : Wave) : Agent :=
  { ctx := w.place.ctx, user := !w.sysMode, core := some w.place.core, wave := none }

/-- The hardware's own access to a wave's private area (R54, R62): it needs a mapping and no rights. A byte that no mapping
holds is dropped. DESIGN CHOICE, unsafe (log 14). -/
def privWrite (s : State) (ctx va : Nat) (bs : List Byte) : State :=
  ((chunks va bs.length).foldl (fun (acc : State × List Byte) c =>
    let s1 := match walk acc.1 ctx c.1 with
      | .ok p => acc.1.writePA p.pa (acc.2.take c.2)
      | .error _ => acc.1
    (s1, acc.2.drop c.2)) (s, bs)).1

/-- The hardware's own read of a wave's private area or context structures. A byte that no mapping holds is a free value
(log 14). -/
def privRead (s : State) (ctx va n : Nat) : List Byte :=
  ((chunks va n).map (fun c => match walk s ctx c.1 with
    | .ok p => s.readPA p.pa c.2
    | .error _ => (List.range c.2).map (fun k => Config.freeByte (s.fresh * 2 ^ 64 + (c.1 + k))))).flatten

end Sys2Proof.Machine
end

