-- ==== Sys2Proof/Machine/Groups.lean ====
section
/-! DEFINITION. Groups and the barrier unit (14_cluster R314-R319, 15_cluster_instructions R346-R354): finding a group and
its members, arrivals, completed generations, leaving. -/

namespace Sys2Proof.Machine

namespace Group

/-- The member that a wave is. -/
def memberOf (g : Group) (wave : Nat) : Option Member := g.members.find? (fun m => m.wave == wave)
/-- Whether a rank is held. -/
def holds (g : Group) (rank : Nat) : Bool := g.members.any (fun m => m.rank == rank)
/-- The lowest rank that no member holds (R315). -/
def freeRank (g : Group) : Nat := ((List.range 32).find? (fun r => !g.holds r)).getD 32
/-- The lowest-ranked member with a ROLE (R357). -/
def elect (g : Group) (role : Nat) : Option Nat := (List.range 32).find? (fun r => g.members.any (fun m => m.rank == r && m.role == role))
def updMember (g : Group) (wave : Nat) (f : Member → Member) : Group :=
  { g with members := g.members.map (fun m => if m.wave == wave then f m else m) }

end Group

namespace Barrier

/-- R319: every required rank has arrived. -/
def complete (b : Barrier) : Bool := b.isOpen && b.required.all (fun e => b.arrived.has e.1)

/-- R319: the next generation. -/
def next (b : Barrier) : Barrier := { gen := (b.gen + 1) % 2 ^ 32, isOpen := false, arrived := [], required := [] }

/-- R319, R350: an arrival opens the generation, with the ranks that it then requires. -/
def arrive (b : Barrier) (rank : Nat) (required : List Nat) : Barrier :=
  let opened : Barrier :=
    if b.isOpen then b
    else { b with isOpen := true, arrived := [], required := required.foldl (fun m r => m.add r) [] }
  { opened with arrived := opened.arrived.add rank }

/-- R348: a member that leaves is no longer required. -/
def leave (b : Barrier) (rank : Nat) : Barrier :=
  { b with arrived := b.arrived.remove rank, required := b.required.remove rank }

/-- A word waiting at the barrier is abandoned without effect (R60). -/
def withdraw (b : Barrier) (rank : Nat) : Barrier := { b with arrived := b.arrived.remove rank }

/-- R328: a halt cancels the open generation. -/
def cancel (b : Barrier) : Barrier := { b with isOpen := false, arrived := [], required := [] }

end Barrier

namespace State

/-- The live group of a key in a context and a cluster (R314). -/
def findGroup (s : State) (cl ctx : Nat) (key : W64) : Option Group :=
  if key = 0 then none else (s.cluster cl).groups.find? (fun g => g.ctx == ctx && g.key == key)

/-- The group of a wave. -/
def groupOf (s : State) (w : Wave) : Option Group := s.findGroup w.place.cluster w.place.ctx w.sys.gkey

/-- Changes a group; one without members dissolves (R348). -/
def updGroup (s : State) (cl ctx : Nat) (key : W64) (f : Group → Group) : State :=
  s.updCluster cl (fun c => { c with
    groups := (c.groups.map (fun g => if g.ctx == ctx && g.key == key then f g else g)).filter
      (fun g => !g.members.isEmpty) })

/-- Changes the group of a wave. -/
def updGroupOf (s : State) (w : Wave) (f : Group → Group) : State := s.updGroup w.place.cluster w.place.ctx w.sys.gkey f

end State

end Sys2Proof.Machine
end

