-- ==== Sys2Proof/Machine/Ops.lean ====
section
/-! DEFINITION. The operations that all words share: event records (R188-R190), lookahead windows (R55-R57), the slots
and the divergence stack (R48-R54), transactions' aborts (R219), abandoned operations (R273-R275), taking a trap
(R59-R64, R432), group halts (R326-R328), retirement (R51, R53) and the return from a trap (R65, R274, R432). -/

namespace Sys2Proof.Machine

/-! ### Event records -/

/-- The records that share the 192 entries (R190). -/
def EventRec.shared (e : EventRec) : Bool := e.kind != 4 && e.kind != 5

/-- Whether one of the 192 shared entries is free (R190). -/
def Core.eventRoom (c : Core) : Bool := decide ((c.events.filter (·.shared)).length < 192)

/-- Puts a record into the event queue of a core; a source waits while the shared entries are full (R190). -/
def Core.record (c : Core) (e : EventRec) : Core :=
  if e.shared && !c.eventRoom then { c with held := c.held ++ [e] } else { c with events := c.events ++ [e] }

/-- A record of a wave on its core. -/
def recordOf (s : State) (i : Nat) (kind : Nat) (cause : Cause) (data : Nat) (addr : W64) : State :=
  match s.wave i with
  | none => s
  | some w => s.updCore w.place.core (fun c =>
      c.record { kind := kind, wave := w.place.num, token := 0, cause := cause, data := data, addr := addr, who := i })

/-- The TRAP record of a wave (R60 step 4): ADDR is its PRIV. -/
def trapRecordOf (s : State) (i : Nat) (cause : Cause) (replay : Bool) : State :=
  match s.wave i with
  | none => s
  | some w => s.updCore w.place.core (fun c =>
      c.record { kind := 4, wave := w.place.num, token := 0, cause := cause, data := 0, addr := w.sys.priv, who := i, replay := replay })

/-! ### Lookahead windows -/

/-- A held register write takes effect. -/
def RegWrite.apply (w : Wave) : RegWrite → Wave
  | .s n x => w.setS n x
  | .v n l x => w.setV n l x
  | .m n x => w.setM n x

def applyWrites (w : Wave) (ws : List RegWrite) : Wave := ws.foldl RegWrite.apply w

/-- A window that has completed and lets no word run any more is gone. -/
def dropDone (xs : List Window) : List Window := xs.filter (fun x => !(x.done && x.left == 0))

namespace Wave

/-- The instruction of the window completes: its writes take effect. -/
def completeWindow (w : Wave) (k : Nat) : Wave :=
  match w.windows[k]? with
  | none => w
  | some x =>
    let w1 := if x.done then w else applyWrites w x.writes
    { w1 with windows := dropDone (w.windows.mapIdx (fun j y =>
        if j = k then { y with done := true, writes := [] } else y)) }

/-- R56, R60: a trap ends every window; each instruction completes before the frame is written. A pending operation comes
back with its window when it is issued again (R274), MWAIT waits on (R303), and a split operation holds the wave (R417). -/
def flushWindows (w : Wave) : Wave :=
  { (w.windows.foldl (fun w x => if x.done then w else applyWrites w x.writes) w) with
    run := { w.run with holdSplit := true }
    windows := (w.windows.filter (fun x => x.ends == .drain && !x.done)).map (fun x => { x with left := 0 }) }

/-- R57: a taken branch or a split ends the windows of a slot; its next word waits for their instructions. -/
def endWindows (w : Wave) (b : Bool) : Wave :=
  { w with windows := dropDone (w.windows.map (fun x => if x.slotB == b then { x with left := 0 } else x)) }

/-- A word of slot `b` has issued: each of the first `n` windows of the slot lets one word less run (R55). -/
def countWindows (w : Wave) (b : Bool) (n : Nat) : Wave :=
  { w with windows := dropDone (w.windows.mapIdx (fun j x =>
      if decide (j < n) && x.slotB == b then { x with left := x.left - 1 } else x)) }

/-- The result of a long-latency instruction with lookahead LA (R55): written at once for LA = 0, held by a window
otherwise. -/
def openWindow (w : Wave) (b : Bool) (la : BitVec 4) (dests srcs : List Reg) (ws : List RegWrite) : Wave :=
  if la = 0 then applyWrites w ws
  else { w with windows := w.windows ++
      [{ slotB := b, left := la.toNat, done := false, dests := dests, srcs := srcs, writes := ws }] }

end Wave

/-! ### Slots and the divergence stack -/

def Slot.empty : Slot := {}

/-- A slot that runs. -/
def Slot.running (pc : W64) (mask : W32) (rpc : Option W64) : Slot :=
  { valid := true, parked := false, pc := pc, mask := mask, rpc := rpc, wait := none }

namespace Wave

/-- R50: a slot whose PC equals its RPC parks. -/
def park (x : Slot) : Slot := if x.valid && !x.parked && x.rpc == some x.pc then { x with parked := true } else x

/-- A slot takes a new place that the word before it in the program does not lead to: its windows end, as at a taken branch
(R57; for a slot that the stack loads or that merges away, DEDUCED, log 26). -/
def loadSlot (w : Wave) (b : Bool) (x : Slot) : Wave := (w.setSlot b x).endWindows b

/-- The first row of R50's table that holds for the parked slot `b`; none when the slot waits. -/
def resolveOne (w : Wave) (b : Bool) : Option Wave :=
  let x := w.slot b
  let y := w.slot (!b)
  match x.valid && x.parked, x.rpc with
  | true, some r =>
    if y.valid && !y.parked && y.rpc == some r then none
    else if y.valid && y.parked && y.rpc == some r then
      some ((w.setSlot b { x with mask := x.mask ||| y.mask }).loadSlot (!b) Slot.empty)
    else match w.stack with
      | .pending pc m rr :: rest =>
        if rr = r then some ({ w with stack := rest }.loadSlot b (Slot.running pc m (some r))) else none
      | .join rr m outer :: rest =>
        if rr = r then
          let m1 := m &&& ~~~ w.exited
          some ({ w with stack := rest }.loadSlot b (if m1 = 0 then Slot.empty else Slot.running r m1 outer))
        else none
      | [] => none
  | _, _ => none

/-- R51: both slots are invalid and the stack is not empty: the top entry goes into slot A. -/
def popIfEmpty (w : Wave) : Option Wave :=
  if w.slotA.valid || w.slotB.valid then none
  else match w.stack with
    | [] => none
    | .pending pc m r :: rest => some ({ w with stack := rest }.loadSlot false (Slot.running pc m (some r)))
    | .join r m outer :: rest =>
      let m1 := m &&& ~~~ w.exited
      some ({ w with stack := rest }.loadSlot false (if m1 = 0 then Slot.empty else Slot.running r m1 outer))

/-- R50 and R51, applied until nothing changes: each round pops an entry, merges or frees a slot. -/
def settle : Nat → Wave → Wave
  | 0, w => w
  | n + 1, w =>
    let w1 := { w with slotA := park w.slotA, slotB := park w.slotB }
    match w1.resolveOne false with
    | some w2 => settle n w2
    | none => match w1.resolveOne true with
      | some w2 => settle n w2
      | none => match w1.popIfEmpty with
        | some w2 => settle n w2
        | none => w1

/-- Enough rounds for a stack of this depth. -/
def settled (w : Wave) : Wave := settle (2 * w.stack.length + 4) w

/-- R51: every lane has exited. -/
def allExited (w : Wave) : Bool := !w.slotA.valid && !w.slotB.valid && w.stack.isEmpty

/-- The lanes of a word's slot and predicate (R43). -/
def active (w : Wave) (b : Bool) (p : Pred) : W32 := (w.slot b).mask &&& Pred.lanes p w

end Wave

/-- The counts of a wave after a word of slot `b` completed: `n` windows were open before it. -/
def afterWord (w : Wave) (b advance counted : Bool) (n : Nat) : Wave :=
  let w1 := w.countWindows b n
  let w2 := w1.updSlot b (fun x =>
    if advance && x.valid then { x with pc := x.pc + 8, wait := none, faults := 0 } else { x with faults := 0 })
  { w2 with run := { w2.run with
      lastSlotB := b
      issued := w2.run.issued + 1
      holdSplit := false
      skid := if counted then w2.run.skid else w2.run.skid.map (· + 1) } }

/-- A word that waited in slot `b` completes where the step that satisfied it runs: its effect, and its slot goes on at the
next word (R213, R319, R352, R355). -/
def passSlot (s : State) (i : Nat) (b : Bool) (f : Wave → Wave) : State :=
  s.updWave i (fun w => (afterWord (f w) b true true w.windows.length).settled)

/-! ### Barriers (R319, R350-R352) -/

/-- The slots of a resident wave that wait at a point. -/
def waitingAt (w : Wave) (p : WaitKind → Bool) : List Bool :=
  if w.run.evicted then []
  else [false, true].filter (fun b => match (w.slot b).wait with
    | some x => (w.slot b).valid && p x.kind
    | none => false)

/-- Every slot of a member that waits at a point goes on. -/
def passMember (s : State) (i : Nat) (p : WaitKind → Bool) : State :=
  match s.wave i with
  | none => s
  | some w => (waitingAt w p).foldl (fun s b => passSlot s i b id) s

/-- The kind of wait of a generation: the all-member one, or that of a role. -/
def atBarrier (role : Option Nat) (gen : Nat) (k : WaitKind) : Bool :=
  match role, k with
  | none, .barrier g => g == gen
  | some r, .roleBarrier q g => q == r && g == gen
  | _, _ => false

/-- A generation that is complete ends, and every arrived member is released (R319, R350, R351). -/
def settleBarrier (s : State) (cl ctx : Nat) (key : W64) (role : Option Nat) : State :=
  match s.findGroup cl ctx key with
  | none => s
  | some g =>
    let b : Barrier := match role with
      | none => g.all
      | some r => g.roles.getD r {}
    if !b.complete then s
    else
      let s1 := s.updGroup cl ctx key (fun g => match role with
        | none => { g with all := b.next }
        | some r => { g with roles := updAt g.roles r (fun _ => b.next) })
      (g.members.filter (fun m => b.arrived.has m.rank)).foldl (fun s m => passMember s m.wave (atBarrier role b.gen)) s1

/-- R352: the waiters of GBAR.rows leave in arrival order while ROWS suffices. -/
def serveRows : Nat → State → Nat → Nat → W64 → State
  | 0, s, _, _, _ => s
  | n + 1, s, cl, ctx, key =>
    match s.findGroup cl ctx key with
    | none => s
    | some g => match g.rowWait with
      | [] => s
      | (rank, b, rows) :: rest =>
        if rows ≤ g.rows then
          let s1 := s.updGroup cl ctx key (fun g => { g with rows := g.rows - rows, rowWait := rest })
          let s2 := match g.members.find? (fun m => m.rank == rank) with
            | some m => passSlot s1 m.wave b id
            | none => s1
          serveRows n s2 cl ctx key
        else s

/-- Everything that a change of a group may complete. -/
def settleGroup (s : State) (cl ctx : Nat) (key : W64) : State :=
  let s1 := (none :: (List.range 8).map some).foldl (fun s r => settleBarrier s cl ctx key r) s
  serveRows 64 s1 cl ctx key

/-- Whether a wait is at a GBAR. -/
def atGbar : WaitKind → Bool
  | .barrier _ | .roleBarrier _ _ | .rows _ => true
  | _ => false

/-- R326: HALT becomes 2 when every member has stopped. -/
def haltSettled (g : Group) : Group := if g.halt == 1 && g.members.all (·.stopped) then { g with halt := 2 } else g

def settleHalt (s : State) (cl ctx : Nat) (key : W64) : State := s.updGroup cl ctx key haltSettled

/-- R226: the bindings of a key end; a ring without entries is gone. -/
def unbindRings (c : Core) (ctx : Nat) (key : W64) : Core :=
  let off (r : Ring) : Ring := if r.ctx == ctx && r.key == key then { r with bound := false } else r
  { c with rings := (c.rings.map off).filter (fun r => r.bound || !r.entries.isEmpty) }

/-- R348: an interrupt armed for a group that has dissolved reaches no wave; key 0 is that of no group. -/
def Wave.disarmGroup (w : Wave) (key : W64) : Wave :=
  { w with intr := { w.intr with armed := w.intr.armed.map (fun a => if a.group == some key then { a with group := some 0 } else a) } }

/-- R348, R53, R314: a wave leaves its group. A GBAR of its other slot completes at once; the ring bindings of a group that
dissolves end (R226), and an interrupt armed for it is delivered to no wave. -/
def leaveGroup (s : State) (i : Nat) : State :=
  match s.wave i with
  | none => s
  | some w =>
    match s.groupOf w with
    | none => s.updWave i (fun w => { w with sys := { w.sys with gkey := 0 } })
    | some g =>
      let rank := ((g.memberOf i).map (·.rank)).getD 32
      let s1 := s.updGroupOf w (fun g => { g with
        members := g.members.filter (fun m => m.wave != i)
        all := g.all.leave rank
        roles := g.roles.map (fun b => b.leave rank)
        rowWait := g.rowWait.filter (fun e => e.1 != rank) })
      let s2 := passMember (s1.updWave i (fun w => { w with
        sys := { w.sys with gkey := 0 }, run := { w.run with skid := none, haltDue := false } })) i atGbar
      match s1.groupOf w with
      | some _ => settleGroup (settleHalt s2 w.place.cluster w.place.ctx w.sys.gkey) w.place.cluster w.place.ctx w.sys.gkey
      | none =>
        { s2 with
          cores := s2.cores.mapIdx (fun k c =>
            if clusterOf k == w.place.cluster then
              unbindRings c w.place.ctx w.sys.gkey
            else c)
          waves := s2.waves.map (fun x =>
            if x.place.cluster == w.place.cluster && x.place.ctx == w.place.ctx then x.disarmGroup w.sys.gkey else x) }

/-! ### Transactions -/

/-- TXSTAT (R221). -/
def txStat (cause ucode cnt : Nat) (ser isOpen cluster : Bool) (code : Nat) : W64 :=
  BitVec.ofNat 64 (cause * 2 ^ 24 + ucode * 2 ^ 16 + cnt * 2 ^ 12 + (if ser then 2 ^ 11 else 0)
    + (if isOpen then 2 ^ 10 else 0) + (if cluster then 2 ^ 8 else 0) + code)

/-- CNT of TXSTAT (R220). -/
def Wave.txCnt (w : Wave) : Nat := bitsOf w.sys.txstat.toNat 15 12

/-- R219: an abort discards the writes, resets the slots and the stack, and writes TXSTAT. -/
def Wave.abortTx (w : Wave) (code cause ucode : Nat) : Wave :=
  match w.tx with
  | none => w
  | some t =>
    let cnt := if code = 1 then min 8 (w.txCnt + 1) else 0
    let w1 := (w.endWindows false).endWindows true
    let w2 := ({ w1 with slotA := Slot.empty, slotB := Slot.empty }).setSlot t.slotB (Slot.running t.abortPc t.mask t.rpc)
    { w2 with
      tx := none
      sync := []
      stack := w.stack.drop (w.stack.length - t.depth)
      sys := { w.sys with txstat := txStat cause ucode cnt t.serial false t.cluster code } }

/-! ### Abandoned operations -/

/-- The Merge Unit's instructions. -/
def isMergeInstr : Instr → Bool
  | .tmerge .. | .tunmerge .. => true
  | _ => false

/-- Operations in issue order. -/
def insertCaptured (c : Captured) : List Captured → List Captured
  | [] => [c]
  | x :: xs => if c.order ≤ x.order then c :: x :: xs else x :: insertCaptured c xs

/-- The pending array and merge operations of a wave that it can still abandon (R272, R364, R375). -/
def pendingOps (s : State) (i : Nat) : List Captured :=
  match s.wave i with
  | none => []
  | some w =>
    let core := s.core w.place.core
    let mine (o : ArrayOp) : Bool := o.wave == i && o.card.isNone
    let run := match core.running with
      | some r => if mine r.op then [r.op.cap] else []
      | none => []
    let merge := ((s.cluster w.place.cluster).mergeQueue.filter (fun m => m.wave == i && m.card.isNone && !m.torn && m.rest.isNone)).map (·.cap)
    (run ++ (core.queue.filter mine).map (·.cap) ++ merge).foldl (fun l c => insertCaptured c l) []

/-- Operations of the Merge Unit are abandoned: the one that runs is torn, the others are gone (R364, R375). -/
def tearFirst (p : MergeOp → Bool) : List MergeOp → List MergeOp
  | [] => []
  | m :: rest => (if p m then [{ m with torn := true }] else [m]) ++ rest.filter (fun x => !p x || x.torn)

/-- R273, R375: the pending operations of a wave are abandoned; their captures stay with the wave (R275). -/
def abandonOps (s : State) (i : Nat) : State :=
  match s.wave i with
  | none => s
  | some w =>
    let mine (o : ArrayOp) : Bool := o.wave == i && o.card.isNone
    let ops := (pendingOps s i).foldl (fun l c => insertCaptured c l) w.abandoned
    ((s.updCore w.place.core (fun c => { c with
        queue := c.queue.filter (fun o => !mine o)
        running := match c.running with
          | some r => if mine r.op then none else some r
          | none => none })).updCluster w.place.cluster (fun c => { c with
        mergeQueue := tearFirst (fun m => m.wave == i && m.card.isNone && m.rest.isNone) c.mergeQueue })).updWave i
      (fun w => { w with abandoned := ops })

/-- An operation that writes a scalar register at its commit, or runs on the Merge Unit, holds the words behind its window
until then (R282, R376). -/
def opWindow (c : Captured) (left : Nat) (srcs : List Reg) : List Window :=
  match c.instr with
  | .movftc _ _ d _ | .tmerge _ _ d _ =>
    [{ slotB := c.slotB, left := left, done := false, dests := [.s d.toNat], srcs := srcs, writes := [],
       ends := .op c.order }]
  | .tunmerge _ _ _ =>
    [{ slotB := c.slotB, left := left, done := false, dests := [], srcs := srcs, writes := [], ends := .op c.order }]
  | _ => []

/-- R274: the abandoned operations of a wave are issued again in their original order. -/
def reissueOps (s : State) (i : Nat) : State :=
  match s.wave i with
  | none => s
  | some w =>
    let s1 := w.abandoned.foldl (fun s c =>
      if isMergeInstr c.instr then
        s.updCluster w.place.cluster (fun k => { k with mergeQueue := k.mergeQueue ++ [{ wave := i, cap := c, card := none }] })
      else
        s.updCore w.place.core (fun k => { k with queue := k.queue ++ [{ wave := i, cap := c, card := none }] })) s
    s1.updWave i (fun w => { w with
      abandoned := []
      windows := w.windows ++ w.abandoned.flatMap (fun c => opWindow c 0 []) })

/-- A wave whose frames a running pair operation holds (R313). -/
def heldByPair (s : State) (i : Nat) : Bool :=
  s.cores.any (fun c => match c.running with
    | some r => r.follower == some i
    | none => false)

/-! ### The trap frame and the stack in the wave's save area -/

/-- A slot in the trap frame (R62). An invalid slot is written 0. -/
def frameSlot (x : Slot) (pc : W64) : Nat :=
  if !x.valid then 0
  else
    let off : Int := ((x.pc - pc).toInt) / 8
    let field : Nat := if -(2 ^ 29) < off ∧ off < 2 ^ 29 then (off % 2 ^ 30).toNat else 2 ^ 29
    field * 2 ^ 34 + (if x.parked then 2 ^ 33 else 0) + 2 ^ 32 + x.mask.toNat

/-- The cause-and-flags word (R63). -/
def frameFlags (r : Raise) (orig part slotB : Bool) : Nat :=
  r.detail % 256 * 2 ^ 16 + (if orig then 2 ^ 13 else 0) + (if r.eng then 2 ^ 12 else 0) + (if r.pairY then 2 ^ 11 else 0)
    + (if part then 2 ^ 10 else 0) + (if r.kind = .y then 2 ^ 9 else 0) + (if slotB then 2 ^ 8 else 0) + r.cause.code

/-- The 128 bytes of a trap frame (R62). -/
def frameBytes (w : Wave) (flags : Nat) (pc word addr : W64) (lanes : W32) (skid : Nat) : List Byte :=
  leBytes 8 flags ++ leBytes 8 pc.toNat ++ leBytes 8 (frameSlot w.slotA pc) ++ leBytes 8 (frameSlot w.slotB pc)
    ++ leBytes 8 addr.toNat ++ leBytes 4 lanes.toNat ++ leBytes 4 skid ++ leBytes 8 w.sys.gkey.toNat
    ++ leBytes 8 word.toNat ++ leBytes 8 w.stack.length ++ List.replicate 56 0

/-- A difference of code addresses in words, in 32 bits (R54). -/
def wordsBetween (a b : W64) : Nat := (((a - b).toInt / 8) % 2 ^ 32).toNat

/-- A stack entry in memory (R54). -/
def StackEntry.bytes : StackEntry → List Byte
  | .pending pc m r => leBytes 16 (wordsBetween r pc * 2 ^ 96 + m.toNat * 2 ^ 64 + pc.toNat % 2 ^ 56 / 8 * 8)
  | .join r m outer =>
    let roff := match outer with
      | none => 2 ^ 31
      | some o => wordsBetween o r
    leBytes 16 (roff * 2 ^ 96 + m.toNat * 2 ^ 64 + r.toNat % 2 ^ 56 / 8 * 8 + 1)

/-- R54: every live entry is written back. -/
def writeStack (s : State) (i : Nat) : State :=
  match s.wave i with
  | none => s
  | some w => privWrite s w.place.ctx (w.sys.priv.toNat + 0x400) ((w.stack.reverse.map (·.bytes)).flatten)

/-- A slot in the saved state (R335): PC, RPC, flags and mask. -/
def Slot.image (x : Slot) : List Byte :=
  leBytes 8 x.pc.toNat ++ leBytes 8 ((x.rpc.map (·.toNat)).getD (2 ^ 64 - 1))
    ++ leBytes 8 ((if x.parked then 2 ^ 33 else 0) + (if x.valid then 2 ^ 32 else 0) + x.mask.toNat)

/-- The slot that an image holds. -/
def Slot.ofImage (b : List Byte) : Slot :=
  let f := fieldAt b 16 8
  { valid := f.testBit 32, parked := f.testBit 33, pc := BitVec.ofNat 64 (fieldAt b 0 8), mask := BitVec.ofNat 32 f
    rpc := if fieldAt b 8 8 = 2 ^ 64 - 1 then none else some (BitVec.ofNat 64 (fieldAt b 8 8)), wait := none }

/-! ### Taking a trap -/

/-- R60 step 2, R356: words that wait are abandoned without effect; an arrival at a barrier is withdrawn, and a wait for
rows too, which lets the waiters behind it go on (R352). -/
def abandonWaits (s : State) (i : Nat) : State :=
  match s.wave i with
  | none => s
  | some w =>
    let rankOf := ((s.groupOf w).bind (fun g => g.memberOf i)).map (·.rank)
    let waits := [w.slotA.wait, w.slotB.wait].filterMap (fun x => x.map (·.kind))
    let s1 := match rankOf with
      | none => s
      | some r => (fun (t : State) => serveRows 64 t w.place.cluster w.place.ctx w.sys.gkey) (s.updGroupOf w (fun g => { g with
          all := if waits.any (fun k => match k with
            | .barrier _ => true
            | _ => false) then g.all.withdraw r else g.all
          roles := g.roles.mapIdx (fun j (b : Barrier) => if waits.any (fun k => match k with
            | .roleBarrier x _ => x == j
            | _ => false) then b.withdraw r else b)
          rowWait := g.rowWait.filter (fun e => e.1 != r) }))
    s1.updWave i (fun w => { w with
      slotA := { w.slotA with wait := none }
      slotB := { w.slotB with wait := none }
      sync := [] })

/-- Marks a member as stopped for a halt; HALT becomes 2 when every member has stopped (R326). -/
def markStopped (s : State) (i : Nat) : State :=
  match s.wave i with
  | none => s
  | some w => s.updGroupOf w (fun g => haltSettled (g.updMember i (fun m => { m with stopped := true })))

/-- R326, R327: a member stops for a halt of its group, with its skid, and writes its frame. A generation that it waited for
has been cancelled, so a member evicted at GBAR is dispatched again once its group has been resumed (R328, R329). -/
def stopMember (s : State) (i : Nat) (skid : Nat) : State :=
  match s.wave i with
  | none => s
  | some w0 =>
    let s1 := abandonOps (abandonWaits (s.setWave i (w0.abortTx 7 0 0).flushWindows) i) i
    match s1.wave i with
    | none => s1
    | some w =>
      let b := if (w.slot w.run.lastSlotB).valid then w.run.lastSlotB else !w.run.lastSlotB
      let pc := (w.slot b).pc
      let r : Raise := { cause := .groupHalt }
      let s2 := writeStack s1 i
      let s3 := privWrite s2 w.place.ctx w.sys.priv.toNat (frameBytes w (frameFlags r false false b) pc 0 0 0 skid)
      let s4 := s3.updWave i (fun w => { w with run := { w.run with
        status := .stopped
        skid := none
        haltDue := false
        limit := none
        wake := w.run.wake.filter (fun k => !atGbar k)
        trap := some { cause := .groupHalt, eng := false, pc := pc, slotB := b, orig := false, fromOp := false,
                       resumed := false, asleep := w0.run.status == .asleep } } })
      markStopped (trapRecordOf s4 i .groupHalt false) i

/-- Whether a wave stands where no word of it issues: a halt stops it at once (R327). -/
def Wave.standsStill (w : Wave) : Bool :=
  w.run.evicted || w.run.status != .running ||
    ([w.slotA, w.slotB].all (fun x => !x.valid || x.parked || x.wait.isSome))

/-- R326: the halt is sent to every other member of the group; it reaches each one later (GROUP_HALT_DELIVERY). -/
def haltGroup (s : State) (i : Nat) : State :=
  match s.wave i with
  | none => s
  | some w =>
    match s.groupOf w with
    | none => s
    | some g =>
      let s1 := s.updGroupOf w (fun g => { g with
        halt := if g.halt == 0 then 1 else g.halt
        all := g.all.cancel
        roles := g.roles.map Barrier.cancel
        rowWait := [] })
      let s2 := g.members.foldl (fun s m =>
        let s := s.updWave m.wave (fun x => { x with intr := { x.intr with
          savedA := { x.intr.savedA with wait := none }, savedB := { x.intr.savedB with wait := none } } })
        if m.wave == i || m.stopped then s
        else match s.wave m.wave with
          | none => s
          | some x =>
            if x.run.status == .halted || x.run.status == .stopped || x.run.skid.isSome then s
            else s.updWave m.wave (fun x => { x with run := { x.run with haltDue := true } })) s1
      markStopped s2 i

/-- R326, R327: the halt reaches a member. One that stands still stops at once; another one may issue up to 8 words. -/
def haltArrives (s : State) (i : Nat) : State :=
  match s.wave i with
  | none => s
  | some w =>
    if w.standsStill then stopMember s i 0
    else s.updWave i (fun x => { x with run := { x.run with haltDue := false, skid := some 0 } })

/-- R432: whether the wave enters its own handler instead of halting. -/
def entersHandler (w : Wave) (r : Raise) : Bool :=
  w.sysMode && w.sys.sysvec != 0 && !w.sys.inHandler && (r.kind == .p || r.kind == .l || r.kind == .y)

/-- R65: the causes after which the wave goes on at the next word. -/
def goesPast (r : Raise) : Bool :=
  r.cause == .softwareTrap || r.cause == .breakpoint || r.kind == .l || r.kind == .e

/-- Taking a trap (R60-R65, R326, R432): wave `i` takes the cause `r`. `pc` and `word` are those of the faulting word in
slot `b`; `part` says whether other lanes of it completed; `fromOp` marks a cause found at the start of an array operation
or at the completion of a merge operation, which leaves the slots where they stand. A fault of kind Y keeps a halt that has
been sent to the wave, and the words that it has issued since the halt reached it (R327). -/
def takeTrap (s : State) (i : Nat) (r : Raise) (b : Bool) (pc word : W64) (part fromOp : Bool) : State :=
  match s.wave i with
  | none => s
  | some w0 =>
    let w1 := w0.flushWindows
    let w2 := if fromOp then w1
      else w1.updSlot b (fun x => if x.valid then { x with pc := if goesPast r then pc + 8 else pc } else x)
    let s1 := abandonOps (abandonWaits (s.setWave i w2) i) i
    match s1.wave i with
    | none => s1
    | some w =>
      let handler := entersHandler w r
      let orig := (s1.groupOf w).isSome && r.cause != .groupHalt && r.kind != .y && !handler
      let s2 := writeStack s1 i
      let s3 := privWrite s2 w.place.ctx w.sys.priv.toNat
        (frameBytes w (frameFlags r orig part b) pc word r.addr r.lanes 0)
      if handler then
        let save := w.slotA.image ++ w.slotB.image ++ leBytes 8 w.stack.length ++ leBytes 8 0
        (privWrite s3 w.place.ctx (w.sys.priv.toNat + 0x800) save).updWave i (fun w => { w with
          sys := { w.sys with inHandler := true }
          run := { w.run with heldFaults := (w.slotA.faults, w.slotB.faults) }
          slotA := Slot.running w.sys.sysvec (~~~ w.exited) none
          slotB := Slot.empty })
      else
        let s4 := s3.updWave i (fun w => { w with run := { w.run with
          status := if r.kind = .y then .service else .halted
          skid := if r.kind = .y then w.run.skid else none
          haltDue := r.kind == .y && w.run.haltDue
          limit := none
          trap := some { cause := r.cause, eng := r.eng, pc := pc, slotB := b, orig := orig, fromOp := fromOp,
                         resumed := false, asleep := w0.run.status == .asleep } } })
        let s5 := trapRecordOf s4 i r.cause (r.kind == .y)
        if orig then haltGroup s5 i else s5

/-! ### The return from a trap -/

/-- R65, R274: a halted or stopped wave goes on at its slots, its abandoned operations issued first. An evicted wave does so
once it is dispatched again (R331). -/
def resumeWave (s : State) (i : Nat) : State :=
  let evicted := match s.wave i with
    | some w => w.run.evicted
    | none => true
  (if evicted then s else reissueOps s i).updWave i (fun w =>
    let back := match w.run.trap with
      | some t => if t.asleep then WaveStatus.asleep else WaveStatus.running
      | none => WaveStatus.running
    { w.settled with run := { w.run with status := back, trap := none } })

/-- R432: the return from the system trap handler. The slots and the divergence depth come back from the save area. -/
def returnFromHandler (s : State) (i : Nat) : State :=
  match s.wave i with
  | none => s
  | some w =>
    let img := privRead s w.place.ctx (w.sys.priv.toNat + 0x800) 64
    let s1 := s.updWave i (fun w => ({ w with
      sys := { w.sys with inHandler := false }
      slotA := { Slot.ofImage (img.take 24) with faults := w.run.heldFaults.1 }
      slotB := { Slot.ofImage ((img.drop 24).take 24) with faults := w.run.heldFaults.2 }
      run := { w.run with heldFaults := (0, 0) }
      stack := w.stack.drop (w.stack.length - fieldAt img 48 8) }).settled)
    reissueOps s1 i

/-! ### Resuming a group (R329, R430) -/

/-- A member of a halted group that has not stopped yet (R326), or that the runtime has not resumed yet. -/
def holdsGroup (s : State) (m : Member) : Bool :=
  match s.wave m.wave with
  | none => false
  | some w => !m.stopped || (match w.run.trap with
    | some t => !t.resumed
    | none => w.run.status == .halted || w.run.status == .stopped)

/-- When every member has been resumed or has left, the members go on and HALT returns to 0. -/
def releaseGroup (s : State) (cl ctx : Nat) (key : W64) : State :=
  match s.findGroup cl ctx key with
  | none => s
  | some g =>
    if g.halt == 0 || g.members.any (holdsGroup s) then s
    else
      let s1 := g.members.foldl (fun s m => match s.wave m.wave with
        | some w => if w.run.status == .halted || w.run.status == .stopped then resumeWave s m.wave else s
        | none => s) s
      s1.updGroup cl ctx key (fun g => { g with halt := 0, members := g.members.map (fun m => { m with stopped := false }) })

/-- A wave of a core that has failed: it is not resumed (R194). -/
def Wave.machineChecked (w : Wave) : Bool := match w.run.trap with
  | some t => t.cause == .machineCheck
  | none => false

/-- The runtime resumes one halted wave (R430); a member of a halted group waits for its group (R329). -/
def resumeOne (s : State) (i : Nat) : State :=
  match s.wave i with
  | none => s
  | some w =>
    match s.groupOf w with
    | some g =>
      if w.machineChecked then s
      else if g.halt == 0 then resumeWave s i
      else
        let s1 := s.updWave i (fun w => { w with run := { w.run with
          trap := w.run.trap.map (fun t => { t with resumed := true }) } })
        releaseGroup s1 w.place.cluster w.place.ctx w.sys.gkey
    | none => if w.machineChecked then s else resumeWave s i

/-! ### Retirement -/

/-- R395: the live tasks of the stage of a wave that retires. -/
def lowerLive (s : State) (i : Nat) : State :=
  match (s.wave i).bind (·.place.stage) with
  | none => s
  | some x => s.updDie x.die (fun d => { d with pipes := d.pipes.map (fun p =>
      if p.number == x.pipe then { p with queues := updAt p.queues x.stage (fun q => { q with live := q.live - 1 }) } else p) })

/-- R51, R53: the wave retires. It leaves its group and keeps its footprint until its commands have completed. -/
def retireWave (s : State) (i : Nat) : State :=
  let s1 := lowerLive (leaveGroup s i) i
  let s2 := s1.updWave i (fun w => { w with
    slotA := Slot.empty
    slotB := Slot.empty
    stack := []
    sync := []
    tx := none
    intr := {}
    place := { w.place with frameHold := 0 }
    run := { w.run with status := .retiring, skid := none, haltDue := false, trap := none, limit := none, preempt := false
                        evicting := false } })
  recordOf s2 i 5 .noCause 0 0

/-- R433, R329: a wave is killed: CONTEXT_KILLED stands in its frame, which halts its group (R60), and it retires. Its own
pending operations are dropped; its posted commands complete (R53). -/
def killWave (s : State) (i : Nat) : State :=
  match s.wave i with
  | none => s
  | some w0 =>
    if w0.run.status == .retiring || w0.run.status == .gone then s
    else
      let s1 := abandonOps (abandonWaits (s.setWave i (w0.abortTx 7 0 0).flushWindows) i) i
      match s1.wave i with
      | none => s1
      | some w =>
        let b := if (w.slot w.run.lastSlotB).valid then w.run.lastSlotB else !w.run.lastSlotB
        let r : Raise := { cause := .contextKilled }
        let orig := (s1.groupOf w).isSome
        let s2 := writeStack s1 i
        let s3 := privWrite s2 w.place.ctx w.sys.priv.toNat
          (frameBytes w (frameFlags r orig false b) (w.slot b).pc 0 0 0 0)
        let s4 := trapRecordOf s3 i .contextKilled false
        let s5 := if orig then haltGroup s4 i else s4
        retireWave (s5.updWave i (fun w => { w with abandoned := [], run := { w.run with killed := true } })) i

/-! ### WAKE (R430) -/

/-- The halted or HALTed wave that a value written to WAKE names: bits [55:12] are its PRIV. -/
def wokenWave (s : State) (x : W64) : Option Nat :=
  (List.range s.waves.length).find? (fun i => match s.wave i with
    | some w => w.sys.priv.extractLsb' 12 44 == x.extractLsb' 12 44
        && (w.run.status == .halted || w.run.status == .stopped || w.run.status == .asleep)
    | none => false)

/-- Action 0: a wave halted by a trap resumes by R65; a wave that HALT stopped goes on at its next word. -/
def wakeResumeOp (s : State) (x : W64) : State :=
  match wokenWave s x with
  | none => s
  | some i => match s.wave i with
    | some w =>
      if w.run.status == .asleep then s.updWave i (fun w => { w with run := { w.run with status := .running } })
      else resumeOne s i
    | none => s

end Sys2Proof.Machine
end

