-- ==== Sys2Proof/Machine/Evict.lean ====
section
/-! DEFINITION. Eviction (14_cluster R330-R336, 15 R358, R359, 08 R186, R231, 11 R278): the checkpoint directory, the save
image, the saved wave state, the release of resources and the BLOCKED record. -/

namespace Sys2Proof.Machine

/-- The wake word, address and operand of a wait (R336, R354). -/
def WaitKind.wake : WaitKind → Nat × Nat × Nat
  | .barrier gen => (1, 0, gen)
  | .roleBarrier role gen => (2, 0, role * 2 ^ 32 + gen)
  | .rows n => (3, 0, n)
  | .wordFull _ _ va => (4, va.toNat, 0)
  | .wordEmpty _ va => (5, va.toNat, 0)
  | .queueItem _ _ _ q => (6, q.toNat, 0)
  | .queueRoom _ _ _ q => (7, q.toNat, 0)
  | .reply _ fa => (8, fa.toNat, 0)
  | .tokens mask => (9, 0, mask)
  | .chain desc seq => (10, desc.toNat, seq)
  | .coll id => (11, 0, id)
  | .frames n => (12, 0, n)
  | _ => (0, 0, 0)

/-- The blocking points (R107, R336). -/
def WaitKind.blocking (k : WaitKind) : Bool := k.wake.1 != 0

/-! ### The checkpoint directory (R332) -/

/-- The entries of a range list, up to KIND 0: kind, count, first. -/
def rangeList (s : State) (ctx va : Nat) : Nat → List (Nat × Nat × Nat)
  | 0 => []
  | n + 1 =>
    let e := leNat (privRead s ctx va 8)
    let kind := bitsOf e 63 60
    if kind = 0 then [] else (kind, bitsOf e 59 32, bitsOf e 31 0) :: rangeList s ctx (va + 8) n

/-- The range list of a PC: that of its point entry in the directory whose code range holds it. A list ends at KIND 0 alone;
2^61 entries fill the whole address space. -/
def rangesAt (s : State) (ctx : Nat) (pc : Nat) : List (Nat × Nat × Nat) :=
  let dirs := (s.ctx ctx).ckdir.filter (fun d => d != 0)
  let dir := dirs.find? (fun d =>
    let base := leNat (privRead s ctx d.toNat 8)
    let len := leNat (privRead s ctx (d.toNat + 8) 4)
    decide (base ≤ pc) && decide (pc < base + len))
  let point := dir.bind (fun d =>
    let n := leNat (privRead s ctx (d.toNat + 12) 4)
    ((List.range n).find? (fun k => leNat (privRead s ctx (d.toNat + 16 * (k + 1)) 8) == pc)).map
      (fun k => leNat (privRead s ctx (d.toNat + 16 * (k + 1) + 8) 8)))
  match point with
  | none => [(6, 0, 0)]
  | some a => rangeList s ctx a (2 ^ 61)

/-- KIND 6 and 7-15: the whole footprint of the wave. -/
def footprintRanges (w : Wave) : List (Nat × Nat × Nat) :=
  [(1, w.place.regs, 0), (2, w.place.scratchLen, w.place.scratchBase), (4, 32, 0), (5, 8, 0)]

/-- R359: the entries of the range lists of the slots' PCs. An entry that both lists hold counts once. -/
def rangeEntries (s : State) (w : Wave) : List (Nat × Nat × Nat) :=
  let lists := [w.slotA, w.slotB].map (fun x =>
    if !x.valid then []
    else if x.parked then [(6, 0, 0)]
    else rangesAt s w.place.ctx x.pc.toNat)
  (lists.headD []) ++ ((lists.getD 1 []).filter (fun e => !(lists.headD []).contains e))

/-- What a range leaves of another one of its kind: the parts before and behind it. -/
def rangeMinus (e x : Nat × Nat × Nat) : List (Nat × Nat × Nat) :=
  if e.1 != x.1 then [e]
  else
    let lo := e.2.2
    let hi := e.2.2 + e.2.1
    let left := min hi x.2.2
    let right := max lo (x.2.2 + x.2.1)
    (if lo < left then [(e.1, left - lo, lo)] else []) ++ (if right < hi then [(e.1, hi - right, right)] else [])

/-- R331, R359: the union of ranges: each one without what an earlier one names. -/
def unionRanges (rs : List (Nat × Nat × Nat)) : List (Nat × Nat × Nat) :=
  rs.foldl (fun acc e => acc ++ acc.foldl (fun es x => es.flatMap (fun y => rangeMinus y x)) [e]) []

/-- R359: the union of the range lists of the slots' PCs, with whole footprints written out. -/
def savedRanges (s : State) (w : Wave) : List (Nat × Nat × Nat) :=
  unionRanges ((rangeEntries s w).flatMap (fun e => if 6 ≤ e.1 then footprintRanges w else [e]))

/-- The numbers that ranges of a kind name, each once, below a limit. -/
def namedIn (kind limit : Nat) (rs : List (Nat × Nat × Nat)) : List Nat :=
  (rs.filter (fun e => e.1 == kind)).foldl (fun acc e =>
    acc ++ ((List.range (min e.2.1 limit)).map (· + e.2.2)).filter (fun k => decide (k < limit) && !acc.contains k)) []

/-! ### The save image (R333, R334) -/

/-- The difference of a lane from lane 0, taken as a signed number. -/
def laneDelta (base x : W32) : Int := (x - base).toInt

/-- The format byte and the record of a vector register. -/
def vectorRecord (lanes : List W32) : Nat × List Byte :=
  let base := lanes.headD 0
  let ds := lanes.map (laneDelta base)
  let within (k : Int) : Bool := ds.all (fun d => decide (-k ≤ d) && decide (d < k))
  let nib (d : Int) : Nat := (d % 16).toNat
  if lanes.all (· == base) then (0x01, leBytes 4 base.toNat)
  else if within 8 then
    (0x11, leBytes 4 base.toNat ++ (List.range 16).map (fun j =>
      BitVec.ofNat 8 (nib (ds.getD (2 * j) 0) + 16 * nib (ds.getD (2 * j + 1) 0))))
  else if within 128 then (0x12, leBytes 4 base.toNat ++ (ds.map (fun d => leBytes 1 (d % 256).toNat)).flatten)
  else if within 32768 then (0x13, leBytes 4 base.toNat ++ (ds.map (fun d => leBytes 2 (d % 65536).toNat)).flatten)
  else (0x00, (lanes.map (fun x => leBytes 4 x.toNat)).flatten)

/-- Padding to a multiple of `n`. -/
def padTo (n : Nat) (bs : List Byte) : List Byte := bs ++ List.replicate ((n - bs.length % n) % n) 0

def frameElems (c : Core) (phys : Nat) : List W32 := Cells.slice 0 c.store.frames (4096 * phys) 4096
def wordsImage (xs : List W32) : List Byte := (xs.map (fun x => leBytes 4 x.toNat)).flatten
def tileImage (c : Core) (t : Nat) : List Byte × List Byte × W32 :=
  (Cells.slice 0 c.store.tiles (8192 * t) 8192, Cells.slice 0 c.store.strips (2048 * t) 2048, Cells.get 0 c.store.tcr t)
def edgeVals (c : Core) (e : Nat) : List W32 := Cells.slice 0 c.store.edges (129 * e) 129

/-- The 544-byte image of an edge register (R302). -/
def edgeImage (c : Core) (e : Nat) : List Byte :=
  leBytes 4 (Cells.get 0 c.store.edgeLen e) ++ leBytes 4 (Cells.get 0 c.store.edgeBase e).toNat ++ List.replicate 8 0
    ++ wordsImage (edgeVals c e) ++ List.replicate 12 0

/-- The bytes of one range other than vector registers. -/
def rangeImage (c : Core) (w : Wave) (e : Nat × Nat × Nat) : List Byte :=
  match e.1 with
  | 2 => Cells.slice 0 c.scratch e.2.2 (min e.2.1 0x8_0000)
  | 3 => ((namedIn 3 32 [e]).map (fun t =>
      let (el, st, tcr) := tileImage c t
      padTo 128 (el ++ st ++ leBytes 4 tcr.toNat))).flatten
  | 4 => ((namedIn 4 32 [e]).map (fun k => match (w.place.frameMap.getD k none) with
      | some f => wordsImage (frameElems c f)
      | none => [])).flatten
  | 5 => ((namedIn 5 8 [e]).map (fun k => match (w.place.edgeMap.getD k none) with
      | some p => padTo 640 (edgeImage c p)
      | none => [])).flatten
  | _ => []

/-- The record of an abandoned operation (R333, R275). -/
def Captured.image (c : Captured) : List Byte :=
  let data := wordsImage c.vectors
  leBytes 8 c.word.toNat ++ leBytes 8 c.pc.toNat
    ++ ((List.range 4).map (fun k => leBytes 8 (c.scalars.getD k 0).toNat)).flatten
    ++ leBytes 8 data.length ++ leBytes 8 0 ++ padTo 64 data

/-- The slot that stands at the point of an eviction: the one that waits there, that of the trap of a stopped wave, or the
one that issued last (CKPT). -/
def pointSlot (w : Wave) : Bool :=
  let b := match w.run.trap with
    | some t => t.slotB
    | none =>
      if (w.slotA.wait.map (fun x => x.kind.blocking)).getD false then false
      else if (w.slotB.wait.map (fun x => x.kind.blocking)).getD false then true
      else w.run.lastSlotB
  if (w.slot b).valid then b else !b

/-- The save image at PRIV + 0x1000 (R333). `entries`: how many entries the range lists have. -/
def saveImage (c : Core) (w : Wave) (entries : Nat) (rs : List (Nat × Nat × Nat)) (spill : Bool) : List Byte :=
  let regs := namedIn 1 w.place.regs rs
  let recs := regs.map (fun n => vectorRecord (w.getVec n))
  let formats := padTo 16 (recs.map (fun r => BitVec.ofNat 8 r.1))
  let vecs := (recs.map (fun r => padTo 4 r.2)).flatten
  let others := ((rs.filter (fun e => e.1 != 1)).map (rangeImage c w)).flatten
  let listed := namedIn 4 32 rs
  let spilled := if spill then ((List.range 32).map (fun k => match w.place.frameMap.getD k none with
    | some f => if listed.contains k then [] else wordsImage (frameElems c f)
    | none => [])).flatten else []
  let ops := leBytes 8 w.abandoned.length ++ (w.abandoned.map (·.image)).flatten
  let head (total : Nat) : List Byte :=
    leBytes 8 (w.slot (pointSlot w)).pc.toNat ++ leBytes 4 regs.length ++ leBytes 4 entries
      ++ leBytes 8 total ++ List.replicate 40 0
  let body := padTo 128 (head 0 ++ formats ++ vecs) ++ others ++ spilled
  let whole := padTo 128 body ++ ops
  head whole.length ++ whole.drop 64

/-- The saved wave state at PRIV + 0x080 (R335), with its wake word. -/
def waveImage (w : Wave) (wake : Nat × Nat × Nat) : List Byte :=
  let held := match w.intr.savedA.wait, w.intr.savedB.wait with
    | some x, _ => x.kind.wake
    | none, some x => x.kind.wake
    | none, none => (0, 0, 0)
  let window := if w.place.scratchLen = 0 then 0 else w.place.scratchLen * 2 ^ 32 + w.place.scratchBase
  leBytes 8 window
    ++ leBytes 8 wake.1 ++ leBytes 8 wake.2.1 ++ leBytes 8 wake.2.2
    ++ w.slotA.image ++ w.slotB.image
    ++ leBytes 8 (w.exited.toNat + w.stack.length * 2 ^ 32)
    ++ ((List.range 8).map (fun k => leBytes 1 (w.token k))).flatten
    ++ ([w.sys.role.toNat, w.sys.fpctl.toNat, w.sys.fpstat.toNat, w.sys.bound.toNat, w.sys.uivec.toNat,
         w.sys.ropepart.toNat, w.sys.txstat.toNat].map (leBytes 8)).flatten
    ++ leBytes 8 ((if w.run.preempt then 1 else 0) + (if w.run.trap.isSome then 2 else 0))
    ++ ((List.range 16).map (fun k => leBytes 4 (w.getM k).toNat)).flatten
    ++ List.replicate 32 0
    ++ ((List.range 64).map (fun k => leBytes 8 (w.getS k).toNat)).flatten
    ++ w.intr.savedA.image ++ w.intr.savedB.image ++ leBytes 8 w.intr.savedDepth
    ++ leBytes 8 held.1 ++ leBytes 8 held.2.1 ++ leBytes 8 held.2.2
    ++ leBytes 8 ((if w.intr.inHandler then 1 else 0) + (if w.intr.requests.isEmpty then 0 else 2))
    ++ List.replicate 40 0

/-! ### Eviction -/

/-- Engine commands of a wave, posted before a point in the order of posting, that have not completed. -/
def postedBefore (s : State) (i upto : Nat) : Bool :=
  s.cores.any (fun c => c.rings.any (fun r => r.entries.any (fun e => e.wave == i && decide (e.order < upto))))
    || s.clusters.any (fun c => c.cards.any (fun k => k.wave == i && decide (k.order < upto)))
    || s.fabric.cmds.any (fun c => c.wave == i && decide (c.number < upto))
    || s.fabric.colls.any (fun c => c.wave == i && decide (c.number < upto) && !c.finished)

/-- R231, R53: a command that the wave posted has not completed. -/
def hasCommands (s : State) (i : Nat) : Bool := postedBefore s i (s.ticket + 1)

/-- A split operation of the wave still runs (R417). -/
def splitRuns (s : State) (i : Nat) : Bool :=
  s.dies.any (fun d => d.splitOps.any (fun o => o.wave == i && o.card.isNone && o.cause.isNone))

/-- A split operation of the wave has completed with a cause that the wave has not taken yet (R417). -/
def splitFailed (s : State) (i : Nat) : Bool :=
  s.dies.any (fun d => d.splitOps.any (fun o => o.wave == i && o.card.isNone && o.cause.isSome))

/-- A split operation of the wave is not done with. -/
def hasSplit (s : State) (i : Nat) : Bool := s.dies.any (fun d => d.splitOps.any (fun o => o.wave == i && o.card.isNone))

/-- A merge operation of the wave has begun to write its map: it completes, and the wave is not dispatched before (R375). -/
def writesMap (s : State) (i : Nat) : Bool :=
  s.clusters.any (fun c => c.mergeQueue.any (fun m => m.wave == i && m.card.isNone && m.rest.isSome))

/-- What an eviction keeps of the storage of the core (R333): a range that is not saved holds free values. -/
def savedStorage (c : Core) (w : Wave) (rs : List (Nat × Nat × Nat)) (spill : Bool) (draw : Nat) : Saved :=
  let frames := namedIn 4 32 rs
  let edges := namedIn 5 8 rs
  let free (k n : Nat) : W32 := Config.freeWord (draw * 2 ^ 32 + k * 2 ^ 16 + n)
  { tiles := (namedIn 3 32 rs).map (fun t => (t, tileImage c t))
    frames := (List.range 32).filterMap (fun k => (w.place.frameMap.getD k none).map (fun f =>
      (k, if spill || frames.contains k then frameElems c f else (List.range 4096).map (free k))))
    edges := (List.range 8).filterMap (fun k => (w.place.edgeMap.getD k none).map (fun p =>
      if edges.contains k then (k, edgeVals c p, Cells.get 0 c.store.edgeLen p, Cells.get 0 c.store.edgeBase p)
      else (k, (List.range 129).map (free (64 + k)), (Config.freeWord (draw * 2 ^ 32 + k)).toNat % 130, free (96 + k) 0))) }

/-- R333: the vector registers that are not saved hold free values. -/
def forgetRegs (w : Wave) (keep : List Nat) (draw : Nat) : Wave :=
  ((List.range w.place.regs).filter (fun n => !keep.contains n)).foldl (fun w n =>
    w.setLanes n (lanes.map (fun l => (l, Config.freeWord (draw * 2 ^ 32 + 2 ^ 24 + 32 * n + l))))) w

/-- R179: the tags whose slots lie in a released window are invalidated. -/
def releaseTags (c : Core) (base len : Nat) : Core :=
  { c with tags := c.tags.map (fun e =>
      if base ≤ 128 * e.1 ∧ 128 * e.1 < base + len then (e.1, e.2 &&& 0x7FFF_FFFF_FFFF_FFFF#64) else e)
                     |>.filter (fun e => e.2 != 0) }

/-- A word that waits at an all-member or role barrier keeps its arrival over an eviction (R319); every other wait is made
anew when the word executes again (R336, R354). -/
def keptWait (x : Slot) : Slot :=
  { x with wait := x.wait.filter (fun y => match y.kind with
      | .barrier _ | .roleBarrier _ _ => true
      | _ => false) }

/-- R306: an array card of the wave has not completed; the wave keeps its frames and edges. -/
def hasArrayCards (s : State) (i : Nat) : Bool :=
  s.clusters.any (fun c => c.cards.any (fun k => k.wave == i && fieldAt k.header 7 1 == 2))

/-- The range list names bytes of the scratchpad (R186). -/
def namesScratch (rs : List (Nat × Nat × Nat)) : Bool := rs.any (fun e => e.1 == 2 && e.2.1 != 0)

/-- R333, R278: the image of an evicted wave in its private area. -/
def writeImage (s : State) (i : Nat) (spill : Bool) : State :=
  match s.wave i with
  | none => s
  | some w => privWrite s w.place.ctx (w.sys.priv.toNat + 0x1000)
      (saveImage (s.core w.place.core) w (rangeEntries s w).length (savedRanges s w) spill)

/-- R186, R333: an evicted wave releases its frames and edges; what the ranges do not save becomes free values. -/
def releaseStorage (s : State) (i : Nat) (spill : Bool) : State :=
  match s.wave i with
  | none => s
  | some w =>
    (s.updWave i (fun x => { x with
      saved := savedStorage (s.core w.place.core) w (savedRanges s w) spill s.fresh
      place := { x.place with frameMap := List.replicate 32 none, edgeMap := List.replicate 8 none, frameHold := 0 } })).nextFresh

/-- R330, R331, R278: the eviction of a wave. `wait` is the blocking point at which it stands, none for CKPT; a stopped
wave takes CODE 0x0D. `spill` saves every owned frame (R278). -/
def evict (s : State) (i : Nat) (wait : Option WaitKind) (stopped spill : Bool) : State :=
  match s.wave i with
  | none => s
  | some w0 =>
    let s1 := abandonOps (s.setWave i w0.flushWindows) i
    match s1.wave i with
    | none => s1
    | some w =>
      let rs := savedRanges s1 w
      let wake := if stopped then (13, 0, 0) else ((wait.map (·.wake)).getD (0, 0, 0))
      let s2 := writeStack s1 i
      let s3 := privWrite s2 w.place.ctx (w.sys.priv.toNat + 0x80) (waveImage w wake)
      let s4 := writeImage s3 i spill
      let rank := ((s4.groupOf w).bind (fun g => g.memberOf i)).map (·.rank)
      let s5 := settleGroup (s4.updGroupOf w (fun g => { g with
        rowWait := g.rowWait.filter (fun e => some e.1 != rank) })) w.place.cluster w.place.ctx w.sys.gkey
      let s6 := if namesScratch rs || hasCommands s5 i then s5
        else s5.updCore w.place.core (fun c => releaseTags c w.place.scratchBase w.place.scratchLen)
      let s7 := if hasArrayCards s6 i then s6 else releaseStorage s6 i spill
      let s8 := s7.updWave i (fun x =>
        let y := forgetRegs x (namedIn 1 x.place.regs rs) s7.fresh
        { y with
          slotA := keptWait y.slotA
          slotB := keptWait y.slotB
          sync := []
          run := { y.run with
            evicted := true, wake := wait, wakeStored := false, windowKept := namesScratch rs, preempt := false
            evicting := false } })
      recordOf s8.nextFresh i 6 .noCause wake.1 (BitVec.ofNat 64 wake.2.1)

/-- R231, R306: a command of an evicted wave has completed. After its last array card it releases its frames and edges, unless
it has been killed; after its last command R186 decides whether the window is kept. -/
def settleEvicted (s : State) (i : Nat) : State :=
  match s.wave i with
  | none => s
  | some w =>
    if !w.run.evicted then s
    else
      let spill := match w.run.wake with
        | some (.frames _) => true
        | _ => false
      let s1 := if w.run.status == .retiring || hasArrayCards s i || (w.place.frameMap.all (·.isNone) && w.place.edgeMap.all (·.isNone)) then s
        else releaseStorage (writeImage s i spill) i spill
      if w.run.windowKept || hasCommands s1 i then s1
      else s1.updCore w.place.core (fun c => releaseTags c w.place.scratchBase w.place.scratchLen)

end Sys2Proof.Machine
end

