-- ==== Sys2Proof/Machine/Words.lean ====
section
/-! DEFINITION. How a word ends: it completes, it places the slots itself, it waits, or it takes a trap (R43, R50, R55, R57,
R59, R65, R219). Every meaning of a word runs through `runWord` or `onceWord`. -/

namespace Sys2Proof.Machine

/-- What the meaning of a word answers, with the causes that it recorded (R59). -/
inductive Result where
  /-- The word completes on this state; its slot goes on at the next word. -/
  | done (t : State) (rs : List Raise)
  /-- The word completes and has placed the slots of its wave itself. -/
  | placed (t : State) (rs : List Raise)
  /-- The word does not complete; it is issued again once the condition holds. -/
  | wait (k : WaitKind) (t : State)
  deriving Repr

/-- The wave's slots settle (R50, R51); a wave whose lanes have all exited retires (R51). -/
def settleOrRetire (s : State) (i : Nat) : State :=
  let s1 := s.updWave i (·.settled)
  match s1.wave i with
  | some w => if w.allExited && w.run.status == .running then retireWave s1 i else s1
  | none => s1

/-- Whether a word of this slot has been counted already, as it waited at a blocking point (R326). -/
def waitedBefore (w : Wave) (b : Bool) : Bool := match (w.slot b).wait with
  | some x => x.kind.blocking
  | none => false

/-- A word completes: `t` is the state that its meaning gave. -/
def commit (s t : State) (advance : Bool) : State :=
  match s.wave s.cur with
  | none => t
  | some w => settleOrRetire
      ((t.updWave s.cur (fun x => afterWord x s.slotB advance (waitedBefore w s.slotB) w.windows.length)).nextFresh) s.cur

/-- The lanes of the current word's slot (R43). -/
def activeNow (s : State) : W32 := match s.wave s.cur with
  | none => 0
  | some w => w.active s.slotB (wordPred s.ir)

/-- R219: a cause inside a transaction aborts it and no trap is taken, except for TX_FORBIDDEN, which is taken at the
forbidden word. Outside one, the cause is taken (R60). -/
def takeOrAbort (s : State) (r : Raise) (pc : W64) : State :=
  let part := r.kind == .l && (activeNow s &&& ~~~ r.lanes) != 0
  match s.wave s.cur with
  | none => s
  | some w =>
    if w.tx.isSome && r.kind != .y then
      if r.cause == .txForbidden then
        let s1 := s.updWave s.cur (fun w =>
          let w1 := w.abortTx 8 0 0
          let b := w1.slotB.valid
          w1.updSlot b (fun x => { x with pc := pc }))
        takeTrap s1 s.cur r ((s1.wave s.cur).map (·.slotB.valid) |>.getD s.slotB) pc s.ir part false
      else settleOrRetire (s.updWave s.cur (fun w => w.abortTx 6 r.cause.code 0)) s.cur
    else takeTrap s s.cur r s.slotB pc s.ir part false

/-- R409: the PAGE_NOT_PRESENT faults of kind Y of a word are counted in its slot; the 17th waits to be raised as REPLAY_LIMIT
instead. Any other cause of the word ends the count. -/
def trapOrAbort (s : State) (r : Raise) (pc : W64) : State :=
  let count := ((s.wave s.cur).map (fun w => (w.slot s.slotB).faults)).getD 0
  let counted (n : Nat) : State := s.updWave s.cur (fun w => w.updSlot s.slotB (fun x => { x with faults := n }))
  if r.kind == .y then
    if count < 16 then
      takeOrAbort (counted (count + 1)) r pc
    else s.updWave s.cur (fun w => { w with run := { w.run with
      status := .service, limit := some (r, s.slotB, pc, s.ir) } })
  else takeOrAbort (counted 0) r pc

/-- A word takes the cause `r` (R59, R64): on `s`, as if it had not executed, for kinds P, Y and H; on `t`, which holds its
effects, for kinds L and E. The causes of R21 keep the flags that the word set in FPSTAT. -/
def trapWord (s t : State) (r : Raise) : State :=
  match s.wave s.cur with
  | none => s
  | some w =>
    let pc := (w.slot s.slotB).pc
    if r.kind == .l || r.kind == .e then
      let t1 := t.updWave s.cur (fun x => afterWord x s.slotB false (waitedBefore w s.slotB) w.windows.length)
      trapOrAbort t1.nextFresh r pc
    else
      let flags := (t.wave s.cur).map (·.sys.fpstat)
      let s1 := if r.cause == .fpTrap || r.cause == .scaleNan || r.cause == .outlierEscape then
          s.updWave s.cur (fun x => { x with sys := { x.sys with fpstat := flags.getD x.sys.fpstat } })
        else s
      trapOrAbort s1.nextFresh r pc

/-- A wave with a pre-emption request has reached the point of its eviction (R330, R358). While a pair operation holds its
frames it issues no more, and is evicted when that has ended (R313). -/
def evictHere (s : State) (i : Nat) (wait : Option WaitKind) : State :=
  if heldByPair s i then s.updWave i (fun w => { w with run := { w.run with evicting := true } })
  else evict s i wait false false

/-- A word waits: its slot takes a place in the order of waiting, and a wave with a pre-emption request is evicted at its
blocking point (R330). -/
def waitWord (s t : State) (k : WaitKind) : State :=
  match s.wave s.cur with
  | none => t
  | some w =>
    let old := (w.slot s.slotB).wait
    let ticket := match old with
      | some x => x.ticket
      | none => s.ticket
    let counts := k.blocking && !waitedBefore w s.slotB
    let t1 := (t.updWave s.cur (fun x =>
      let y := x.updSlot s.slotB (fun z => { z with wait := some { kind := k, ticket := ticket, word := s.ir } })
      if counts then { y with run := { y.run with skid := y.run.skid.map (· + 1), lastSlotB := s.slotB } } else y)).nextTicket
    if w.run.preempt && k.blocking then evictHere t1 s.cur (some k) else t1

/-- The outcome of a word: the causes that the issue checks recorded join those of the meaning (R59). -/
def finish (s : State) : Result → Host.Outcome State Fault Refusal
  | .done t rs => match settleRaises (s.raised ++ rs) with
    | none => .next (commit s t true)
    | some r => .next (trapWord s t r)
  | .placed t rs => match settleRaises (s.raised ++ rs) with
    | none => .next (commit s t false)
    | some r => .next (trapWord s t r)
  | .wait k t => match settleRaises s.raised with
    | none => .next (waitWord s t k)
    | some r => .next (trapWord s s r)

/-- Runs the meaning of a word on the current wave. -/
def runWord (s : State) (f : Wave → Result) : Host.Outcome State Fault Refusal :=
  match s.wave s.cur with
  | none => .fault .noWave
  | some w => finish s (f w)

/-- A word that executes once when active(S) is not empty, and has no effect otherwise (R43). -/
def onceWord (p : Pred) (s : State) (f : Wave → Result) : Host.Outcome State Fault Refusal :=
  runWord s (fun w => if w.active s.slotB p = 0 then .done s [] else f w)

/-- The completion of a word that changes its wave only. -/
def doneWave (s : State) (w : Wave) : Result := .done (s.setWave s.cur w) []

/-- The word records one cause for the lanes of active(S) (R469). -/
def raiseActive (s : State) (w : Wave) (p : Pred) (c : Cause) (detail : Nat) : Result :=
  .done s [{ cause := c, lanes := w.active s.slotB p, detail := detail }]

/-- The word records one cause for named lanes. -/
def raiseLanes (s : State) (c : Cause) (lanes : W32) (detail : Nat) (addr : W64) : Result :=
  .done s [{ cause := c, lanes := lanes, detail := detail, addr := addr }]

end Sys2Proof.Machine
end

