-- ==== Sys2Proof/Machine/Flags.lean ====
section
/-! DEFINITION. Floating-point numbers and their flags (01_numbers R11-R31, R40, R41): decoding into exact values, one
rounding with its flags, the arithmetic of lanes, the conversions, and what an instruction does with the flags of its lanes
(R19, R21). -/

namespace Sys2Proof.Machine

/-! ### Flags (R19) -/

abbrev flagNX : W32 := 0x001
abbrev flagUF : W32 := 0x002
abbrev flagOF : W32 := 0x004
abbrev flagDZ : W32 := 0x008
abbrev flagIV : W32 := 0x010
abbrev flagSAT : W32 := 0x080
abbrev flagSN : W32 := 0x100
abbrev flagOE : W32 := 0x200

/-! ### Formats (R11) -/

/-- A format: exponent bits, fraction bits, bias, and whether it has infinities (E4M3 has none). -/
structure Fmt where
  ebits : Nat
  mbits : Nat
  bias : Nat
  hasInf : Bool
  deriving DecidableEq, Repr

namespace Fmt

def fp32 : Fmt := ⟨8, 23, 127, true⟩
def fp16 : Fmt := ⟨5, 10, 15, true⟩
def bf16 : Fmt := ⟨8, 7, 127, true⟩
def e4m3 : Fmt := ⟨4, 3, 7, false⟩
def e5m2 : Fmt := ⟨5, 2, 15, true⟩
def fp26 : Fmt := ⟨8, 17, 127, true⟩

/-- The encoding of infinity without its sign; for E4M3 the encoding one above the largest finite one. -/
def infCode (f : Fmt) : Nat := if f.hasInf then (2 ^ f.ebits - 1) * 2 ^ f.mbits else 2 ^ (f.ebits + f.mbits) - 1
/-- The largest finite encoding without its sign. -/
def maxCode (f : Fmt) : Nat := f.infCode - 1
def signBit (f : Fmt) : Nat := 2 ^ (f.ebits + f.mbits)
/-- The canonical quiet NaN (R14). -/
def nanCode (f : Fmt) : Nat :=
  if f.hasInf then (2 ^ f.ebits - 1) * 2 ^ f.mbits + 2 ^ (f.mbits - 1) else 2 ^ (f.ebits + f.mbits) - 1
/-- The exponent of the least subnormal. -/
def qmin (f : Fmt) : Int := 1 - (f.bias : Int) - f.mbits

end Fmt

end Sys2Proof.Machine

namespace Sys2Proof

open Machine

/-- The format of an element type. -/
def EType.fmt : EType → Fmt
  | .f16 => Fmt.fp16
  | .bf16 => Fmt.bf16
  | .e4m3 => Fmt.e4m3
  | .e5m2 => Fmt.e5m2
  | _ => Fmt.fp32

end Sys2Proof

namespace Sys2Proof.Machine

/-- Formats whose subnormals FTZ flushes (R18, R20). -/
def Fmt.flushes (f : Fmt) : Bool := f == Fmt.fp32 || f == Fmt.fp16 || f == Fmt.bf16

/-- A value: NaN (signalling or not), an infinity, or (-1)^neg * m * 2^e. -/
inductive FVal where
  | nan (signalling : Bool)
  | inf (neg : Bool)
  | num (neg : Bool) (m : Nat) (e : Int)
  deriving DecidableEq, Repr

namespace FVal

def zero : FVal := .num false 0 0
def isNan : FVal → Bool
  | .nan _ => true
  | _ => false
def isSnan : FVal → Bool
  | .nan s => s
  | _ => false
def isInf : FVal → Bool
  | .inf _ => true
  | _ => false
def isZero : FVal → Bool
  | .num _ m _ => m == 0
  | _ => false
def neg : FVal → FVal
  | .nan s => .nan s
  | .inf n => .inf (!n)
  | .num n m e => .num (!n) m e
def sign : FVal → Bool
  | .nan _ => false
  | .inf n => n
  | .num n _ _ => n
def abs : FVal → FVal
  | .nan s => .nan s
  | .inf _ => .inf false
  | .num _ m e => .num false m e

end FVal

/-- The value of an encoding (R11, R15). -/
def Fmt.decode (f : Fmt) (bits : Nat) : FVal :=
  let neg := bits.testBit (f.ebits + f.mbits)
  let x := bits / 2 ^ f.mbits % 2 ^ f.ebits
  let m := bits % 2 ^ f.mbits
  let mag := bits % f.signBit
  if f.hasInf && x == 2 ^ f.ebits - 1 then
    (if m = 0 then .inf neg else .nan (f.flushes && !m.testBit (f.mbits - 1)))
  else if !f.hasInf && mag == f.infCode then .nan false
  else if x = 0 then .num neg m f.qmin
  else .num neg (m + 2 ^ f.mbits) (f.qmin + (x - 1))

/-- A subnormal input under FTZ is a zero of its sign (R18). -/
def Fmt.decodeFtz (f : Fmt) (ftz : Bool) (bits : Nat) : FVal :=
  match f.decode bits with
  | .num neg m e => if ftz && f.flushes && m < 2 ^ f.mbits then .num neg 0 e else .num neg m e
  | v => v

/-! ### Rounding (R16, R17, R20) -/

/-- Rounding modes of FPCTL.RM (R18), by code: to nearest even, toward zero, up, down. -/
abbrev Rm := Nat
abbrev rmRNE : Rm := 0
abbrev rmRZ : Rm := 1
abbrev rmRU : Rm := 2
abbrev rmRD : Rm := 3

/-- The bit length of a number. -/
def bitLen (m : Nat) : Nat := if m = 0 then 0 else m.log2 + 1

/-- `m * 2^e` (plus less than one unit of `m` when `sticky`) in units of `2^q`, rounded, and whether that was inexact. -/
def roundAt (rm : Rm) (neg : Bool) (m : Nat) (e q : Int) (sticky : Bool) : Nat × Bool :=
  if q ≤ e then (m * 2 ^ (e - q).toNat, sticky)
  else
    let sh := (q - e).toNat
    let r := m / 2 ^ sh
    let rem := m % 2 ^ sh
    let inexact := rem != 0 || sticky
    let up := match rm with
      | 0 => 2 ^ sh < 2 * rem || (2 * rem == 2 ^ sh && (sticky || r % 2 == 1))
      | 1 => false
      | 2 => inexact && !neg
      | _ => inexact && neg
    (if up then r + 1 else r, inexact)

/-- What a rounding delivers before an overflow is resolved: the encoding without its sign, the flags NX and UF, whether the
rounded magnitude exceeds the largest finite value. -/
structure Rounded where
  code : Nat
  flags : W32
  big : Bool
  deriving DecidableEq, Repr

/-- Rounds a nonzero magnitude (R20): tininess is detected after rounding with unbounded exponent. -/
def roundMag (f : Fmt) (rm : Rm) (ftz neg : Bool) (m : Nat) (e : Int) (sticky : Bool) : Rounded :=
  let p : Int := f.mbits + 1
  let lead := e + bitLen m - 1
  let q := lead - (p - 1)
  let r := roundAt rm neg m e q sticky
  let lead' := if r.1 = 2 ^ (f.mbits + 1) then lead + 1 else lead
  let tiny := lead' < 1 - (f.bias : Int)
  if tiny && ftz && f.flushes then ⟨0, flagUF ||| flagNX, false⟩
  else
    let q' := max q f.qmin
    let d := roundAt rm neg m e q' sticky
    let code := (q' - f.qmin).toNat * 2 ^ f.mbits + d.1
    ⟨code, (if d.2 then flagNX else 0) ||| (if tiny && d.2 then flagUF else 0), f.maxCode < code⟩

/-- The encoding with its sign. -/
def Fmt.signed (f : Fmt) (neg : Bool) (code : Nat) : Nat := if neg then code + f.signBit else code

/-- The encoding of a value that needs a rounding, with IEEE overflow (R23). -/
def roundNum (f : Fmt) (rm : Rm) (ftz neg : Bool) (m : Nat) (e : Int) (sticky : Bool) : Nat × W32 :=
  if m = 0 ∧ sticky = false then (f.signed neg 0, 0)
  else
    let r := roundMag f rm ftz neg m e sticky
    if r.big then
      let toInf := match rm with
        | 0 => true
        | 1 => false
        | 2 => !neg
        | _ => neg
      (f.signed neg (if toInf then f.infCode else f.maxCode), flagOF ||| flagNX)
    else (f.signed neg r.code, r.flags)

/-- The encoding of an exact value (rnd of R17 into a format with infinities). -/
def roundVal (f : Fmt) (rm : Rm) (ftz : Bool) : FVal → Nat × W32
  | .nan _ => (f.nanCode, 0)
  | .inf n => (f.signed n f.infCode, 0)
  | .num n m e => roundNum f rm ftz n m e false

/-! ### Exact arithmetic -/

/-- An exact sum (R16): the sign of an exact zero follows the rounding mode. The second component: an invalid operation. -/
def FVal.add (rm : Rm) : FVal → FVal → FVal × Bool
  | .nan a, .nan b => (.nan false, a || b)
  | .nan a, _ => (.nan false, a)
  | _, .nan b => (.nan false, b)
  | .inf a, .inf b => if a = b then (.inf a, false) else (.nan false, true)
  | .inf a, _ => (.inf a, false)
  | _, .inf b => (.inf b, false)
  | .num na ma ea, .num nb mb eb =>
    let e := min ea eb
    let a : Int := ma * 2 ^ (ea - e).toNat
    let b : Int := mb * 2 ^ (eb - e).toNat
    let s := (if na then -a else a) + (if nb then -b else b)
    if s = 0 then
      (.num (if na = nb then na else rm == rmRD) 0 e, false)
    else (.num (decide (s < 0)) s.natAbs e, false)

/-- An exact product. -/
def FVal.mul : FVal → FVal → FVal × Bool
  | .nan a, .nan b => (.nan false, a || b)
  | .nan a, _ => (.nan false, a)
  | _, .nan b => (.nan false, b)
  | .inf a, .inf b => (.inf (a != b), false)
  | .inf a, .num nb mb _ => if mb = 0 then (.nan false, true) else (.inf (a != nb), false)
  | .num na ma _, .inf b => if ma = 0 then (.nan false, true) else (.inf (na != b), false)
  | .num na ma ea, .num nb mb eb => (.num (na != nb) (ma * mb) (ea + eb), false)

/-- An exact product and sum. -/
def FVal.fma (rm : Rm) (a b c : FVal) : FVal × Bool :=
  let p := FVal.mul a b
  let s := FVal.add rm p.1 c
  (s.1, p.2 || s.2)

/-- Compares two numbers: -1, 0, 1; zeros are equal (R146). -/
def FVal.cmp : FVal → FVal → Int
  | .num na ma ea, .num nb mb eb =>
    let e := min ea eb
    let a : Int := ma * 2 ^ (ea - e).toNat
    let b : Int := mb * 2 ^ (eb - e).toNat
    let x := if na then -a else a
    let y := if nb then -b else b
    if x < y then -1 else if y < x then 1 else 0
  | .inf a, .inf b => if a = b then 0 else if a then -1 else 1
  | .inf a, _ => if a then -1 else 1
  | _, .inf b => if b then 1 else -1
  | _, _ => 0

/-- The flag of an invalid operation. -/
def ivIf (b : Bool) : W32 := if b then flagIV else 0

/-- Delivers the exact result of an operation. -/
def deliver (f : Fmt) (rm : Rm) (ftz : Bool) (x : FVal × Bool) : Nat × W32 :=
  let r := roundVal f rm ftz x.1
  (r.1, r.2 ||| ivIf x.2)

/-! ### Results in FP32 that ignore FPCTL (rne32) -/

def val32 (x : W32) : FVal := Fmt.fp32.decode x.toNat
def rne32 (v : FVal) : W32 := BitVec.ofNat 32 (roundVal Fmt.fp32 rmRNE false v).1
def add32 (a b : W32) : W32 := rne32 (FVal.add rmRNE (val32 a) (val32 b)).1
def sub32 (a b : W32) : W32 := rne32 (FVal.add rmRNE (val32 a) (val32 b).neg).1
def mul32 (a b : W32) : W32 := rne32 (FVal.mul (val32 a) (val32 b)).1
def fma32 (a b c : W32) : W32 := rne32 (FVal.fma rmRNE (val32 a) (val32 b) (val32 c)).1
abbrev nan32 : W32 := 0x7FC0_0000
def isFinite32 (x : W32) : Bool := x.extractLsb' 23 8 != 255
def neg32 (x : W32) : W32 := x ^^^ 0x8000_0000

/-! ### Minimum and maximum (R144): IEEE minimumNumber and maximumNumber -/

/-- Whether `a` is the one that minimumNumber (or maximumNumber) takes of two numbers; -0 lies below +0. -/
def takesFirst (isMax : Bool) (a b : FVal) : Bool :=
  let c := FVal.cmp a b
  if c = 0 then (if isMax then !a.sign else a.sign)
  else if isMax then decide (0 < c) else decide (c < 0)

/-- The encoding that minimumNumber or maximumNumber gives, with IV for a signalling NaN. -/
def minMax (f : Fmt) (isMax : Bool) (ftz : Bool) (a b : Nat) : Nat × W32 :=
  let x := f.decodeFtz ftz a
  let y := f.decodeFtz ftz b
  let iv := ivIf (x.isSnan || y.isSnan)
  let flat (v : FVal) (bits : Nat) : Nat := if v.isZero then f.signed v.sign 0 else bits
  if x.isNan && y.isNan then (f.nanCode, iv)
  else if x.isNan then (flat y b, iv)
  else if y.isNan then (flat x a, iv)
  else if takesFirst isMax x y then (flat x a, iv) else (flat y b, iv)

/-! ### Conversions (R23) -/

/-- To E4M3 or E5M2: saturates, or with .ovnan gives NaN or infinity. -/
def toF8 (f : Fmt) (rm : Rm) (ovnan : Bool) : FVal → Nat × W32
  | .nan s => (f.nanCode, ivIf s)
  | .inf n =>
    if ovnan then ((if f.hasInf then f.signed n f.infCode else f.nanCode), 0) else (f.signed n f.maxCode, flagSAT)
  | .num n m e =>
    if m = 0 then (f.signed n 0, 0)
    else
      let r := roundMag f rm false n m e false
      if r.big then
        if ovnan then ((if f.hasInf then f.signed n f.infCode else f.nanCode), flagOF ||| flagNX)
        else (f.signed n f.maxCode, flagSAT ||| flagOF ||| flagNX)
      else (f.signed n r.code, r.flags)

/-- A value rounded to an integer, and whether that was inexact. -/
def roundInt (rm : Rm) (neg : Bool) (m : Nat) (e : Int) : Int × Bool :=
  let r := roundAt rm neg m e 0 false
  (if neg then -(r.1 : Int) else r.1, r.2)

end Sys2Proof.Machine

namespace Sys2Proof

open Machine

/-- The least and the greatest value of an integer type (R9). -/
def EType.lo (t : EType) : Int := if t.isSigned then -(2 ^ (t.width - 1)) else 0
def EType.hi (t : EType) : Int := if t.isSigned then 2 ^ (t.width - 1) - 1 else 2 ^ t.width - 1

/-- A number in `w` bits. -/
def intBits (w : Nat) (x : Int) : Nat := (x % 2 ^ w).toNat

/-- The value of an element of an integer type. -/
def EType.intVal (t : EType) (bits : Nat) : Int :=
  if t.isSigned && bits.testBit (t.width - 1) then (bits : Int) - 2 ^ t.width else bits

/-- Clamps to a type: the value and whether it changed. -/
def EType.clamp (t : EType) (x : Int) : Int × Bool :=
  if x < t.lo then (t.lo, true) else if t.hi < x then (t.hi, true) else (x, false)

end Sys2Proof

namespace Sys2Proof.Machine

/-- A float to an integer type. -/
def toInt (t : EType) (rm : Rm) : FVal → Nat × W32
  | .nan _ => (0, flagIV)
  | .inf n => (intBits t.width (if n then t.lo else t.hi), flagIV)
  | .num n m e =>
    let r := roundInt rm n m e
    let c := t.clamp r.1
    (intBits t.width c.1, if c.2 then flagIV else if r.2 then flagNX else 0)

/-- The exact value of an integer. -/
def ofInt (x : Int) : FVal := .num (decide (x < 0)) x.natAbs 0

/-- One conversion of an element, by R23. -/
def convert (src dst : EType) (rm : Rm) (ftz sat ovnan : Bool) (bits : Nat) : Nat × W32 :=
  if src.isFloat then
    let fromF8 := src == .e4m3 || src == .e5m2
    let v := src.fmt.decodeFtz ftz bits
    match dst with
    | .e4m3 | .e5m2 =>
      -- E4M3 and E5M2 as a source of each other: rounded like the wider formats
      toF8 dst.fmt rm ovnan v
    | .f32 | .f16 | .bf16 =>
      let quiet := fromF8
      let r := roundVal dst.fmt rm (ftz && !quiet) v
      (r.1, r.2 ||| ivIf v.isSnan)
    | _ => toInt dst rm v
  else
    let x := src.intVal bits
    match dst with
    | .e4m3 | .e5m2 => toF8 dst.fmt rm ovnan (ofInt x)
    | .f32 | .f16 | .bf16 => roundVal dst.fmt rm ftz (ofInt x)
    | _ =>
      if sat then
        let c := dst.clamp x
        (intBits dst.width c.1, if c.2 then flagSAT else 0)
      else (intBits dst.width x, 0)

/-! ### E8M0 scales (R12, R24) -/

/-- A value times a scale; NaN when the scale is 0xFF. -/
def scaled (v : FVal) (s : Nat) : FVal :=
  if s = 255 then .nan false
  else match v with
    | .num n m e => .num n m (e + s - 127)
    | x => x

/-! ### The array's FP26 (R26-R30) -/

/-- rne26 (R26): the rounding is on a 17-bit fraction at every exponent, and only its result is compared with 2^-126. -/
def rne26 (v : FVal) : Nat :=
  match v with
  | .nan _ => Fmt.fp26.nanCode
  | .inf n => Fmt.fp26.signed n Fmt.fp26.infCode
  | .num n m e =>
    if m = 0 then 0
    else
      let q := e + bitLen m - 18
      let code := (q - Fmt.fp26.qmin) * 2 ^ 17 + (roundAt rmRNE n m e q false).1
      if (Fmt.fp26.infCode : Int) ≤ code then Fmt.fp26.signed n Fmt.fp26.infCode
      else if code < 2 ^ 17 then Fmt.fp26.signed n 0
      else Fmt.fp26.signed n code.toNat

/-- The value of an FP26 encoding: exponent field 0 is zero (R11). -/
def val26 (bits : Nat) : FVal :=
  match Fmt.fp26.decode bits with
  | .num n m e => if m < 2 ^ 17 then .num n 0 e else .num n m e
  | v => v

/-- FP26 as FP32 (R13). -/
def promote26 (bits : Nat) : W32 := if (val26 bits).isNan then nan32 else BitVec.ofNat 32 (bits * 64)

/-- The contraction group sum (R28). -/
def gsum (p : Nat) (ts : List FVal) : Nat :=
  let terms := val26 p :: ts
  if terms.any (·.isNan) then Fmt.fp26.nanCode
  else if terms.any (fun t => t == .inf false) && terms.any (fun t => t == .inf true) then Fmt.fp26.nanCode
  else if terms.any (fun t => t == .inf false) then Fmt.fp26.infCode
  else if terms.any (fun t => t == .inf true) then Fmt.fp26.signed true Fmt.fp26.infCode
  else if terms.all (·.isZero) then 0
  else
    let leads := terms.filterMap (fun t => match t with
      | .num _ m e => if m = 0 then none else some (e + bitLen m - 1)
      | _ => none)
    let emax := leads.foldl max (leads.headD 0)
    let acc := terms.foldl (fun (acc : Int) t => match t with
      | .num n m e =>
        let k := e + 23 - emax
        let x : Nat := if 0 ≤ k then m * 2 ^ k.toNat else m / 2 ^ (-k).toNat
        if n then acc - x else acc + x
      | _ => acc) 0
    rne26 (.num (decide (acc < 0)) acc.natAbs (emax - 23))

/-! ### The compensated pair (R40, R41) -/

def twosum (a b : W32) : W32 × W32 :=
  let s := add32 a b
  let bb := sub32 s a
  (s, add32 (sub32 a (sub32 s bb)) (sub32 b bb))

def fastsum (s t : W32) : W32 × W32 :=
  let h := add32 s t
  (h, sub32 t (sub32 h s))

/-- The exact sum of a nonempty list as one operation, with the invalid flag. -/
def sumExact (rm : Rm) (vs : List FVal) : FVal × Bool :=
  if vs.any (·.isNan) then (.nan false, vs.any (·.isSnan))
  else match vs with
    | [] => (FVal.zero, false)
    | v :: rest =>
      let folded := rest.foldl (fun acc x =>
        let r := FVal.add rm acc.1 x
        (r.1, acc.2 || r.2)) (v, false)
      -- an exact zero sum of nonzero terms has the sign of R16
      match folded.1 with
      | .num _ 0 e =>
        (.num (if vs.all (fun x => x.sign == v.sign) then v.sign else rm == rmRD) 0 e, folded.2)
      | _ => folded

/-- R41: the plain value with its flags IV, OF and NX. -/
def plainValue (vs : List FVal) (iv : Bool) : W32 × W32 :=
  let x := sumExact rmRNE vs
  let r := roundVal Fmt.fp32 rmRNE false x.1
  (BitVec.ofNat 32 r.1, (r.2 &&& (flagOF ||| flagNX)) ||| ivIf (x.2 || iv))

/-- pair_add with R41's exceptions: (hi, lo) and the flags. An intermediate that twosum or fastsum does not return and that
overflows leaves an infinity or NaN in what it returns. -/
def pairAdd (hi lo x : W32) : W32 × W32 × W32 :=
  let plain := plainValue [val32 hi, val32 lo, val32 x] false
  let se := twosum hi x
  let t := add32 lo se.2
  let r := fastsum se.1 t
  if [hi, lo, x, se.1, se.2, t, r.1, r.2].all isFinite32 then (r.1, r.2, plain.2) else (plain.1, 0, plain.2)

/-- pair_fma with R41's exceptions. -/
def pairFma (hi lo a b : W32) : W32 × W32 × W32 :=
  let p := FVal.mul (val32 a) (val32 b)
  let plain := plainValue [val32 hi, val32 lo, p.1] p.2
  let ph := mul32 a b
  let pl := rne32 (FVal.add rmRNE p.1 (val32 ph).neg).1
  let se := twosum hi ph
  let u := add32 lo pl
  let t := add32 u se.2
  let r := fastsum se.1 t
  if [hi, lo, a, b, ph, pl, se.1, se.2, u, t, r.1, r.2].all isFinite32 then (r.1, r.2, plain.2) else (plain.1, 0, plain.2)

/-! ### What an instruction does with flags (R18, R19, R21) -/

namespace Wave

def rm (w : Wave) : Rm := bitsOf w.sys.fpctl.toNat 1 0
def ftz (w : Wave) : Bool := w.sys.fpctl.getLsbD 7
def snte (w : Wave) : Bool := w.sys.fpctl.getLsbD 8
def oete (w : Wave) : Bool := w.sys.fpctl.getLsbD 9
def q4thr (w : Wave) : Nat := bitsOf w.sys.fpctl.toNat 18 16

/-- The flags whose traps FPCTL enables, at their places in FPSTAT. -/
def enables (w : Wave) : W32 := (w.sys.fpctl >>> 2) &&& 0x1F

def orFlags (w : Wave) (f : W32) : Wave := { w with sys := { w.sys with fpstat := w.sys.fpstat ||| f } }

end Wave

/-- All flags of a list of lanes. -/
def allFlags (fl : List (Nat × W32)) : W32 := fl.foldl (fun m e => m ||| e.2) 0

/-- R21, R24: the causes of the lanes' flags: FP_TRAP for an enabled flag, SCALE_NAN under SNTE, OUTLIER_ESCAPE under OETE. -/
def flagRaises (w : Wave) (fl : List (Nat × W32)) : List Raise :=
  let lanesWith (m : W32) : W32 := fl.foldl (fun acc e => if e.2 &&& m ≠ 0 then acc ||| laneBit e.1 else acc) 0
  let one (c : Cause) (m : W32) : List Raise :=
    if lanesWith m = 0 then [] else [{ cause := c, lanes := lanesWith m }]
  one .fpTrap w.enables ++ (if w.snte then one .scaleNan flagSN else []) ++ (if w.oete then one .outlierEscape flagOE else [])

end Sys2Proof.Machine
end

