-- ==== Sys2Proof/Machine/Special.lean ====
section
/-! DEFINITION. The correctly rounded special functions of R25. An inexact result is computed in fixed point with 320
fractional bits, of which more than 250 are right; a result of an irrational value then rounds as the exact value does,
since no FP32 argument brings such a value within 2^-100 of a rounding boundary of its result (DEDUCED, log 20). -/

namespace Sys2Proof.Machine

/-- Fractional bits of the fixed-point arithmetic. -/
abbrev fixN : Nat := 320
abbrev fixOne : Nat := 2 ^ fixN

/-- The sum of a series of `n` terms: `step k t` is the term after the `k`-th term `t`. -/
def series (step : Nat → Int → Int) : Nat → Nat → Int → Int → Int
  | 0, _, _, acc => acc
  | n + 1, k, t, acc => series step n (k + 1) (step k t) (acc + t)

/-- atanh(1/q) and atan(1/q): the sum of (±1)^k / ((2k+1) q^(2k+1)). -/
def atanSeries (alternate : Bool) (q : Nat) : Int :=
  ((List.range 330).foldl (fun (acc : Int × Nat) k =>
    let term : Int := (acc.2 / (2 * k + 1) : Nat)
    ((if alternate && k % 2 == 1 then acc.1 - term else acc.1 + term), acc.2 / (q * q))) (0, fixOne / q)).1

def fixLn2 : Int := 2 * atanSeries false 3
def fixPi : Int := 16 * atanSeries true 5 - 4 * atanSeries true 239

/-- e^t for 0 ≤ t < 1. -/
def fixExp (t : Int) : Int := series (fun k x => x * t / fixOne / (k + 1)) 100 0 fixOne 0

/-- sin t for 0 ≤ t < 2. -/
def fixSin (t : Int) : Int := series (fun k x => -(x * t / fixOne * t / fixOne) / ((2 * k + 2) * (2 * k + 3))) 60 0 t 0

/-- ln y for 1 ≤ y < 2. -/
def fixLn (y : Int) : Int :=
  let z := (y - fixOne) * fixOne / (y + fixOne)
  let z2 := z * z / fixOne
  2 * ((List.range 110).foldl (fun (acc : Int × Int) (k : Nat) => (acc.1 + acc.2 / (2 * (k : Int) + 1), acc.2 * z2 / fixOne)) (0, z)).1

/-- A finite value in fixed point. Every FP32 value of magnitude below 2^150 is exact. -/
def toFix (m : Nat) (e : Int) : Int := if 0 ≤ e + fixN then (m * 2 ^ (e + fixN).toNat : Nat) else 0

/-- Rounds an inexact fixed-point result to FP32. -/
def ofFix (neg : Bool) (x : Int) : Nat × W32 := roundNum Fmt.fp32 rmRNE false neg x.natAbs (-(fixN : Int)) true

/-- A value just below 1, and one just above 0. -/
def justBelowOne (neg : Bool) : Nat × W32 := roundNum Fmt.fp32 rmRNE false neg (2 ^ 60 - 1) (-60) true
def justAboveZero (neg : Bool) : Nat × W32 := roundNum Fmt.fp32 rmRNE false neg 1 (-300) true

/-- e^y for a fixed-point y of any sign. -/
def fixExpAny (y : Int) : Int :=
  let k := y / fixLn2
  let r := fixExp (y - k * fixLn2)
  if 0 ≤ k then r * 2 ^ k.toNat else r / 2 ^ (-k).toNat

abbrev inf32 (neg : Bool) : Nat := Fmt.fp32.signed neg Fmt.fp32.infCode
abbrev zero32 (neg : Bool) : Nat := Fmt.fp32.signed neg 0
abbrev one32 (neg : Bool) : Nat := Fmt.fp32.signed neg 0x3F80_0000
def nanOut (iv : Bool) : Nat × W32 := (Fmt.fp32.nanCode, ivIf iv)

/-- 1/x. -/
def rcpCr : FVal → Nat × W32
  | .nan s => nanOut s
  | .inf n => (zero32 n, 0)
  | .num n m e =>
    if m = 0 then (inf32 n, flagDZ)
    else
      let q := 2 ^ 120 / m
      roundNum Fmt.fp32 rmRNE false n q (-e - 120) (2 ^ 120 % m != 0)

/-- The integer part of a square root below 2^128. -/
def isqrt (x : Nat) : Nat :=
  ((List.range 128).map (fun k => 2 ^ (127 - k))).foldl (fun r b => if (r + b) * (r + b) ≤ x then r + b else r) 0

/-- The root of m * 2^e as digits with an even shift: digits, exponent, whether it is exact. -/
def rootOf (m : Nat) (e : Int) : Nat × Int × Bool :=
  let m1 := if e % 2 = 0 then m else 2 * m
  let e1 := if e % 2 = 0 then e else e - 1
  let x := m1 * 2 ^ 80
  let r := isqrt x
  (r, e1 / 2 - 40, r * r == x)

/-- √x. -/
def sqrtCr : FVal → Nat × W32
  | .nan s => nanOut s
  | .inf n => if n then nanOut true else (inf32 false, 0)
  | .num n m e =>
    if m = 0 then (zero32 n, 0)
    else if n then nanOut true
    else
      let r := rootOf m e
      roundNum Fmt.fp32 rmRNE false false r.1 r.2.1 (!r.2.2)

/-- 1/√x: the root of 2^k / m, exact only when 2^k / m and its root are. -/
def rsqCr : FVal → Nat × W32
  | .nan s => nanOut s
  | .inf n => if n then nanOut true else (zero32 false, 0)
  | .num n m e =>
    if m = 0 then (inf32 n, flagDZ)
    else if n then nanOut true
    else
      let e1 := if e % 2 = 0 then e else e - 1
      let m1 := if e % 2 = 0 then m else 2 * m
      let x := 2 ^ 200 / m1
      let r := isqrt x
      roundNum Fmt.fp32 rmRNE false false r (-(e1 / 2) - 100) (!(2 ^ 200 % m1 == 0 && r * r == x))

/-- 2^x. -/
def exp2Cr : FVal → Nat × W32
  | .nan s => nanOut s
  | .inf n => (if n then zero32 false else inf32 false, 0)
  | .num n m e =>
    if m = 0 then (one32 false, 0)
    else if !n && 8 ≤ bitLen m + e then (inf32 false, flagOF ||| flagNX)
    else if n && 8 < bitLen m + e then justAboveZero false
    else
      let x := if n then -toFix m e else toFix m e
      let k := x / fixOne
      let f := x - k * fixOne
      if f = 0 then roundNum Fmt.fp32 rmRNE false false 1 k false
      else
        let r := fixExp (f * fixLn2 / fixOne)
        roundNum Fmt.fp32 rmRNE false false r.natAbs (k - fixN) true

/-- log2 x. -/
def log2Cr : FVal → Nat × W32
  | .nan s => nanOut s
  | .inf n => if n then nanOut true else (inf32 false, 0)
  | .num n m e =>
    if m = 0 then (inf32 true, flagDZ)
    else if n then nanOut true
    else
      let l := bitLen m - 1
      let k := e + l
      if m = 2 ^ l then roundVal Fmt.fp32 rmRNE false (ofInt k)
      else
        let y := toFix m (-(l : Int))
        let x := k * fixOne + fixLn y * fixOne / fixLn2
        ofFix (decide (x < 0)) x

/-- tanh x. -/
def tanhCr : FVal → Nat × W32
  | .nan s => nanOut s
  | .inf n => (one32 n, 0)
  | .num n m e =>
    if m = 0 then (zero32 n, 0)
    else if 5 < bitLen m + e then justBelowOne n
    else if bitLen m + e < -20 then roundNum Fmt.fp32 rmRNE false n (m * 2 ^ 40 - 1) (e - 40) true
    else
      let t := fixExpAny (2 * toFix m e)
      ofFix n ((t - fixOne) * fixOne / (t + fixOne))

/-- 1/(1 + e^-x). -/
def sigmCr : FVal → Nat × W32
  | .nan s => nanOut s
  | .inf n => (if n then zero32 false else one32 false, 0)
  | .num n m e =>
    if m = 0 then (0x3F00_0000, 0)
    else if !n && 6 < bitLen m + e then justBelowOne false
    else if n && 7 < bitLen m + e then justAboveZero false
    else
      let x := toFix m e
      let t := fixExpAny (-x)
      ofFix false (if n then t * fixOne / (fixOne + t) else fixOne * fixOne / (fixOne + t))

/-- sin(π r) for a fixed-point r with 0 ≤ r ≤ 1/2. -/
def sinHalf (r : Int) : Int := fixSin (fixPi * r / fixOne)

/-- sin(πx) of a fixed-point r = |x| mod 2 with its sign; whole and half numbers are exact. -/
def sinpiOf (neg : Bool) (r : Int) : Nat × W32 :=
  let half := fixOne / 2
  let flip := fixOne ≤ r
  let q := if flip then r - fixOne else r
  let sgn := neg != flip
  if q = half then (one32 sgn, 0)
  else ofFix sgn (sinHalf (if q < half then q else fixOne - q))

/-- sin(πx). -/
def sinpiCr : FVal → Nat × W32
  | .nan s => nanOut s
  | .inf _ => nanOut true
  | .num n m e =>
    if m = 0 ∨ 0 ≤ e then (zero32 n, 0)
    else
      let r := toFix m e % (2 * fixOne)
      if r % fixOne = 0 then (zero32 n, 0) else sinpiOf n r

/-- cos(πx). -/
def cospiCr : FVal → Nat × W32
  | .nan s => nanOut s
  | .inf _ => nanOut true
  | .num _ m e =>
    if m = 0 then (one32 false, 0)
    else
      let r : Int := if 0 ≤ e then ((m * 2 ^ e.toNat % 2 * fixOne : Nat) : Int) else toFix m e % (2 * fixOne)
      if r = 0 then (one32 false, 0)
      else if r = fixOne then (one32 true, 0)
      else if r % fixOne = fixOne / 2 then (zero32 false, 0)
      else sinpiOf false ((r + fixOne / 2) % (2 * fixOne))

end Sys2Proof.Machine
end

