-- ==== Sys2Proof/Machine/Operands.lean ====
section
/-! DEFINITION. Operand forms: scalar types (R116), elements of vector registers (R9), modifiers (R78-R80), immediates (R91,
R118), and words that compute lane by lane (R74, R128). -/

namespace Sys2Proof.Machine

/-! ### Scalar operands (R116) -/

def SType.width : SType → Nat
  | .i64 | .n64 => 64
  | _ => 32
def SType.signed : SType → Bool
  | .i64 | .i32 => true
  | _ => false

/-- A source read in the operation width, as a number. -/
def SType.nat (t : SType) (x : W64) : Nat := x.toNat % 2 ^ SType.width t
/-- A source read in the operation width, with the signedness of the type. -/
def SType.int (t : SType) (x : W64) : Int :=
  let n := SType.nat t x
  if SType.signed t && n.testBit (SType.width t - 1) then (n : Int) - 2 ^ SType.width t else n
/-- The result extended to 64 bits. -/
def SType.ext (t : SType) (x : Int) : W64 :=
  let n := (x % 2 ^ SType.width t).toNat
  BitVec.ofInt 64 (if SType.signed t && n.testBit (SType.width t - 1) then (n : Int) - 2 ^ SType.width t else n)

/-- R118: the immediate of a scalar form. -/
def imm64 (zero : Bool) (imm : BitVec 17) : W64 := if zero then imm.setWidth 64 else imm.signExtend 64

/-! ### Elements (R9) -/

/-- The width of an element in the view of a type; the view of .b1 is the whole register (R77). -/
def viewWidth (t : EType) : Nat := if t = .b1 then 32 else t.width

/-- Element k of width w. -/
def elem (w k : Nat) (x : W32) : Nat := x.toNat / 2 ^ (w * k) % 2 ^ w

/-- The elements of a register. -/
def elems (w : Nat) (x : W32) : List Nat := (List.range (32 / w)).map (fun k => elem w k x)

/-- A register from its elements, element 0 first. -/
def ofElems (w : Nat) (xs : List Nat) : W32 := BitVec.ofNat 32 (xs.foldr (fun e acc => e % 2 ^ w + acc * 2 ^ w) 0)

def mapElems (w : Nat) (f : Nat → Nat) (x : W32) : W32 := ofElems w ((elems w x).map f)
def zipElems (w : Nat) (f : Nat → Nat → Nat) (x y : W32) : W32 := ofElems w (List.zipWith f (elems w x) (elems w y))
def zipElems3 (w : Nat) (f : Nat → Nat → Nat → Nat) (x y z : W32) : W32 :=
  ofElems w ((List.range (32 / w)).map (fun k => f (elem w k x) (elem w k y) (elem w k z)))

/-! ### Modifiers (R78, R79) -/

/-- σ(k) of a modifier code in the view of width w. -/
def modSel (w : Nat) (c : Nat) (k : Nat) : Nat :=
  if w = 16 then
    match c % 4 with
    | 0 => k
    | 1 => 1 - k
    | 2 => 0
    | _ => 1
  else if w = 8 then
    match c with
    | 0 => k
    | 1 => 3 - k
    | 2 => 0
    | 3 => (k + 2) % 4
    | 4 => (k + 1) % 4
    | _ => k
  else if w = 4 then
    match c with
    | 0 => k
    | 1 => 7 - k
    | 2 => 0
    | 3 => 7
    | 4 => if k % 2 = 0 then k + 1 else k - 1
    | 5 => if k / 2 % 2 = 0 then k + 2 else k - 2
    | 6 => k % 4
    | _ => 4 + k % 4
  else k

/-- Negation of an element (R79). -/
def negElem (t : EType) (w x : Nat) : Nat :=
  if t.isFloat then (x + 2 ^ (w - 1)) % 2 ^ w else (2 ^ w - x) % 2 ^ w

/-- Absolute value of an element (R79). -/
def absElem (t : EType) (w x : Nat) : Nat :=
  if t.isFloat then x % 2 ^ (w - 1)
  else if t.isSigned && x.testBit (w - 1) then (2 ^ w - x) % 2 ^ w
  else x

/-- The value that a modifier forms (R78, R79). -/
def modify (t : EType) (code : BitVec 3) (x : W32) : W32 :=
  if code = 0 then x
  else
    let w := viewWidth t
    let c := code.toNat
    let selected := (List.range (32 / w)).map (fun k => elem w (modSel w c k) x)
    if w = 32 then
      match c with
      | 1 => mapElems w (negElem t w) x
      | 2 => mapElems w (absElem t w) x
      | 3 => mapElems w (fun e => negElem t w (absElem t w e)) x
      | _ => x
    else if w = 16 && 4 ≤ c then ofElems w (selected.map (negElem t w))
    else ofElems w selected

/-- The immediate of a vector form (R91, R118): the low w bits for every element; the encodings of R91 for floats. -/
def vectorImm (t : EType) (zero : Bool) (imm : BitVec 17) : W32 :=
  match t with
  | .f32 => imm.setWidth 32 <<< 15
  | .f16 | .bf16 => ofElems 16 [imm.toNat % 2 ^ 16, imm.toNat % 2 ^ 16]
  | _ =>
    let w := viewWidth t
    let x := if zero then imm.toNat else (imm.signExtend 32).toNat
    ofElems w (List.replicate (32 / w) (x % 2 ^ w))

/-! ### Words that compute lane by lane -/

/-- A vector word (R74, R128): in every active lane a value for `vd` with its flags; the flags are gathered in FPSTAT (R19)
and may trap (R21). -/
def lanesWord (p : Pred) (s : State) (d : VReg) (g : Wave → Nat → W32 × W32) : Host.Outcome State Fault Refusal :=
  runWord s (fun w =>
    let out := (lanesOf (w.active s.slotB p)).map (fun l => (l, g w l))
    let fl := out.map (fun e => (e.1, e.2.2))
    let w1 := (w.setLanes d.toNat (out.map (fun e => (e.1, e.2.1)))).orFlags (allFlags fl)
    .done (s.setWave s.cur w1) (flagRaises w fl))

/-- A vector word without flags. -/
def lanesWord0 (p : Pred) (s : State) (d : VReg) (g : Wave → Nat → W32) : Host.Outcome State Fault Refusal :=
  lanesWord p s d (fun w l => (g w l, 0))

/-- The encoding whose word has no effect at all (R75): PMASK = 0 with PINV = 1. -/
def Pred.dead (p : Pred) : Bool := p.inv && p.mask == 0

/-- A word that acts on whole registers even when active(S) is empty, except under the encoding of R75. -/
def wholeWord (p : Pred) (s : State) (f : Wave → W32 → Result) : Host.Outcome State Fault Refusal :=
  runWord s (fun w => if Pred.dead p then .done s [] else f w (w.active s.slotB p))

/-- A word that writes one bit of a mask register for each lane and clears the bits of the other lanes (R131). -/
def maskWord (p : Pred) (s : State) (md : MReg) (g : Wave → Nat → Bool × W32) : Host.Outcome State Fault Refusal :=
  wholeWord p s (fun w act =>
    let out := (lanesOf act).map (fun l => (l, g w l))
    let fl := out.map (fun e => (e.1, e.2.2))
    let bits := out.foldl (fun m e => if e.2.1 then m ||| laneBit e.1 else m) (0 : W32)
    .done (s.setWave s.cur ((w.setM md.toNat bits).orFlags (allFlags fl))) (flagRaises w fl))

/-- A scalar word (R117): one value for `sd`, when active(S) is not empty. -/
def scalarWord (p : Pred) (s : State) (d : SReg) (g : Wave → W64) : Host.Outcome State Fault Refusal :=
  onceWord p s (fun w => doneWave s (w.setS d.toNat (g w)))

/-- A mask word (R126). -/
def maskOnce (p : Pred) (s : State) (d : MReg) (g : Wave → W32) : Host.Outcome State Fault Refusal :=
  onceWord p s (fun w => doneWave s (w.setM d.toNat (g w)))

end Sys2Proof.Machine
end

