-- ==== Sys2Proof/Machine/Uses.lean ====
section
/-! DEFINITION. The registers that a word names in its encoded fields: what R56 compares with the open windows, what the
scoreboard of R57 holds back, which vector registers a footprint must hold (R42, R308), and whose poison a word meets
(R193). -/

namespace Sys2Proof.Machine

/-- The registers of a word. `vecs`: the vector register groups with the DETAIL of their field (R42). `own`: the meaning
itself looks at the poison of the vector lanes that it reads. `array`: the footprint DETAIL is that of R308. -/
structure Uses where
  reads : List Reg := []
  writes : List Reg := []
  vecs : List (Nat × Nat × Nat) := []
  own : Bool := false
  array : Bool := false
  /-- The registers of slot Y of a P2 word (R63, R87). -/
  ofY : Bool := false
  /-- The word acts on whole registers even when active(S) is empty. -/
  whole : Bool := false
  deriving DecidableEq, Repr

namespace Use

/-- `k` consecutive scalar or vector registers. -/
def ss (n : SReg) (k : Nat) : List Reg := (List.range k).map (fun j => .s (n.toNat + j))
def vs (n : VReg) (k : Nat) : List Reg := (List.range k).map (fun j => .v (n.toNat + j))
def s (n : SReg) : List Reg := [.s n.toNat]
def m (n : MReg) : List Reg := [.m n.toNat]
def t (n : TileReg) : List Reg := [.t n.toNat]
def a (n : FrameReg) : List Reg := [.a n.toNat]
def e (n : EdgeReg) : List Reg := [.e n.toNat]
/-- R56: the mask register that PMASK names. -/
def p (x : Pred) : List Reg := if x.mask = 0 then [] else m x.mask

def scalar (x : Pred) (reads : List Reg) (d : SReg) : Uses := { reads := p x ++ reads, writes := s d }
def mask (x : Pred) (reads : List Reg) (d : MReg) : Uses := { reads := p x ++ reads, writes := m d }
def only (x : Pred) (reads : List Reg) : Uses := { reads := p x ++ reads }
/-- The registers of a word that has waited and completes, for the window that it opens. -/
def waited (ir : W64) (reads writes : List Reg) : Uses := { reads := p (wordPred ir) ++ reads, writes := writes }
/-- R304: the registers of the compensated pairs of a stream. -/
def pairs (v : VReg) (pcount : Nat) : List Reg := vs v (2 * min pcount 128)
/-- A vector word with destination group `d` and source groups. -/
def vec (x : Pred) (d : VReg) (dn : Nat) (readsD : Bool) (av : VReg) (an : Nat) (bv : Option (VReg × Nat))
    (more : List Reg) : Uses :=
  { reads := p x ++ (if readsD then vs d dn else []) ++ vs av an ++ (bv.map (fun b => vs b.1 b.2)).getD [] ++ more
    writes := vs d dn
    vecs := [(2, d.toNat, dn), (3, av.toNat, an)] ++ (bv.map (fun b => (4, b.1.toNat, b.2))).toList }
def vun (o : VUn) : Uses := vec o.p o.d 1 false o.a 1 none []
def vbin (o : VBin) : Uses := vec o.p o.d 1 false o.a 1 (some (o.b, 1)) []
/-- A binary word that also reads its destination. -/
def vacc (o : VBin) : Uses := vec o.p o.d 1 true o.a 1 (some (o.b, 1)) []
def vimm (o : VImm) : Uses := vec o.p o.d 1 false o.a 1 none []
def vcmp (x : Pred) (d : MReg) (av : VReg) (bv : Option VReg) : Uses :=
  { reads := p x ++ vs av 1 ++ (bv.map (fun b => vs b 1)).getD []
    writes := m d
    vecs := [(3, av.toNat, 1)] ++ (bv.map (fun b => (4, b.toNat, 1))).toList
    whole := true }
def special (o : SpecOp) : Uses := vec o.p o.d 1 false o.a 1 none []

/-- Registers of one element of a memory form: two for .b64 in a vector form (R205). -/
def wide (w : Width) : Nat := if w = .b64 then 2 else 1
def vload (x : Pred) (d : VReg) (n : Nat) (sa : SReg) (vb : Option VReg) (sb : List Reg) : Uses :=
  { reads := p x ++ s sa ++ (vb.map (fun b => vs b 1)).getD [] ++ sb
    writes := vs d n
    vecs := [(2, d.toNat, n)] ++ (vb.map (fun b => (4, b.toNat, 1))).toList }
def vstore (x : Pred) (d : VReg) (n : Nat) (sa : SReg) (vb : Option VReg) (sb : List Reg) : Uses :=
  { reads := p x ++ vs d n ++ s sa ++ (vb.map (fun b => vs b 1)).getD [] ++ sb
    vecs := [(2, d.toNat, n)] ++ (vb.map (fun b => (4, b.toNat, 1))).toList }
/-- An atomic: it reads `r` and writes `w` registers from vd. -/
def vatomic (o : VMem) (r w : Nat) : Uses :=
  { reads := p o.p ++ vs o.d r ++ s o.sa ++ vs o.vb 1
    writes := vs o.d w
    vecs := [(2, o.d.toNat, max r w), (4, o.vb.toNat, 1)] }

/-- The register of a pair slot's field (R83). -/
def half (op : PairOp) (isY : Bool) (f : BitVec 10) : Reg :=
  match op.kind with
  | .scalar => .s (f.toNat % 64)
  | .mask => .m (f.toNat % 16)
  | .vecInt | .vecFloat => .v (pairVReg isY f).toNat
/-- One slot of a P2 word: d := d op s, or d := op s (R86). -/
def slotUse (op : PairOp) (h : Half) (isY : Bool) : Uses :=
  let d := half op isY h.d
  let r := half op isY h.s
  { reads := if op.unary then [r] else [d, r]
    writes := [d]
    vecs := match d, r with
      | .v x, .v y => [(2, x, 1), (3, y, 1)]
      | _, _ => [] }
def both (x y : Uses) : Uses :=
  { reads := x.reads ++ y.reads, writes := x.writes ++ y.writes, vecs := x.vecs ++ y.vecs }
/-- A P2 word whose slot X holds `op`. -/
def pair (op : PairOp) (ir : W64) : Uses :=
  both (slotUse op (halfX ir) false) (match codeY ir with
    | some y => slotUse y (halfY ir) true
    | none => {})

end Use

open Use in
/-- The registers that a word names. `ir` is the word itself, for the words whose operands stand in it. -/
def Instr.uses (ir : W64) : Instr → Uses
  | .smov o => scalar o.p (s o.a) o.d
  | .sli o => scalar o.p [] o.d
  | .slix o => scalar o.p (s o.d) o.d
  | .sadd o | .ssub o | .smul o | .smulh o | .sdiv o | .srem o | .sshl o | .sshr o | .ssra o | .smin o | .smax o =>
    scalar o.p (s o.a ++ s o.b) o.d
  | .smulI o | .sshlI o | .sshrI o | .ssraI o | .sminI o | .smaxI o | .saddi o => scalar o.p (s o.a) o.d
  | .sand o | .sor o | .sxor o => scalar o.p (s o.a ++ s o.b) o.d
  | .sandI o | .sorI o | .sxorI o => scalar o.p (s o.a) o.d
  | .scmp o => mask o.p (s o.a ++ s o.b) o.md
  | .scmpI o => mask o.p (s o.a) o.md
  | .ssel o => scalar o.p (s o.d ++ s o.a ++ s o.b) o.d
  | .spopc o | .sclz o => scalar o.p (s o.a) o.d
  | .mfsr x d _ => scalar x [] d
  | .mtsr x _ r => only x (s r)
  | .srdv x d v r => { scalar x (vs v 1 ++ s r) d with vecs := [(3, v.toNat, 1)], own := true }
  | .srdvI x d v _ => { scalar x (vs v 1) d with vecs := [(3, v.toNat, 1)], own := true }
  | .swrv x v r q => { reads := p x ++ s r ++ s q, writes := vs v 1, vecs := [(2, v.toNat, 1)] }
  | .swrvI x v r _ => { reads := p x ++ s r, writes := vs v 1, vecs := [(2, v.toNat, 1)] }
  | .mtm x d r => mask x (s r) d
  | .mfm x d r => scalar x (m r) d
  | .mand o | .mor o | .mxor o => mask o.p (m o.a ++ m o.b) o.d
  | .mnot x d r => mask x (m r) d
  | .mcnt x d r => scalar x (m r) d
  | .vmov o | .vpopc o | .vclz o | .vfcls o => vun o
  | .vfrnd o _ => vun o
  | .vli x _ d _ => { reads := p x, writes := vs d 1, vecs := [(2, d.toNat, 1)] }
  | .vadd o | .vsub o | .vmul o | .vmulh o | .vmin o | .vmax o | .vabsd o | .vand o | .vor o | .vxor o | .vshl o
  | .vshr o | .vsra o | .vadds o | .vsubs o | .vfadd o | .vfsub o | .vfmul o | .vfmin o | .vfmax o | .vscl o => vbin o
  | .vmad o | .vsel o | .vdot4 o | .vfma o | .vfdot2 o => vacc o
  | .vaddI o | .vsubI o | .vmulI o | .vminI o | .vmaxI o | .vandI o | .vorI o | .vxorI o | .vshlI o | .vshrI o
  | .vsraI o | .vaddsI o | .vsubsI o | .vfaddI o | .vfsubI o | .vfmulI o | .vfminI o | .vfmaxI o => vimm o
  | .vcmp o => vcmp o.p o.md o.a (some o.b)
  | .vcmpI o => vcmp o.p o.md o.a none
  | .vfcmp o => vcmp o.p o.md o.a (some o.b)
  | .vfcmpI o => vcmp o.p o.md o.a none
  | .vbfx o => vec o.p o.d 1 false o.a 1 none (s o.sb)
  | .vbfi o => vec o.p o.d 1 true o.a 1 none (s o.sb)
  | .vlane x d => { reads := p x, writes := vs d 1, vecs := [(2, d.toNat, 1)] }
  | .vadd2 o => vec o.p o.d 2 false o.a 2 (some (o.b, 1)) []
  | .vfma2 o => vec o.p o.d 2 true o.a 1 (some (o.b, 1)) []
  | .vrcp o | .vrsq o | .vsqrt o | .vexp2 o | .vlog2 o | .vtanh o | .vsigm o | .vsinpi o | .vcospi o => special o
  | .vcvt o => vec o.p o.d 1 (decide (o.dst.width < o.src.width)) o.a 1 none []
  | .vcvq4 x d v r => { vec x d 1 false v 1 none (s r) with whole := true }
  | .vdq4 x d v r => { vec x d 1 false v 1 none (s r) with own := true, whole := true }
  | .vsclI x _ d v _ => vec x d 1 false v 1 none []
  | .vgscl x d v => vec x d 1 false v 1 none []
  | .vdot16 x d v q => vec x d 1 true v 4 (some (q, 4)) []
  | .vrope3 x _ d v => vec x d 2 false v 7 none []
  | .vshuf o => { vbin o with own := true }
  | .vbcast o | .vrot o => { vec o.p o.d 1 false o.a 1 none (s o.sb) with own := true }
  | .vbcastI o | .vrotI o => { vec o.p o.d 1 false o.a 1 none [] with own := true }
  | .vred o | .vscan o => vec o.p o.d 1 false o.a 1 none []
  | .vsegred o | .vsegscan o => vec o.p o.d 1 false o.a 1 none (m o.mb)
  | .vconfl x _ d v => vcmp x d v none
  | .vdupadd x _ d v q => vec x d 1 false v 1 (some (q, 1)) []
  | .vbal x idx d v q =>
    { reads := p x ++ vs v 1, writes := m d ++ (if idx then vs q 1 else [])
      vecs := [(3, v.toNat, 1)] ++ (if idx then [(4, q.toNat, 1)] else [])
      whole := true }
  | .visect x _ d v q => { vec x d 1 false v 1 (some (q, 1)) [] with own := true }
  | .vmrg x _ _ _ d v q => { vec x d 1 false v 1 (some (q, 1)) [] with own := true }
  | .vcmpr x d v r | .vexpd x d v r => { vec x d 1 false v 1 none (m r) with own := true }
  | .vballot x d v => vcmp x d v none
  | .vany x _ d v => vcmp x d v none
  | .kvslot x _ d v r k =>
    { reads := p x ++ vs v 1 ++ ss r 2, writes := vs d 1 ++ m k, vecs := [(2, d.toNat, 1), (3, v.toNat, 1)]
      whole := true }
  | .vtriple x _ d v n => vec x d (n.toNat + 3) true v (n.toNat + 3) none []
  | .tokroute x _ d v r => vec x d 4 false v 1 none (ss r 2)
  | .vld o => vload o.p o.d (wide o.w) o.sa (some o.vb) []
  | .vldI o => vload o.p o.d (wide o.w) o.sa none []
  | .vst o => vstore o.p o.d (wide o.w) o.sa (some o.vb) []
  | .vstI o => vstore o.p o.d (wide o.w) o.sa none []
  | .vldb o => vload o.p o.d (wide o.w) o.sa none (s o.sb)
  | .vldbI o => vload o.p o.d (wide o.w) o.sa none []
  | .vstb o => vstore o.p o.d (wide o.w) o.sa none (s o.sb)
  | .vstbI o => vstore o.p o.d (wide o.w) o.sa none []
  | .sld o => scalar o.p (s o.sa ++ s o.sb) o.d
  | .sldI o => scalar o.p (s o.sa) o.d
  | .sst o => only o.p (s o.d ++ s o.sa ++ s o.sb)
  | .sstI o => only o.p (s o.d ++ s o.sa)
  | .vlds o => vload o.p o.d (wide o.w) o.sa (some o.vb) []
  | .vldsI o => vload o.p o.d (wide o.w) o.sa none []
  | .vsts o => vstore o.p o.d (wide o.w) o.sa (some o.vb) []
  | .vstsI o => vstore o.p o.d (wide o.w) o.sa none []
  | .vldq o => vload o.p o.d 4 o.sa (some o.vb) []
  | .vldqI o => vload o.p o.d 4 o.sa none []
  | .vstq o _ => vstore o.p o.d 4 o.sa (some o.vb) []
  | .vstqI o _ => vstore o.p o.d 4 o.sa none []
  | .splk x d r => scalar x (s r) d
  | .sptag x r q => only x (s r ++ s q)
  | .sptagInv x r => only x (s r)
  | .vatom o _ | .vatoms o _ => vatomic o (wide o.w) (wide o.w)
  | .satom o _ => scalar o.p (s o.d ++ s o.sa ++ s o.sb) o.d
  | .vcas o => vatomic o (2 * wide o.w) (wide o.w)
  | .scas o => scalar o.p (ss o.d 2 ++ s o.sa ++ s o.sb) o.d
  | .lfull o | .lfullTake o => scalar o.p (s o.sa) o.d
  | .sfull o => only o.p (s o.d ++ s o.sa)
  | .sfullNb o k => mask o.p (s o.d ++ s o.sa) k
  | .fempty o => scalar o.p (s o.sa) o.d
  | .fence x _ _ _ => only x []
  | .txbegin x _ _ => only x []
  | .forkpg x _ d r q => scalar x (s r ++ s q) d
  | .movtc x _ d r => { reads := p x ++ s r, writes := t d, array := true }
  | .movftc x _ d r => { scalar x (t r) d with array := true }
  | .tld x _ d r => { reads := p x ++ s r, writes := t d, array := true }
  | .tst x _ r q => { reads := p x ++ s r ++ t q, array := true }
  | .tzero x _ d => { reads := p x, writes := t d, array := true }
  | .tldv x _ d v r => { reads := p x ++ vs v 1 ++ s r, writes := t d, vecs := [(3, v.toNat, 1)], array := true }
  | .mma o | .mbin o _ =>
    { reads := p o.p ++ a o.ad ++ s o.sc ++ t o.ta ++ t o.tb, writes := a o.ad, array := true }
  | .mrule x _ _ _ r q => { reads := p x ++ s r ++ ss q 2, array := true }
  | .mrec o ac _ => { reads := p o.p ++ s o.sa ++ (ac.map a).getD [], writes := a o.ad, array := true }
  | .mbwd o h => { reads := p o.p ++ ss o.sa 2 ++ a h, writes := a o.ad, array := true }
  | .mepi x _ d f c => { reads := p x ++ a f ++ s c, writes := a d, array := true }
  | .azero x _ d => { reads := p x, writes := a d, array := true }
  | .ald x _ _ d r q => { reads := p x ++ a d ++ s r ++ s q, writes := a d, array := true }
  | .ast x _ _ r f q => { reads := p x ++ s r ++ a f ++ s q, array := true }
  | .amov x _ d f => { reads := p x ++ a f, writes := a d, array := true }
  | .acalloc x _ d r | .acallocNb x _ d r => { scalar x (s r) d with array := true }
  | .acfree x _ r => { only x (s r) with array := true }
  | .eld x _ _ d r => { reads := p x ++ s r, writes := e d, array := true }
  | .est x _ _ r q => { reads := p x ++ s r ++ e q, array := true }
  | .stexp x _ _ r q | .stimp x _ _ r q => { reads := p x ++ s r ++ ss q 3, own := true, array := true }
  | .cpy o _ | .cgath o _ | .cscat o _ | .cexp o _ | .cpack o _ => only o.p (ss o.sa 4)
  | .cpost x _ r => only x (ss r 4)
  | .cpostBind x _ r => only x (s r)
  | .waittkReg x r => only x (s r)
  | .tkintReg x _ r => only x (s r)
  | .chain x _ r q | .chwait x r q => only x (s r ++ s q)
  | .gjoin x d r => scalar x (s r) d
  | .gbarRole x r | .gbarRows x r => only x (s r)
  | .gbarRoleI x _ => only x []
  | .gbarRowsI x _ => only x []
  | .vsync x v => { only x (vs v 1) with vecs := [(3, v.toNat, 1)] }
  | .gelect x d r => mask x (s r) d
  | .gelectI x d _ => mask x [] d
  | .spawn x _ r | .spawnPipe x _ r | .qpushClose x _ r => only x (s r)
  | .qpush x _ r q => only x (s r ++ s q)
  | .qpop x _ d k r => { reads := p x ++ s r, writes := s d ++ m k }
  | .tmerge x _ d r | .swmv x _ d r => scalar x (s r) d
  | .tunmerge x _ r | .swage x _ r | .xcoll x _ r => only x (s r)
  | .swmig x _ d r q => scalar x (s r ++ s q) d
  | .xput x _ _ r => only x (ss r 3)
  | .xgetB64 x _ d r => scalar x (s r) d
  | .xgetBlk x _ r => only x (ss r 3)
  | .xsig x _ _ _ r q => only x (s r ++ s q)
  | .xwait x r => only x (s r)
  | .br x _ _ => only x []
  | .bru x _ => only x []
  | .jmp x _ => only x []
  | .jmpReg x r | .ret x r => only x (s r)
  | .call x d _ => scalar x [] d
  | .callReg x d r => scalar x (s r) d
  | .loop x d _ => only x (s d)
  | .tlbinv x r q => only x (s r ++ s q)
  | .wakeResume | .wakeKill => only (wordPred ir) [.s (ir.extractLsb' 21 6).toNat]
  | .nop | .txend | .txabort | .mwait | .waittk | .tkint | .uiret | .gleave | .gbar | .ckpt | .tdone | .exit | .trap
  | .brk | .eret | .halt => only (wordPred ir) []
  | .smovPair => pair .smov ir
  | .saddPair => pair .sadd ir
  | .ssubPair => pair .ssub ir
  | .smulPair => pair .smul ir
  | .sandPair => pair .sand ir
  | .sorPair => pair .sor ir
  | .sxorPair => pair .sxor ir
  | .sshlPair => pair .sshl ir
  | .sshrPair => pair .sshr ir
  | .ssraPair => pair .ssra ir
  | .sminPair => pair .smin ir
  | .smaxPair => pair .smax ir
  | .spopcPair => pair .spopc ir
  | .sclzPair => pair .sclz ir
  | .mandPair => pair .mand ir
  | .morPair => pair .mor ir
  | .mxorPair => pair .mxor ir
  | .mnotPair => pair .mnot ir
  | .vmovPair => pair .vmov ir
  | .vaddPair => pair .vadd ir
  | .vsubPair => pair .vsub ir
  | .vmulPair => pair .vmul ir
  | .vminPair => pair .vmin ir
  | .vmaxPair => pair .vmax ir
  | .vabsdPair => pair .vabsd ir
  | .vandPair => pair .vand ir
  | .vorPair => pair .vor ir
  | .vxorPair => pair .vxor ir
  | .vshlPair => pair .vshl ir
  | .vshrPair => pair .vshr ir
  | .vsraPair => pair .vsra ir
  | .vpopcPair => pair .vpopc ir
  | .vclzPair => pair .vclz ir
  | .vaddsPair => pair .vadds ir
  | .vsubsPair => pair .vsubs ir
  | .vfaddPair => pair .vfadd ir
  | .vfsubPair => pair .vfsub ir
  | .vfmulPair => pair .vfmul ir
  | .vfminPair => pair .vfmin ir
  | .vfmaxPair => pair .vfmax ir
  | .txConflictAbort | .arrayOpStart | .arrayOpCommit | .arrayResidueError | .arrayUncorrectable | .copyEntryStart
  | .copyCompletion | .userInterruptDelivery | .cardStart | .cardCompletion | .queueAutoClose | .mergeCompletion
  | .swmvCompletion | .automaticAgeing | .splitInstantAct | .fabricTargetWrite | .fabricTargetSignal | .fabricTargetRead
  | .xgetReply | .collectivePacket | .collectiveCompletion | .collectiveAbort | .flitCrcFail | .routeFailure
  | .laneFailure | .illegalWord | .longLatencyCompletion | .waveRelease | .groupHaltDelivery | .groupResume
  | .preemptionRequest | .compatSwapOut | .pageFaultServiced | .pageMapDeclined | .replayLimit | .copyDone | .copyFault
  | .cardDone | .trapRecord | .retired | .blocked | .arrayReplay | .eccCorrected | .eccPoison | .uint
  | .trapQueueRelease | .singleBitError | .uncorrectableError | .machineCheck | .patrolScrub | .pseudoChannelSparing
  | .corePairRetirement | .clockThrottle | .resetBoot | .dispatchRound | .recordReserving | .launchDrain
  | .interruptCountReached | .interruptWindowExpiry | .doorbell | .kill | .ctxctlLive | .ctxctlRetire | .registerWrite
  | .hostAccess | .setnode | .setroute | .bindjobBind | .bindjobUnbind | .windowExport | .windowUnexport | .extendmr
  | .attest | .readport | .fwstage | .fwactivate | .raisesvn | .fabricCommandCompletion | .linkTrained
  | .owlFirmwareReplaced => {}

/-- The registers that a word of a wave names: those of the word itself, and the pair registers of a stream, whose number
stands in a scalar (R304, R305). -/
def Instr.usesOf (w : Wave) (ir : W64) (i : Instr) : Uses :=
  let u := Instr.uses ir i
  let pcount (q : SReg) : Nat := bitsOf (w.getS q.toNat).toNat 47 40
  match i with
  | .stexp _ _ v _ q => { u with reads := u.reads ++ Use.pairs v (pcount q) }
  | .stimp _ _ v _ q => { u with writes := Use.pairs v (pcount q) }
  | _ => u

/-! ### The checks that every word meets at its issue -/

/-- R56: the word conflicts with a window of its slot. -/
def hazard (w : Wave) (b : Bool) (u : Uses) : Bool :=
  w.windows.any (fun x => x.slotB == b && x.left != 0 &&
    (u.reads.any (fun r => x.dests.contains r) || u.writes.any (fun r => x.dests.contains r || x.srcs.contains r)))

/-- R57: the word waits on the scoreboard for an instruction of the other slot. -/
def scoreboard (w : Wave) (b : Bool) (u : Uses) : Bool :=
  w.windows.any (fun x => x.slotB != b && !x.done &&
    (u.reads.any (fun r => x.dests.contains r) || u.writes.any (fun r => x.dests.contains r || x.srcs.contains r)))

/-- R42, R308: a vector register at or beyond the declared count. A word that has no effect, since its active(S) is empty
(R43, R75, R280), raises nothing for it. DEDUCED (log 25). -/
def footprintRaises (w : Wave) (u : Uses) (p : Pred) (act : W32) : List Raise :=
  if act == 0 && (!u.whole || (p.inv && p.mask == 0)) then []
  else (u.vecs.filter (fun e => decide (w.place.regs < e.2.1 + e.2.2))).map (fun e =>
    { cause := .footprintInvalid, lanes := act, detail := if u.array then 2 else e.1 })

/-- R193: the lanes of `mask` whose units of a vector register are poisoned. -/
def poisonedLanes (w : Wave) (v : Nat) (mask : W32) : W32 := maskOf (fun l => mask.getLsbD l && w.poison.has (32 * v + l))

/-- R193: POISON_CONSUMED for the poisoned lanes of a register that are read. -/
def poisonRaises (w : Wave) (v : Nat) (mask : W32) : List Raise :=
  let lanes := poisonedLanes w v mask
  if lanes = 0 then [] else [{ cause := .poisonConsumed, lanes := lanes }]

/-- The registers of a word, for each slot of a P2 word on its own (R87). -/
def Instr.slots (w : Wave) (ir : W64) (i : Instr) : List Uses :=
  if ir.extractLsb' 62 2 = 1 then
    match codeX ir, codeY ir with
    | some x, some y => [Use.slotUse x (halfX ir) false, { Use.slotUse y (halfY ir) true with ofY := true }]
    | _, _ => []
  else [Instr.usesOf w ir i]

/-- The causes that the issue of a word finds for some of its registers (R42, R56, R193). -/
def usesRaises (w : Wave) (b : Bool) (p : Pred) (u : Uses) : List Raise :=
  let act := w.active b p
  let hz : List Raise := if hazard w b u then [{ cause := .lookaheadHazard, lanes := act }] else []
  let regs : List Nat := if u.own || w.poison.isEmpty then [] else u.reads.filterMap (fun r => match r with
    | Reg.v n => some n
    | _ => none)
  (footprintRaises w u p act ++ hz ++ regs.flatMap (fun n => poisonRaises w n act)).map (fun r => { r with pairY := u.ofY })

/-- The causes that the issue of a word finds. -/
def issueRaises (w : Wave) (b : Bool) (ir : W64) (i : Instr) : List Raise :=
  (Instr.slots w ir i).flatMap (usesRaises w b (wordPred ir))

/-! ### Long-latency words (R55, R106) -/

/-- The wave after a long-latency word with lookahead LA completed its issue: its register writes, held by a window when LA
is not 0 (R55). A word with an empty active(S) and nothing to write has no effect, so it opens no window (R43, R75). -/
def holdWrites (s : State) (w : Wave) (la : BitVec 4) (u : Uses) (ws : List RegWrite) : Wave :=
  if ws.isEmpty && w.active s.slotB (wordPred s.ir) == 0 then w else w.openWindow s.slotB la u.writes u.reads ws

/-- A long-latency vector word: in every active lane, values for registers, with flags. -/
def longLanes (p : Pred) (la : BitVec 4) (s : State) (u : Uses) (g : Wave → Nat → List (Nat × W32) × W32) :
    Host.Outcome State Fault Refusal :=
  runWord s (fun w =>
    let out := (lanesOf (w.active s.slotB p)).map (fun l => (l, g w l))
    let fl := out.map (fun e => (e.1, e.2.2))
    let ws := out.flatMap (fun e => e.2.1.map (fun x => RegWrite.v x.1 e.1 x.2))
    .done (s.setWave s.cur ((holdWrites s w la u ws).orFlags (allFlags fl))) (flagRaises w fl))


end Sys2Proof.Machine
end

