-- ==== Sys2Proof/Machine/Scalar.lean ====
section
/-! DEFINITION. The scalar and mask instructions (06 R116-R127, 02 R45, 20 R430): opcodes 0x000-0x021. -/

namespace Sys2Proof.Machine

/-! ### The operations (R119-R122), shared with the pair slots -/

namespace Alu

def add (t : SType) (x y : W64) : W64 := SType.ext t (SType.int t x + SType.int t y)
def sub (t : SType) (x y : W64) : W64 := SType.ext t (SType.int t x - SType.int t y)
def mul (t : SType) (x y : W64) : W64 := SType.ext t (SType.int t x * SType.int t y)
/-- The high half of the exact product. -/
def mulh (t : SType) (x y : W64) : W64 := SType.ext t (SType.int t x * SType.int t y / 2 ^ SType.width t)
/-- The quotient toward zero (R120). -/
def div (t : SType) (x y : W64) : W64 := SType.ext t ((SType.int t x).tdiv (SType.int t y))
/-- The remainder, with the sign of x (R120). -/
def rem (t : SType) (x y : W64) : W64 := SType.ext t ((SType.int t x).tmod (SType.int t y))
def shl (t : SType) (x y : W64) : W64 :=
  SType.ext t (if SType.width t ≤ y.toNat then 0 else ((SType.nat t x * 2 ^ y.toNat : Nat) : Int))
def shr (t : SType) (x y : W64) : W64 :=
  SType.ext t (if SType.width t ≤ y.toNat then 0 else ((SType.nat t x / 2 ^ y.toNat : Nat) : Int))
/-- Shifts in copies of the top bit under either signedness. -/
def sra (t : SType) (x y : W64) : W64 :=
  let n := SType.nat t x
  let v : Int := if n.testBit (SType.width t - 1) then (n : Int) - 2 ^ SType.width t else n
  SType.ext t (v / 2 ^ (min y.toNat (SType.width t)))
def min (t : SType) (x y : W64) : W64 := SType.ext t (if SType.int t x ≤ SType.int t y then SType.int t x else SType.int t y)
def max (t : SType) (x y : W64) : W64 := SType.ext t (if SType.int t x ≤ SType.int t y then SType.int t y else SType.int t x)
def popc (t : SType) (x : W64) : W64 := SType.ext t (popcount (BitVec.ofNat (SType.width t) (SType.nat t x)))
def clz (t : SType) (x : W64) : W64 := SType.ext t ((SType.width t - bitLen (SType.nat t x) : Nat) : Int)

end Alu

/-- Conditions of R122 on exact values. -/
def Cond.holds (c : Cond) (x y : Int) : Bool :=
  match c with
  | .eq => x == y
  | .ne => x != y
  | .lt => decide (x < y)
  | .le => decide (x ≤ y)
  | .gt => decide (y < x)
  | .ge => decide (y ≤ x)

/-- A typed binary form. -/
def scalarBinT (o : SBinT) (s : State) (f : SType → W64 → W64 → W64) : Host.Outcome State Fault Refusal :=
  scalarWord o.p s o.d (fun w => f o.t (w.getS o.a.toNat) (w.getS o.b.toNat))
/-- A binary form over 64 bits. -/
def scalarBin (o : SBin) (s : State) (f : W64 → W64 → W64) : Host.Outcome State Fault Refusal :=
  scalarWord o.p s o.d (fun w => f (w.getS o.a.toNat) (w.getS o.b.toNat))
/-- A typed form with an immediate; `zero` says whether it is zero-extended (R118). -/
def scalarImmT (o : SImmT) (s : State) (zero : Bool) (f : SType → W64 → W64 → W64) : Host.Outcome State Fault Refusal :=
  scalarWord o.p s o.d (fun w => f o.t (w.getS o.a.toNat) (imm64 zero o.imm))
/-- A logical form with an immediate. -/
def scalarImm (o : SImm) (s : State) (f : W64 → W64 → W64) : Host.Outcome State Fault Refusal :=
  scalarWord o.p s o.d (fun w => f (w.getS o.a.toNat) (imm64 true o.imm))
def scalarUnT (o : SUnT) (s : State) (f : SType → W64 → W64) : Host.Outcome State Fault Refusal :=
  scalarWord o.p s o.d (fun w => f o.t (w.getS o.a.toNat))

/-! ### Arithmetic and logic (R119) -/

/-- NOP (R127). -/
def execNop (s : State) : Host.Outcome State Fault Refusal := runWord s (fun _ => .done s [])

/-- SMOV. -/
def execSmov (o : SUn) (s : State) : Host.Outcome State Fault Refusal := scalarWord o.p s o.d (fun w => w.getS o.a.toNat)

/-- SLI (R121). -/
def execSli (o : SWide) (s : State) : Host.Outcome State Fault Refusal := scalarWord o.p s o.d (fun _ => o.imm.signExtend 64)

/-- SLIX (R121): the old sd is read first. -/
def execSlix (o : SWide) (s : State) : Host.Outcome State Fault Refusal :=
  scalarWord o.p s o.d (fun w => (w.getS o.d.toNat <<< 28) ||| o.imm.setWidth 64)

def execSadd (o : SBinT) (s : State) : Host.Outcome State Fault Refusal := scalarBinT o s Alu.add
def execSsub (o : SBinT) (s : State) : Host.Outcome State Fault Refusal := scalarBinT o s Alu.sub
def execSmul (o : SBinT) (s : State) : Host.Outcome State Fault Refusal := scalarBinT o s Alu.mul
def execSmulI (o : SImmT) (s : State) : Host.Outcome State Fault Refusal := scalarImmT o s false Alu.mul
def execSmulh (o : SBinT) (s : State) : Host.Outcome State Fault Refusal := scalarBinT o s Alu.mulh

/-- R120: division; y = 0 raises INT_DIVIDE_ZERO. -/
def divideWord (o : SBinT) (s : State) (f : SType → W64 → W64 → W64) : Host.Outcome State Fault Refusal :=
  onceWord o.p s (fun w =>
    if SType.nat o.t (w.getS o.b.toNat) = 0 then raiseActive s w o.p .intDivideZero 0
    else doneWave s (w.setS o.d.toNat (f o.t (w.getS o.a.toNat) (w.getS o.b.toNat))))

def execSdiv (o : SBinT) (s : State) : Host.Outcome State Fault Refusal := divideWord o s Alu.div
def execSrem (o : SBinT) (s : State) : Host.Outcome State Fault Refusal := divideWord o s Alu.rem

def execSand (o : SBin) (s : State) : Host.Outcome State Fault Refusal := scalarBin o s (· &&& ·)
def execSandI (o : SImm) (s : State) : Host.Outcome State Fault Refusal := scalarImm o s (· &&& ·)
def execSor (o : SBin) (s : State) : Host.Outcome State Fault Refusal := scalarBin o s (· ||| ·)
def execSorI (o : SImm) (s : State) : Host.Outcome State Fault Refusal := scalarImm o s (· ||| ·)
def execSxor (o : SBin) (s : State) : Host.Outcome State Fault Refusal := scalarBin o s (· ^^^ ·)
def execSxorI (o : SImm) (s : State) : Host.Outcome State Fault Refusal := scalarImm o s (· ^^^ ·)
def execSshl (o : SBinT) (s : State) : Host.Outcome State Fault Refusal := scalarBinT o s Alu.shl
def execSshlI (o : SImmT) (s : State) : Host.Outcome State Fault Refusal := scalarImmT o s true Alu.shl
def execSshr (o : SBinT) (s : State) : Host.Outcome State Fault Refusal := scalarBinT o s Alu.shr
def execSshrI (o : SImmT) (s : State) : Host.Outcome State Fault Refusal := scalarImmT o s true Alu.shr
def execSsra (o : SBinT) (s : State) : Host.Outcome State Fault Refusal := scalarBinT o s Alu.sra
def execSsraI (o : SImmT) (s : State) : Host.Outcome State Fault Refusal := scalarImmT o s true Alu.sra
def execSmin (o : SBinT) (s : State) : Host.Outcome State Fault Refusal := scalarBinT o s Alu.min
def execSminI (o : SImmT) (s : State) : Host.Outcome State Fault Refusal := scalarImmT o s false Alu.min
def execSmax (o : SBinT) (s : State) : Host.Outcome State Fault Refusal := scalarBinT o s Alu.max
def execSmaxI (o : SImmT) (s : State) : Host.Outcome State Fault Refusal := scalarImmT o s false Alu.max

/-- SCMP (R122): all lanes of md hold the condition. -/
def execScmp (o : SCmp) (s : State) : Host.Outcome State Fault Refusal :=
  maskOnce o.p s o.md (fun w =>
    if Cond.holds o.c (SType.int o.t (w.getS o.a.toNat)) (SType.int o.t (w.getS o.b.toNat)) then allLanes else 0)
def execScmpI (o : SCmpI) (s : State) : Host.Outcome State Fault Refusal :=
  maskOnce o.p s o.md (fun w =>
    if Cond.holds o.c (SType.int o.t (w.getS o.a.toNat)) (SType.int o.t (imm64 false o.imm)) then allLanes else 0)

/-- SSEL (R123): the old sd chooses. -/
def execSsel (o : SBin) (s : State) : Host.Outcome State Fault Refusal :=
  scalarWord o.p s o.d (fun w => if w.getS o.d.toNat ≠ 0 then w.getS o.a.toNat else w.getS o.b.toNat)

def execSpopc (o : SUnT) (s : State) : Host.Outcome State Fault Refusal := scalarUnT o s Alu.popc
def execSclz (o : SUnT) (s : State) : Host.Outcome State Fault Refusal := scalarUnT o s Alu.clz
def execSaddi (o : SImmT) (s : State) : Host.Outcome State Fault Refusal := scalarImmT o s false Alu.add

/-! ### System registers (R45, R125, R430) -/

/-- The value of a system register; none for an index that is not allocated. -/
def readSysReg (s : State) (w : Wave) (idx : Nat) : Option W64 :=
  match idx with
  | 0x00 => some w.wid
  | 0x01 => some w.sys.gkey
  | 0x02 => some w.sys.role
  | 0x03 => some (w.sys.fpctl.setWidth 64)
  | 0x04 => some (w.sys.fpstat.setWidth 64)
  | 0x05 => some w.sys.bound
  | 0x06 => some w.sys.txstat
  | 0x07 => some w.sys.uivec
  | 0x08 => some w.sys.ropepart
  | 0x09 => some w.sys.priv
  | 0x0A => some w.slotStat
  | 0x0B => some (w.exited.setWidth 64)
  | 0x0C => some (s.core w.place.core).clock
  | 0x0D => some (w.sys.launch.setWidth 64)
  | 0x80 => some w.sys.sysvec
  | 0x81 => some 0
  | 0x82 => some w.sys.ctxsel
  | 0x83 => some (if w.sys.inHandler then 1 else 0)
  | _ => none

/-- Writes a system register of the current wave; a write to a read-only one is ignored (R5). -/
def writeSysReg (s : State) (w : Wave) (idx : Nat) (x : W64) : State :=
  let put (f : SysRegs → SysRegs) : State := s.setWave s.cur { w with sys := f w.sys }
  match idx with
  | 0x02 =>
    (put (fun r => { r with role := x &&& 7 })).updGroupOf w
      (fun g => g.updMember s.cur (fun m => { m with role := (x &&& 7).toNat }))
  | 0x03 => put (fun r => { r with fpctl := x.setWidth 32 &&& 0x0007_03FF })
  | 0x04 => put (fun r => { r with fpstat := r.fpstat &&& ~~~ x.setWidth 32 })
  | 0x05 => put (fun r => { r with bound := x })
  | 0x07 => put (fun r => { r with uivec := x })
  | 0x08 => put (fun r => { r with ropepart := x &&& 0xFF_FFFF })
  | 0x80 => put (fun r => { r with sysvec := x })
  | 0x82 => put (fun r => { r with ctxsel := x &&& 0xFF })
  | _ => s

/-- The causes of an index (R45, R110): it is reserved for system mode, or not allocated; `field` is its DETAIL. -/
def sysRegRaise (w : Wave) (idx field : Nat) (act : W32) : Option Raise :=
  if 0x80 ≤ idx ∧ w.sysMode = false then some { cause := .privileged, lanes := act, detail := 2 }
  else if idx < 0x0E ∨ (0x80 ≤ idx ∧ idx < 0x84) then none
  else some { cause := .illegalField, lanes := act, detail := field }

/-- MFSR. -/
def execMfsr (p : Pred) (d : SReg) (idx : BitVec 8) (s : State) : Host.Outcome State Fault Refusal :=
  runWord s (fun w =>
    let act := w.active s.slotB p
    match sysRegRaise w idx.toNat 3 act with
    | some r => .done s [r]
    | none => if act = 0 then .done s [] else doneWave s (w.setS d.toNat ((readSysReg s w idx.toNat).getD 0)))

/-! ### Lanes and masks (R124, R126) -/

/-- Reading lane `n` of a vector register into a scalar; a poisoned unit raises POISON_CONSUMED (R193). -/
def readLane (p : Pred) (d : SReg) (va : VReg) (n : Wave → Nat) (s : State) : Host.Outcome State Fault Refusal :=
  onceWord p s (fun w =>
    if w.poison.has (32 * va.toNat + n w) then raiseLanes s .poisonConsumed (laneBit (n w)) 0 0
    else doneWave s (w.setS d.toNat ((w.getV va.toNat (n w)).setWidth 64)))

def execSrdv (p : Pred) (d : SReg) (va : VReg) (sb : SReg) (s : State) : Host.Outcome State Fault Refusal :=
  readLane p d va (fun w => (w.getS sb.toNat).toNat % 32) s
def execSrdvI (p : Pred) (d : SReg) (va : VReg) (n : BitVec 5) (s : State) : Host.Outcome State Fault Refusal :=
  readLane p d va (fun _ => n.toNat) s
def execSwrv (p : Pred) (vd : VReg) (sa : SReg) (sb : SReg) (s : State) : Host.Outcome State Fault Refusal :=
  onceWord p s (fun w => doneWave s (w.setV vd.toNat ((w.getS sb.toNat).toNat % 32) ((w.getS sa.toNat).setWidth 32)))
def execSwrvI (p : Pred) (vd : VReg) (sa : SReg) (n : BitVec 5) (s : State) : Host.Outcome State Fault Refusal :=
  onceWord p s (fun w => doneWave s (w.setV vd.toNat n.toNat ((w.getS sa.toNat).setWidth 32)))

def execMtm (p : Pred) (md : MReg) (sa : SReg) (s : State) : Host.Outcome State Fault Refusal :=
  maskOnce p s md (fun w => (w.getS sa.toNat).setWidth 32)
def execMfm (p : Pred) (d : SReg) (ma : MReg) (s : State) : Host.Outcome State Fault Refusal :=
  scalarWord p s d (fun w => (w.getM ma.toNat).setWidth 64)
def execMand (o : MBin) (s : State) : Host.Outcome State Fault Refusal :=
  maskOnce o.p s o.d (fun w => w.getM o.a.toNat &&& w.getM o.b.toNat)
def execMor (o : MBin) (s : State) : Host.Outcome State Fault Refusal :=
  maskOnce o.p s o.d (fun w => w.getM o.a.toNat ||| w.getM o.b.toNat)
def execMxor (o : MBin) (s : State) : Host.Outcome State Fault Refusal :=
  maskOnce o.p s o.d (fun w => w.getM o.a.toNat ^^^ w.getM o.b.toNat)
def execMnot (p : Pred) (md : MReg) (ma : MReg) (s : State) : Host.Outcome State Fault Refusal :=
  maskOnce p s md (fun w => ~~~ (w.getM ma.toNat))
def execMcnt (p : Pred) (d : SReg) (ma : MReg) (s : State) : Host.Outcome State Fault Refusal :=
  scalarWord p s d (fun w => BitVec.ofNat 64 (popcount (w.getM ma.toNat)))

end Sys2Proof.Machine
end

