-- ==== Sys2Proof/Machine/VecInt.lean ====
section
/-! DEFINITION. The vector integer instructions (06 R128-R135): opcodes 0x080-0x099. -/

namespace Sys2Proof.Machine

/-! ### Element operations (R129, R130), shared with the pair slots -/

namespace Elt

def add (t : EType) (x y : Nat) : Nat := (x + y) % 2 ^ viewWidth t
def sub (t : EType) (x y : Nat) : Nat := (x + 2 ^ viewWidth t - y) % 2 ^ viewWidth t
def mul (t : EType) (x y : Nat) : Nat := x * y % 2 ^ viewWidth t
def mulh (t : EType) (x y : Nat) : Nat := intBits t.width (t.intVal x * t.intVal y / 2 ^ t.width)
def min (t : EType) (x y : Nat) : Nat := if t.intVal x ≤ t.intVal y then x else y
def max (t : EType) (x y : Nat) : Nat := if t.intVal x ≤ t.intVal y then y else x
def absd (t : EType) (x y : Nat) : Nat := intBits t.width ((t.intVal x - t.intVal y).natAbs : Int)
def shl (t : EType) (x n : Nat) : Nat := if t.width ≤ n then 0 else x * 2 ^ n % 2 ^ t.width
def shr (t : EType) (x n : Nat) : Nat := if t.width ≤ n then 0 else x / 2 ^ n
/-- Fills with the top bit under either signedness. -/
def sra (t : EType) (x n : Nat) : Nat :=
  let v : Int := if x.testBit (t.width - 1) then (x : Int) - 2 ^ t.width else x
  intBits t.width (v / 2 ^ (Nat.min n t.width))
def popc (t : EType) (x : Nat) : Nat := popcount (BitVec.ofNat t.width x)
def clz (t : EType) (x : Nat) : Nat := t.width - bitLen x
/-- Clamped sum and difference with SAT (R10). -/
def adds (t : EType) (x y : Nat) : Nat × Bool :=
  let c := t.clamp (t.intVal x + t.intVal y)
  (intBits t.width c.1, c.2)
def subs (t : EType) (x y : Nat) : Nat × Bool :=
  let c := t.clamp (t.intVal x - t.intVal y)
  (intBits t.width c.1, c.2)

end Elt

/-- A register of saturated elements with SAT. -/
def satElems (t : EType) (f : EType → Nat → Nat → Nat × Bool) (x y : W32) : W32 × W32 :=
  let rs := List.zipWith (f t) (elems t.width x) (elems t.width y)
  (ofElems t.width (rs.map (·.1)), if rs.any (·.2) then flagSAT else 0)

/-- A binary form with modifiers. -/
def vecBin (o : VBin) (s : State) (f : EType → Nat → Nat → Nat) : Host.Outcome State Fault Refusal :=
  lanesWord0 o.p s o.d (fun w l =>
    zipElems (viewWidth o.t) (f o.t) (modify o.t o.ma (w.getV o.a.toNat l)) (modify o.t o.mb (w.getV o.b.toNat l)))

/-- A form with an immediate (R118). -/
def vecImm (o : VImm) (s : State) (zero : Bool) (f : EType → Nat → Nat → Nat) : Host.Outcome State Fault Refusal :=
  lanesWord0 o.p s o.d (fun w l =>
    zipElems (viewWidth o.t) (f o.t) (w.getV o.a.toNat l) (vectorImm o.t zero o.imm))

/-- A shift by the whole zero-extended immediate (R130). -/
def vecShiftImm (o : VImm) (s : State) (f : EType → Nat → Nat → Nat) : Host.Outcome State Fault Refusal :=
  lanesWord0 o.p s o.d (fun w l => mapElems o.t.width (fun x => f o.t x o.imm.toNat) (w.getV o.a.toNat l))

def vecUn (o : VUn) (s : State) (f : EType → Nat → Nat) : Host.Outcome State Fault Refusal :=
  lanesWord0 o.p s o.d (fun w l => mapElems (viewWidth o.t) (f o.t) (modify o.t o.ma (w.getV o.a.toNat l)))

/-! ### The instructions -/

def execVmov (o : VUn) (s : State) : Host.Outcome State Fault Refusal := vecUn o s (fun _ x => x)

/-- VLI (R135). -/
def execVli (p : Pred) (t : EType) (d : VReg) (imm : BitVec 17) (s : State) : Host.Outcome State Fault Refusal :=
  lanesWord0 p s d (fun _ _ => vectorImm t false imm)

def execVadd (o : VBin) (s : State) : Host.Outcome State Fault Refusal := vecBin o s Elt.add
def execVaddI (o : VImm) (s : State) : Host.Outcome State Fault Refusal := vecImm o s false Elt.add
def execVsub (o : VBin) (s : State) : Host.Outcome State Fault Refusal := vecBin o s Elt.sub
def execVsubI (o : VImm) (s : State) : Host.Outcome State Fault Refusal := vecImm o s false Elt.sub
def execVmul (o : VBin) (s : State) : Host.Outcome State Fault Refusal := vecBin o s Elt.mul
def execVmulI (o : VImm) (s : State) : Host.Outcome State Fault Refusal := vecImm o s false Elt.mul
def execVmulh (o : VBin) (s : State) : Host.Outcome State Fault Refusal := vecBin o s Elt.mulh

/-- VMAD: the old element of vd is the addend. -/
def execVmad (o : VBin) (s : State) : Host.Outcome State Fault Refusal :=
  lanesWord0 o.p s o.d (fun w l =>
    zipElems3 (viewWidth o.t) (fun d x y => (d + x * y) % 2 ^ viewWidth o.t) (w.getV o.d.toNat l)
      (modify o.t o.ma (w.getV o.a.toNat l)) (modify o.t o.mb (w.getV o.b.toNat l)))

def execVmin (o : VBin) (s : State) : Host.Outcome State Fault Refusal := vecBin o s Elt.min
def execVminI (o : VImm) (s : State) : Host.Outcome State Fault Refusal := vecImm o s false Elt.min
def execVmax (o : VBin) (s : State) : Host.Outcome State Fault Refusal := vecBin o s Elt.max
def execVmaxI (o : VImm) (s : State) : Host.Outcome State Fault Refusal := vecImm o s false Elt.max
def execVabsd (o : VBin) (s : State) : Host.Outcome State Fault Refusal := vecBin o s Elt.absd
def execVand (o : VBin) (s : State) : Host.Outcome State Fault Refusal := vecBin o s (fun _ x y => x &&& y)
def execVandI (o : VImm) (s : State) : Host.Outcome State Fault Refusal := vecImm o s true (fun _ x y => x &&& y)
def execVor (o : VBin) (s : State) : Host.Outcome State Fault Refusal := vecBin o s (fun _ x y => x ||| y)
def execVorI (o : VImm) (s : State) : Host.Outcome State Fault Refusal := vecImm o s true (fun _ x y => x ||| y)
def execVxor (o : VBin) (s : State) : Host.Outcome State Fault Refusal := vecBin o s (fun _ x y => x ^^^ y)
def execVxorI (o : VImm) (s : State) : Host.Outcome State Fault Refusal := vecImm o s true (fun _ x y => x ^^^ y)
def execVshl (o : VBin) (s : State) : Host.Outcome State Fault Refusal := vecBin o s Elt.shl
def execVshlI (o : VImm) (s : State) : Host.Outcome State Fault Refusal := vecShiftImm o s Elt.shl
def execVshr (o : VBin) (s : State) : Host.Outcome State Fault Refusal := vecBin o s Elt.shr
def execVshrI (o : VImm) (s : State) : Host.Outcome State Fault Refusal := vecShiftImm o s Elt.shr
def execVsra (o : VBin) (s : State) : Host.Outcome State Fault Refusal := vecBin o s Elt.sra
def execVsraI (o : VImm) (s : State) : Host.Outcome State Fault Refusal := vecShiftImm o s Elt.sra
def execVpopc (o : VUn) (s : State) : Host.Outcome State Fault Refusal := vecUn o s Elt.popc
def execVclz (o : VUn) (s : State) : Host.Outcome State Fault Refusal := vecUn o s Elt.clz

/-- VCMP (R131). -/
def execVcmp (o : VCmp) (s : State) : Host.Outcome State Fault Refusal :=
  maskWord o.p s o.md (fun w l =>
    (Cond.holds o.c (o.t.intVal (modify o.t o.ma (w.getV o.a.toNat l)).toNat)
      (o.t.intVal (modify o.t o.mb (w.getV o.b.toNat l)).toNat), 0))
def execVcmpI (o : VCmpI) (s : State) : Host.Outcome State Fault Refusal :=
  maskWord o.p s o.md (fun w l =>
    (Cond.holds o.c (o.t.intVal (w.getV o.a.toNat l).toNat) (o.t.intVal (o.imm.signExtend 32).toNat), 0))

/-- VSEL (R132): the old element of vd chooses; under .b1 bit by bit. -/
def execVsel (o : VBin) (s : State) : Host.Outcome State Fault Refusal :=
  lanesWord0 o.p s o.d (fun w l =>
    let d := w.getV o.d.toNat l
    let a := modify o.t o.ma (w.getV o.a.toNat l)
    let b := modify o.t o.mb (w.getV o.b.toNat l)
    if o.t = .b1 then (d &&& a) ||| (~~~ d &&& b)
    else zipElems3 (viewWidth o.t) (fun c x y => if c = 0 then y else x) d a b)

/-- VADDS and VSUBS. -/
def vecSat (o : VBin) (s : State) (f : EType → Nat → Nat → Nat × Bool) : Host.Outcome State Fault Refusal :=
  lanesWord o.p s o.d (fun w l =>
    satElems o.t f (modify o.t o.ma (w.getV o.a.toNat l)) (modify o.t o.mb (w.getV o.b.toNat l)))
def vecSatI (o : VImm) (s : State) (f : EType → Nat → Nat → Nat × Bool) : Host.Outcome State Fault Refusal :=
  lanesWord o.p s o.d (fun w l => satElems o.t f (w.getV o.a.toNat l) (vectorImm o.t false o.imm))

def execVadds (o : VBin) (s : State) : Host.Outcome State Fault Refusal := vecSat o s Elt.adds
def execVaddsI (o : VImm) (s : State) : Host.Outcome State Fault Refusal := vecSatI o s Elt.adds
def execVsubs (o : VBin) (s : State) : Host.Outcome State Fault Refusal := vecSat o s Elt.subs
def execVsubsI (o : VImm) (s : State) : Host.Outcome State Fault Refusal := vecSatI o s Elt.subs

/-- VDOT4 (R133). -/
def execVdot4 (o : VBin) (s : State) : Host.Outcome State Fault Refusal :=
  lanesWord0 o.p s o.d (fun w l =>
    let xs := elems 8 (modify o.t o.ma (w.getV o.a.toNat l))
    let ys := elems 8 (modify o.t o.mb (w.getV o.b.toNat l))
    let sum := (List.zipWith (fun x y => o.t.intVal x * o.t.intVal y) xs ys).foldl (· + ·) (0 : Int)
    w.getV o.d.toNat l + BitVec.ofInt 32 sum)

/-- Offset and length of a field (R134). -/
def fieldSpec (w : Wave) (sb : SReg) : Nat × Nat :=
  let x := (w.getS sb.toNat).toNat
  (x % 64, Nat.min 32 (bitsOf x 13 8))

def execVbfx (o : VField) (s : State) : Host.Outcome State Fault Refusal :=
  lanesWord0 o.p s o.d (fun w l =>
    let (off, n) := fieldSpec w o.sb
    let f := (w.getV o.a.toNat l).toNat / 2 ^ off % 2 ^ n
    if n = 0 then 0
    else if o.t = .i32 && f.testBit (n - 1) then BitVec.ofInt 32 ((f : Int) - 2 ^ n)
    else BitVec.ofNat 32 f)

def execVbfi (o : VField) (s : State) : Host.Outcome State Fault Refusal :=
  lanesWord0 o.p s o.d (fun w l =>
    let (off, n) := fieldSpec w o.sb
    let mask := BitVec.ofNat 32 ((2 ^ n - 1) * 2 ^ off)
    let a := BitVec.ofNat 32 ((w.getV o.a.toNat l).toNat * 2 ^ off)
    (w.getV o.d.toNat l &&& ~~~ mask) ||| (a &&& mask))

/-- VLANE (R135). -/
def execVlane (p : Pred) (d : VReg) (s : State) : Host.Outcome State Fault Refusal :=
  lanesWord0 p s d (fun _ l => BitVec.ofNat 32 l)

end Sys2Proof.Machine
end

