-- ==== Sys2Proof/Machine/VecFloat.lean ====
section
/-! DEFINITION. The vector float instructions (07 R144-R159): opcodes 0x100-0x11B. -/

namespace Sys2Proof.Machine

/-! ### Element operations (R145), shared with the pair slots -/

namespace Flt

/-- Applies an operation to the elements of two registers, with all flags. -/
def zip (t : EType) (f : Nat → Nat → Nat × W32) (x y : W32) : W32 × W32 :=
  let rs := List.zipWith f (elems t.width x) (elems t.width y)
  (ofElems t.width (rs.map (·.1)), rs.foldl (fun m e => m ||| e.2) 0)

def map (t : EType) (f : Nat → Nat × W32) (x : W32) : W32 × W32 :=
  let rs := (elems t.width x).map f
  (ofElems t.width (rs.map (·.1)), rs.foldl (fun m e => m ||| e.2) 0)

def add (t : EType) (rm : Rm) (ftz : Bool) (x y : Nat) : Nat × W32 :=
  deliver t.fmt rm ftz (FVal.add rm (t.fmt.decodeFtz ftz x) (t.fmt.decodeFtz ftz y))
def sub (t : EType) (rm : Rm) (ftz : Bool) (x y : Nat) : Nat × W32 :=
  deliver t.fmt rm ftz (FVal.add rm (t.fmt.decodeFtz ftz x) (t.fmt.decodeFtz ftz y).neg)
def mul (t : EType) (rm : Rm) (ftz : Bool) (x y : Nat) : Nat × W32 :=
  deliver t.fmt rm ftz (FVal.mul (t.fmt.decodeFtz ftz x) (t.fmt.decodeFtz ftz y))
def fma (t : EType) (rm : Rm) (ftz : Bool) (x y d : Nat) : Nat × W32 :=
  deliver t.fmt rm ftz (FVal.fma rm (t.fmt.decodeFtz ftz x) (t.fmt.decodeFtz ftz y) (t.fmt.decodeFtz ftz d))
def min (t : EType) (_ : Rm) (ftz : Bool) (x y : Nat) : Nat × W32 := minMax t.fmt false ftz x y
def max (t : EType) (_ : Rm) (ftz : Bool) (x y : Nat) : Nat × W32 := minMax t.fmt true ftz x y

end Flt

/-- A binary float form (R144). -/
def fltBin (o : VBin) (s : State) (f : EType → Rm → Bool → Nat → Nat → Nat × W32) : Host.Outcome State Fault Refusal :=
  lanesWord o.p s o.d (fun w l =>
    Flt.zip o.t (f o.t w.rm w.ftz) (modify o.t o.ma (w.getV o.a.toNat l)) (modify o.t o.mb (w.getV o.b.toNat l)))

/-- A float form with an immediate (R91). -/
def fltImm (o : VImm) (s : State) (f : EType → Rm → Bool → Nat → Nat → Nat × W32) : Host.Outcome State Fault Refusal :=
  lanesWord o.p s o.d (fun w l => Flt.zip o.t (f o.t w.rm w.ftz) (w.getV o.a.toNat l) (vectorImm o.t false o.imm))

def execVfadd (o : VBin) (s : State) : Host.Outcome State Fault Refusal := fltBin o s Flt.add
def execVfaddI (o : VImm) (s : State) : Host.Outcome State Fault Refusal := fltImm o s Flt.add
def execVfsub (o : VBin) (s : State) : Host.Outcome State Fault Refusal := fltBin o s Flt.sub
def execVfsubI (o : VImm) (s : State) : Host.Outcome State Fault Refusal := fltImm o s Flt.sub
def execVfmul (o : VBin) (s : State) : Host.Outcome State Fault Refusal := fltBin o s Flt.mul
def execVfmulI (o : VImm) (s : State) : Host.Outcome State Fault Refusal := fltImm o s Flt.mul
def execVfmin (o : VBin) (s : State) : Host.Outcome State Fault Refusal := fltBin o s Flt.min
def execVfminI (o : VImm) (s : State) : Host.Outcome State Fault Refusal := fltImm o s Flt.min
def execVfmax (o : VBin) (s : State) : Host.Outcome State Fault Refusal := fltBin o s Flt.max
def execVfmaxI (o : VImm) (s : State) : Host.Outcome State Fault Refusal := fltImm o s Flt.max

/-- VFMA: the old element of vd is the addend (R145). -/
def execVfma (o : VBin) (s : State) : Host.Outcome State Fault Refusal :=
  lanesWord o.p s o.d (fun w l =>
    let a := modify o.t o.ma (w.getV o.a.toNat l)
    let b := modify o.t o.mb (w.getV o.b.toNat l)
    let d := w.getV o.d.toNat l
    let rs := (List.range (32 / o.t.width)).map (fun k =>
      Flt.fma o.t w.rm w.ftz (elem o.t.width k a) (elem o.t.width k b) (elem o.t.width k d))
    (ofElems o.t.width (rs.map (·.1)), rs.foldl (fun m e => m ||| e.2) 0))

/-! ### Comparison and classification -/

/-- A condition of R146 on two values, and whether it sets IV. -/
def FCond.holds (c : FCond) (x y : FVal) : Bool × Bool :=
  let nan := x.isNan || y.isNan
  let snan := x.isSnan || y.isSnan
  let r := FVal.cmp x y
  match c with
  | .eq => (!nan && r == 0, snan)
  | .ne => (nan || r != 0, snan)
  | .lt => (!nan && decide (r < 0), nan)
  | .le => (!nan && decide (r ≤ 0), nan)
  | .gt => (!nan && decide (0 < r), nan)
  | .ge => (!nan && decide (0 ≤ r), nan)
  | .un => (nan, snan)
  | .ord => (!nan, snan)

/-- Element 0 of A and B (R146). -/
def fcmpLane (t : EType) (c : FCond) (ftz : Bool) (a b : W32) : Bool × W32 :=
  let r := FCond.holds c (t.fmt.decodeFtz ftz (elem t.width 0 a)) (t.fmt.decodeFtz ftz (elem t.width 0 b))
  (r.1, ivIf r.2)

def execVfcmp (o : VFCmp) (s : State) : Host.Outcome State Fault Refusal :=
  maskWord o.p s o.md (fun w l =>
    fcmpLane o.t o.c w.ftz (modify o.t o.ma (w.getV o.a.toNat l)) (modify o.t o.mb (w.getV o.b.toNat l)))
def execVfcmpI (o : VFCmpI) (s : State) : Host.Outcome State Fault Refusal :=
  maskWord o.p s o.md (fun w l => fcmpLane o.t o.c w.ftz (w.getV o.a.toNat l) (vectorImm o.t false o.imm))

/-- The class of an encoding (R147). -/
def fclass (f : Fmt) (bits : Nat) : Nat :=
  match f.decode bits with
  | .nan true => 8
  | .nan false => 9
  | .inf neg => if neg then 0 else 7
  | .num neg m _ =>
    if m = 0 then (if neg then 3 else 4)
    else if m < 2 ^ f.mbits then (if neg then 2 else 5)
    else (if neg then 1 else 6)

def execVfcls (o : VUn) (s : State) : Host.Outcome State Fault Refusal :=
  lanesWord0 o.p s o.d (fun w l =>
    mapElems o.t.width (fun x => 2 ^ fclass o.t.fmt x) (modify o.t o.ma (w.getV o.a.toNat l)))

/-- The rounding that a suffix selects (R148). -/
def RndSel.mode (r : RndSel) (rm : Rm) : Rm :=
  match r with
  | .ctl => rm
  | .rne => rmRNE
  | .rz => rmRZ
  | .ru => rmRU
  | .rd => rmRD

/-- The integral value of the format (R148). -/
def fround (f : Fmt) (rm : Rm) (ftz : Bool) (bits : Nat) : Nat × W32 :=
  match f.decodeFtz ftz bits with
  | .nan sn => (f.nanCode, ivIf sn)
  | .inf neg => (f.signed neg f.infCode, 0)
  | .num neg m e =>
    let r := roundAt rm neg m e 0 false
    if 0 ≤ e then ((roundNum f rmRNE false neg m e false).1, 0)
    else ((roundNum f rmRNE false neg r.1 0 false).1, 0)

def execVfrnd (o : VUn) (rm : RndSel) (s : State) : Host.Outcome State Fault Refusal :=
  lanesWord o.p s o.d (fun w l =>
    Flt.map o.t (fround o.t.fmt (RndSel.mode rm w.rm) w.ftz) (modify o.t o.ma (w.getV o.a.toNat l)))

/-! ### The compensated pair (R149) -/

/-- A vector word that writes several registers in every active lane. -/
def lanesMany (p : Pred) (s : State) (g : Wave → Nat → List (Nat × W32) × W32) : Host.Outcome State Fault Refusal :=
  runWord s (fun w =>
    let out := (lanesOf (w.active s.slotB p)).map (fun l => (l, g w l))
    let fl := out.map (fun e => (e.1, e.2.2))
    let w1 := out.foldl (fun x e => e.2.1.foldl (fun x y => x.setV y.1 e.1 y.2) x) w
    .done (s.setWave s.cur (w1.orFlags (allFlags fl))) (flagRaises w fl))

def execVadd2 (o : VBin) (s : State) : Host.Outcome State Fault Refusal :=
  lanesMany o.p s (fun w l =>
    let hi := modify o.t o.ma (w.getV o.a.toNat l)
    let lo := modify o.t o.ma (w.getV (o.a.toNat + 1) l)
    let r := pairAdd hi lo (modify o.t o.mb (w.getV o.b.toNat l))
    ([(o.d.toNat, r.1), (o.d.toNat + 1, r.2.1)], r.2.2))

def execVfma2 (o : VBin) (s : State) : Host.Outcome State Fault Refusal :=
  lanesMany o.p s (fun w l =>
    let r := pairFma (w.getV o.d.toNat l) (w.getV (o.d.toNat + 1) l) (modify o.t o.ma (w.getV o.a.toNat l))
      (modify o.t o.mb (w.getV o.b.toNat l))
    ([(o.d.toNat, r.1), (o.d.toNat + 1, r.2.1)], r.2.2))

/-! ### Special functions (R150) -/

def specialWord (o : SpecOp) (s : State) (f : FVal → Nat × W32) : Host.Outcome State Fault Refusal :=
  longLanes o.p o.la s (Use.special o) (fun w l =>
    let r := f (val32 (modify .f32 o.ma (w.getV o.a.toNat l)))
    ([(o.d.toNat, BitVec.ofNat 32 r.1)], r.2))

def execVrcp (o : SpecOp) (s : State) : Host.Outcome State Fault Refusal := specialWord o s rcpCr
def execVrsq (o : SpecOp) (s : State) : Host.Outcome State Fault Refusal := specialWord o s rsqCr
def execVsqrt (o : SpecOp) (s : State) : Host.Outcome State Fault Refusal := specialWord o s sqrtCr
def execVexp2 (o : SpecOp) (s : State) : Host.Outcome State Fault Refusal := specialWord o s exp2Cr
def execVlog2 (o : SpecOp) (s : State) : Host.Outcome State Fault Refusal := specialWord o s log2Cr
def execVtanh (o : SpecOp) (s : State) : Host.Outcome State Fault Refusal := specialWord o s tanhCr
def execVsigm (o : SpecOp) (s : State) : Host.Outcome State Fault Refusal := specialWord o s sigmCr
def execVsinpi (o : SpecOp) (s : State) : Host.Outcome State Fault Refusal := specialWord o s sinpiCr
def execVcospi (o : SpecOp) (s : State) : Host.Outcome State Fault Refusal := specialWord o s cospiCr

/-! ### Conversion and scaling (R151-R156) -/

/-- VCVT of one lane: the old destination, the source after its modifier. -/
def cvtLane (o : Cvt) (rm : Rm) (ftz : Bool) (d a : W32) : W32 × W32 :=
  let et := 32 / o.dst.width
  let ef := 32 / o.src.width
  let n := Nat.min et ef
  let rs := (List.range n).map (fun k =>
    let si := if et < ef then k + o.part.toNat * n else k
    let di := if ef < et then k + o.part.toNat * n else k
    (di, convert o.src o.dst (if o.rz then rmRZ else rm) ftz o.sat o.ovnan (elem o.src.width si a)))
  (ofElems o.dst.width ((List.range et).map (fun k => match rs.find? (fun e => e.1 == k) with
      | some e => e.2.1
      | none => elem o.dst.width k d)),
   rs.foldl (fun m e => m ||| e.2.2) 0)

def execVcvt (o : Cvt) (s : State) : Host.Outcome State Fault Refusal :=
  lanesWord o.p s o.d (fun w l =>
    cvtLane o w.rm w.ftz (w.getV o.d.toNat l) (modify o.src o.ma (w.getV o.a.toNat l)))

/-- One element times an E8M0 scale (R24); a signalling NaN sets IV under every scale (R15). -/
def scaleElem (t : EType) (rm : Rm) (ftz : Bool) (sc : Nat) (x : Nat) : Nat × W32 :=
  let v := t.fmt.decodeFtz ftz x
  if sc = 255 then (t.fmt.nanCode, if v.isSnan then flagSN ||| flagIV else flagSN) else deliver t.fmt rm ftz (scaled v sc, v.isSnan)

def execVscl (o : VBin) (s : State) : Host.Outcome State Fault Refusal :=
  lanesWord o.p s o.d (fun w l =>
    Flt.map o.t (scaleElem o.t w.rm w.ftz ((w.getV o.b.toNat l).toNat % 256)) (modify o.t o.ma (w.getV o.a.toNat l)))
def execVsclI (p : Pred) (t : EType) (d : VReg) (a : VReg) (code : BitVec 8) (s : State) :
    Host.Outcome State Fault Refusal :=
  lanesWord p s d (fun w l => Flt.map t (scaleElem t w.rm w.ftz code.toNat) (w.getV a.toNat l))

/-- The scale code of a group (R154). -/
def groupScale (xs : List FVal) : Nat :=
  if xs.any (·.isNan) then 255
  else if xs.any (·.isInf) then 254
  else
    let leads := xs.filterMap (fun x => match x with
      | .num _ m e => if m = 0 then none else some (e + bitLen m - 1)
      | _ => none)
    match leads with
    | [] => 127
    | a :: rest => (Max.max 0 (Min.min 254 (rest.foldl Max.max a - 2 + 127)) : Int).toNat

def execVgscl (p : Pred) (d : VReg) (a : VReg) (s : State) : Host.Outcome State Fault Refusal :=
  runWord s (fun w =>
    let act := lanesOf (w.active s.slotB p)
    let code := BitVec.ofNat 32 (groupScale (act.map (fun l => val32 (w.getV a.toNat l))))
    doneWave s (w.setLanes d.toNat (act.map (fun l => (l, code)))))

/-- R35: the slots, the dropped mask and the clip mask of a group, from lane `i` on. -/
def encodeQ4 (thr : Nat) (xs : List FVal) : Nat → Nat → List Nat × W32 × W32
  | 0, _ => ([], 0, 0)
  | n + 1, i =>
    if 32 ≤ i then ([], 0, 0)
    else
      let y := xs.getD i FVal.zero
      let q : Option Int := match y with
        | .num neg m e => some (roundInt rmRNE neg m e).1
        | _ => none
      let fits := match q with
        | some v => decide (v.natAbs ≤ thr)
        | none => false
      if fits then
        let r := encodeQ4 thr xs n (i + 1)
        (((q.getD 0) % 16).toNat :: r.1, r.2)
      else if i ≤ 29 then
        let byte := (toF8 Fmt.e4m3 rmRNE false y).1
        let r := encodeQ4 thr xs n (i + 3)
        (8 :: byte / 16 :: byte % 16 :: r.1, r.2.1 ||| laneBit (i + 1) ||| laneBit (i + 2), r.2.2)
      else
        let v : Int := match y, q with
          | .inf neg, _ => if neg then -7 else 7
          | _, some v => Max.max (-7) (Min.min 7 v)
          | _, none => 0
        let r := encodeQ4 thr xs n (i + 1)
        ((v % 16).toNat :: r.1, r.2.1, r.2.2 ||| laneBit i)

/-- A value times 2^(127 - s), exactly (R35). -/
def unscaled (v : FVal) (sc : Nat) : FVal :=
  match v with
  | .num n m e => .num n m (e + 127 - sc)
  | x => x

/-- R15, R35: the active lanes whose signalling NaN VCVQ4 converts. The lanes after a marker are lost, so they are not
among them. DEDUCED (log 81). -/
def q4Invalid (w : Wave) (a : VReg) (act dropped : W32) : List (Nat × W32) :=
  ((lanesOf (act &&& ~~~dropped)).filter (fun l => (val32 (w.getV a.toNat l)).isSnan)).map (fun l => (l, flagIV))

/-- VCVQ4 (R35, R155). FTZ applies to its inputs (R18); a signalling NaN sets IV (R15). -/
def execVcvq4 (p : Pred) (d : VReg) (a : VReg) (sb : SReg) (s : State) : Host.Outcome State Fault Refusal :=
  wholeWord p s (fun w act =>
    let sc := (w.getS sb.toNat).toNat % 256
    let xs := lanes.map (fun l => if act.getLsbD l then unscaled (Fmt.fp32.decodeFtz w.ftz (w.getV a.toNat l).toNat) sc
      else FVal.zero)
    let r := if sc = 255 then (List.replicate 32 0, 0, 0) else encodeQ4 w.q4thr xs 32 0
    let nib (k : Nat) : Nat := r.1.getD k 0
    let packed (j : Nat) : W32 := BitVec.ofNat 32 ((List.range 8).foldl (fun m k => m + nib (8 * j + k) * 16 ^ k) 0)
    let out := lanes.map (fun l =>
      (l, if l < 4 then packed l else if l = 4 then r.2.1 else if l = 5 then r.2.2
          else if l = 6 then BitVec.ofNat 32 sc else 0))
    let iv := if sc = 255 then [] else q4Invalid w a act r.2.1
    let fl : W32 := (if sc = 255 then flagSN else 0) ||| (if r.2.2 = 0 then 0 else flagSAT) ||| allFlags iv
    .done (s.setWave s.cur ((w.setLanes d.toNat out).orFlags fl))
      (flagRaises w iv ++ (if sc = 255 && w.snte then [{ cause := .scaleNan, lanes := act }] else [])))

/-- R33: the values of a group's elements before scaling, from slot `i` on, and the slots of markers that carry no
outlier. -/
def decodeQ4 (slots : List Nat) : Nat → Nat → List FVal × List Nat
  | 0, _ => ([], [])
  | n + 1, i =>
    if 32 ≤ i then ([], [])
    else
      let x := slots.getD i 0
      if x ≠ 8 then
        let r := decodeQ4 slots n (i + 1)
        (ofInt (if x < 8 then (x : Int) else (x : Int) - 16) :: r.1, r.2)
      else if i ≤ 29 then
        let r := decodeQ4 slots n (i + 3)
        (Fmt.e4m3.decode (slots.getD (i + 1) 0 * 16 + slots.getD (i + 2) 0) :: FVal.zero :: FVal.zero :: r.1, r.2)
      else
        let r := decodeQ4 slots n (i + 1)
        (FVal.zero :: r.1, i :: r.2)

/-- The nibbles of a group's 16 bytes. -/
def nibbles (bs : List Byte) : List Nat := bs.flatMap (fun b => [b.toNat % 16, b.toNat / 16])

/-- VDQ4 (R33, R156). A marker in slot 30 or 31 counts whatever active(S) holds; the scale counts where a lane is scaled,
so with no active lane a scale of 0xFF sets no flag and takes no cause. DEDUCED (log 82). -/
def execVdq4 (p : Pred) (d : VReg) (a : VReg) (sb : SReg) (s : State) : Host.Outcome State Fault Refusal :=
  wholeWord p s (fun w act =>
    let sc := (w.getS sb.toNat).toNat % 256
    let bytes := (List.range 4).flatMap (fun j => leBytes 4 (w.getV a.toNat j).toNat)
    let g := decodeQ4 (nibbles bytes) 32 0
    let val (l : Nat) : Nat × W32 :=
      if sc = 255 then (Fmt.fp32.nanCode, flagSN)
      else roundVal Fmt.fp32 w.rm w.ftz (scaled (g.1.getD l FVal.zero) sc)
    let out := (lanesOf act).map (fun l => (l, val l))
    let fl := out.map (fun e => (e.1, e.2.2))
    let oe := g.2.map (fun l => (l, flagOE))
    .done (s.setWave s.cur ((w.setLanes d.toNat (out.map (fun e => (e.1, BitVec.ofNat 32 e.2.1)))).orFlags
        (allFlags (fl ++ oe))))
      (poisonRaises w a.toNat 0xF ++ flagRaises w (fl ++ oe)))

/-! ### Dot products (R157, R158) -/

def execVfdot2 (o : VBin) (s : State) : Host.Outcome State Fault Refusal :=
  lanesWord o.p s o.d (fun w l =>
    let a := modify o.t o.ma (w.getV o.a.toNat l)
    let b := modify o.t o.mb (w.getV o.b.toNat l)
    let dec (x : W32) (k : Nat) : FVal := Fmt.bf16.decodeFtz w.ftz (elem 16 k x)
    let p0 := FVal.mul (dec a 0) (dec b 0)
    let p1 := FVal.mul (dec a 1) (dec b 1)
    let sum := sumExact w.rm [Fmt.fp32.decodeFtz w.ftz (w.getV o.d.toNat l).toNat, p0.1, p1.1]
    let r := roundVal Fmt.fp32 w.rm w.ftz sum.1
    (BitVec.ofNat 32 r.1, r.2 ||| ivIf (sum.2 || p0.2 || p1.2)))

def execVdot16 (p : Pred) (d : VReg) (a : VReg) (b : VReg) (s : State) : Host.Outcome State Fault Refusal :=
  lanesWord0 p s d (fun w l =>
    let ts := (List.range 4).flatMap (fun r => (List.range 4).map (fun k =>
      (FVal.mul (Fmt.e4m3.decode (elem 8 k (w.getV (a.toNat + r) l)))
        (Fmt.e4m3.decode (elem 8 k (w.getV (b.toNat + r) l)))).1))
    rne32 (FVal.add rmRNE (val32 (w.getV d.toNat l)) (val26 (gsum 0 ts))).1)

/-! ### Position rotation (R159) -/

/-- A product or sum rounded by rne32, with its flags IV, OF and NX. -/
def flagged32 (x : FVal × Bool) : W32 × W32 :=
  let r := deliver Fmt.fp32 rmRNE false x
  (BitVec.ofNat 32 r.1, r.2 &&& (flagIV ||| flagOF ||| flagNX))

/-- One lane of VROPE3: the position on the axis of the pair's band, the rotation, x and y. -/
def ropeLane (pos f x y : W32) : (W32 × W32) × W32 :=
  let th := flagged32 (FVal.mul (val32 pos) (val32 f))
  let c := BitVec.ofNat 32 (cospiCr (val32 th.1)).1
  let sn := BitVec.ofNat 32 (sinpiCr (val32 th.1)).1
  let m (u v : W32) : W32 × W32 := flagged32 (FVal.mul (val32 u) (val32 v))
  let xc := m x c
  let ys := m y sn
  let xs := m x sn
  let yc := m y c
  let d0 := flagged32 (FVal.add rmRNE (val32 xc.1) (val32 ys.1).neg)
  let d1 := flagged32 (FVal.add rmRNE (val32 xs.1) (val32 yc.1))
  ((d0.1, d1.1), th.2 ||| xc.2 ||| ys.2 ||| xs.2 ||| yc.2 ||| d0.2 ||| d1.2)

def execVrope3 (p : Pred) (la : BitVec 4) (d : VReg) (a : VReg) (s : State) : Host.Outcome State Fault Refusal :=
  runWord s (fun w =>
    let act := w.active s.slotB p
    let part := w.sys.ropepart.toNat
    let wt := bitsOf part 23 16
    let wh := bitsOf part 15 8
    let ww := part % 256
    let idx (l : Nat) : Nat := (w.getV (a.toNat + 6) l).toNat
    let far := maskOf (fun l => act.getLsbD l && decide (127 < idx l))
    if act ≠ 0 ∧ 128 < wt + wh + ww then raiseLanes s .ropePartition act 1 0
    else if far ≠ 0 then raiseLanes s .ropePartition far 2 0
    else
      let out := (lanesOf act).map (fun l =>
        let x := w.getV a.toNat l
        let y := w.getV (a.toNat + 1) l
        let i := idx l
        let axis := if i < wt then some 2 else if i < wt + wh then some 3 else if i < wt + wh + ww then some 4 else none
        match axis with
        | none => (l, (x, y), (0 : W32))
        | some k => (l, ropeLane (w.getV (a.toNat + k) l) (w.getV (a.toNat + 5) l) x y))
      let fl := out.map (fun e => (e.1, e.2.2))
      let ws := out.flatMap (fun e => [RegWrite.v d.toNat e.1 e.2.1.1, RegWrite.v (d.toNat + 1) e.1 e.2.1.2])
      .done (s.setWave s.cur ((holdWrites s w la (Instr.uses s.ir (.vrope3 p la d a)) ws).orFlags (allFlags fl)))
        (flagRaises w fl))

end Sys2Proof.Machine
end

