-- ==== Sys2Proof/Machine/CrossLane.lean ====
section
/-! DEFINITION. The cross-lane instructions (07 R160-R174, 22 R465): opcodes 0x180-0x192. -/

namespace Sys2Proof.Machine

/-! ### Moving lanes (R161) -/

/-- Every active lane of vd receives the lane of A that `src` names. A poisoned lane that is read raises its cause. -/
def shuffleWord (p : Pred) (s : State) (d a : VReg) (t : EType) (ma : BitVec 3) (src : Wave → Nat → Nat)
    (more : Wave → List Raise) : Host.Outcome State Fault Refusal :=
  runWord s (fun w =>
    let act := lanesOf (w.active s.slotB p)
    let read := act.foldl (fun m l => m ||| laneBit (src w l)) (0 : W32)
    let out := act.map (fun l => (l, modify t ma (w.getV a.toNat (src w l))))
    .done (s.setWave s.cur (w.setLanes d.toNat out)) (poisonRaises w a.toNat read ++ more w))

def execVshuf (o : VBin) (s : State) : Host.Outcome State Fault Refusal :=
  shuffleWord o.p s o.d o.a o.t o.ma (fun w l => (w.getV o.b.toNat l).toNat % 32)
    (fun w => poisonRaises w o.b.toNat (w.active s.slotB o.p))
def execVbcast (o : LaneSel) (s : State) : Host.Outcome State Fault Refusal :=
  shuffleWord o.p s o.d o.a o.t o.ma (fun w _ => (w.getS o.sb.toNat).toNat % 32) (fun _ => [])
def execVbcastI (o : LaneImm) (s : State) : Host.Outcome State Fault Refusal :=
  shuffleWord o.p s o.d o.a o.t 0 (fun _ _ => o.n.toNat) (fun _ => [])
def execVrot (o : LaneSel) (s : State) : Host.Outcome State Fault Refusal :=
  shuffleWord o.p s o.d o.a o.t o.ma (fun w l => (l + (w.getS o.sb.toNat).toNat % 32) % 32) (fun _ => [])
def execVrotI (o : LaneImm) (s : State) : Host.Outcome State Fault Refusal :=
  shuffleWord o.p s o.d o.a o.t 0 (fun _ l => (l + o.n.toNat) % 32) (fun _ => [])

/-! ### Reductions and scans (R37, R162-R164) -/

/-- The combination of two operands, with flags (R162). -/
def RedKind.comb (k : RedKind) (rm : Rm) (ftz : Bool) (p q : W32) : W32 × W32 :=
  let flt (r : Nat × W32) : W32 × W32 := (BitVec.ofNat 32 r.1, r.2)
  match k with
  | .addI32 | .addN32 => (p + q, 0)
  | .minI32 => (if p.toInt ≤ q.toInt then p else q, 0)
  | .minN32 => (if p ≤ q then p else q, 0)
  | .maxI32 => (if p.toInt ≤ q.toInt then q else p, 0)
  | .maxN32 => (if p ≤ q then q else p, 0)
  | .and => (p &&& q, 0)
  | .or => (p ||| q, 0)
  | .xor => (p ^^^ q, 0)
  | .fadd => flt (Flt.add .f32 rm ftz p.toNat q.toNat)
  | .fmin => flt (minMax Fmt.fp32 false ftz p.toNat q.toNat)
  | .fmax => flt (minMax Fmt.fp32 true ftz p.toNat q.toNat)

/-- The type in whose view MODA applies (R162). -/
def RedKind.view : RedKind → EType
  | .addN32 | .minN32 | .maxN32 => .n32
  | .fadd | .fmin | .fmax => .f32
  | _ => .i32

/-- A value with the lanes whose values entered it (R21); none where no active lane did. -/
abbrev Entered := Option (W32 × W32)

/-- The combination where an operand may be absent (R37, R164), with the lanes that an operation's flags concern. -/
def combEntered (f : W32 → W32 → W32 × W32) : Entered → Entered → Entered × List (W32 × W32)
  | some p, some q =>
    let r := f p.1 q.1
    (some (r.1, p.2 ||| q.2), if r.2 = 0 then [] else [(p.2 ||| q.2, r.2)])
  | some p, none => (some p, [])
  | none, q => (q, [])

/-- What the active lanes of a register enter. -/
def entered (act : W32) (x : Nat → W32) : List Entered :=
  lanes.map (fun l => if act.getLsbD l then some (x l, laneBit l) else none)

/-- The flags that each lane raises: those of every operation that its value entered (R21). -/
def enteredFlags (act : W32) (ops : List (W32 × W32)) : List (Nat × W32) :=
  (lanesOf act).map (fun l => (l, ops.foldl (fun m o => if o.1.getLsbD l then m ||| o.2 else m) 0))

/-- One level of the tree of R37: adjacent pairs. -/
def pairUp (f : W32 → W32 → W32 × W32) : List Entered → List Entered × List (W32 × W32)
  | a :: b :: rest =>
    let r := combEntered f a b
    let more := pairUp f rest
    (r.1 :: more.1, r.2 ++ more.2)
  | xs => (xs, [])

/-- `n` levels of the tree. -/
def treeOf (f : W32 → W32 → W32 × W32) : Nat → List Entered → Entered × List (W32 × W32)
  | 0, xs => (xs.headD none, [])
  | n + 1, xs =>
    let r := pairUp f xs
    let more := treeOf f n r.1
    (more.1, r.2 ++ more.2)

/-- What a reduction of one active lane gives (R37): no node combines its value. A minimum or a maximum of a NaN alone is
the canonical NaN, with IV when that NaN is signalling; a sum passes the value through with no flag.
DEDUCED (log 83). -/
def RedKind.lone (k : RedKind) (ftz : Bool) (x : W32) : W32 × W32 :=
  match k with
  | .fmin | .fmax =>
    let v := Fmt.fp32.decodeFtz ftz x.toNat
    if v.isNan then (nan32, ivIf v.isSnan) else (x, 0)
  | _ => (x, 0)

def execVred (o : RedOp) (s : State) : Host.Outcome State Fault Refusal :=
  runWord s (fun w =>
    let act := w.active s.slotB o.p
    let r := treeOf (RedKind.comb o.op w.rm w.ftz) 5
      (entered act (fun l => modify (RedKind.view o.op) o.ma (w.getV o.a.toNat l)))
    match r.1 with
    | none => .done s []
    | some x0 =>
      let x := if (lanesOf act).length = 1 then RedKind.lone o.op w.ftz x0.1 else (x0.1, 0)
      let fl := enteredFlags act (r.2 ++ [(act, x.2)])
      .done (s.setWave s.cur ((w.setLanes o.d.toNat ((lanesOf act).map (fun l => (l, x.1)))).orFlags (allFlags fl)))
        (flagRaises w fl))

/-- The fixed five-step pairing of R164: `scan` takes the prefix, otherwise the suffix. `fl` gathers the operations' flags. -/
def segSteps (f : W32 → W32 → W32 × W32) (scan : Bool) (h e : Nat → Nat) :
    List Nat → List Entered → List (W32 × W32) → List Entered × List (W32 × W32)
  | [], xs, fl => (xs, fl)
  | k :: ks, xs, fl =>
    let d := 2 ^ k
    let at_ (l : Nat) : Entered := xs.getD l none
    let ys := lanes.map (fun l =>
      if scan then (if h l + d ≤ l then combEntered f (at_ (l - d)) (at_ l) else (at_ l, []))
      else (if l + d ≤ e l then combEntered f (at_ l) (at_ (l + d)) else (at_ l, [])))
    segSteps f scan h e ks (ys.map (·.1)) (fl ++ ys.flatMap (·.2))

/-- A segmented scan or reduction (R163, R164). -/
def segWord (p : Pred) (s : State) (d a : VReg) (view : EType) (ma : BitVec 3) (heads : Wave → W32)
    (comb : Wave → W32 → W32 → W32 × W32) (scan : Bool) (absent : W32) : Host.Outcome State Fault Refusal :=
  runWord s (fun w =>
    let act := w.active s.slotB p
    let hd := heads w ||| 1
    let h (l : Nat) : Nat := ((List.range (l + 1)).reverse.find? (fun j => hd.getLsbD j)).getD 0
    let e (l : Nat) : Nat := match lanes.find? (fun j => decide (l < j) && hd.getLsbD j) with
      | some j => j - 1
      | none => 31
    let r := segSteps (comb w) scan h e [0, 1, 2, 3, 4] (entered act (fun l => modify view ma (w.getV a.toNat l))) []
    let out := (lanesOf act).map (fun l => (l, ((r.1.getD l none).map (·.1)).getD absent))
    let fl := enteredFlags act r.2
    .done (s.setWave s.cur ((w.setLanes d.toNat out).orFlags (allFlags fl))) (flagRaises w fl))

def execVscan (o : RedOp) (s : State) : Host.Outcome State Fault Refusal :=
  segWord o.p s o.d o.a (RedKind.view o.op) o.ma (fun _ => 0) (fun w => RedKind.comb o.op w.rm w.ftz) true 0

/-- Addition in the type of a segmented form. -/
def segKind (t : EType) : RedKind := if t = .f32 then .fadd else .addI32
def segAbsent (t : EType) : W32 := if t = .f32 then 0x8000_0000 else 0

def execVsegred (o : SegOp) (s : State) : Host.Outcome State Fault Refusal :=
  segWord o.p s o.d o.a o.t o.ma (fun w => w.getM o.mb.toNat)
    (fun w => RedKind.comb (segKind o.t) w.rm w.ftz) false (segAbsent o.t)
def execVsegscan (o : SegOp) (s : State) : Host.Outcome State Fault Refusal :=
  segWord o.p s o.d o.a o.t o.ma (fun w => w.getM o.mb.toNat)
    (fun w => RedKind.comb (segKind o.t) w.rm w.ftz) true (segAbsent o.t)

/-! ### Keys, balance and sparse lanes (R165-R171) -/

/-- The leaders of R39 among active lanes. -/
def leaders (w : Wave) (act : W32) (a : VReg) : W32 :=
  maskOf (fun l => act.getLsbD l &&
    (List.range l).all (fun j => !(act.getLsbD j && w.getV a.toNat j == w.getV a.toNat l)))

def execVconfl (p : Pred) (_t : EType) (md : MReg) (a : VReg) (s : State) : Host.Outcome State Fault Refusal :=
  wholeWord p s (fun w act => doneWave s (w.setM md.toNat (leaders w act a)))

/-- The left fold of R39 over the values of a leader's key. -/
def foldEntered (f : W32 → W32 → W32 × W32) : List Entered → Entered × List (W32 × W32)
  | [] => (none, [])
  | x :: xs => xs.foldl (fun acc y =>
      let r := combEntered f acc.1 y
      (r.1, acc.2 ++ r.2)) (x, [])

def execVdupadd (p : Pred) (t : EType) (d : VReg) (a : VReg) (b : VReg) (s : State) : Host.Outcome State Fault Refusal :=
  runWord s (fun w =>
    let act := w.active s.slotB p
    let lead := leaders w act a
    let sums := ((lanesOf act).filter (fun l => lead.getLsbD l)).map (fun l =>
      (l, foldEntered (RedKind.comb (segKind t) w.rm w.ftz)
        (((lanesOf act).filter (fun j => w.getV a.toNat j == w.getV a.toNat l)).map (fun j =>
          some (w.getV b.toNat j, laneBit j)))))
    let out := (lanesOf act).map (fun l => (l, match sums.find? (fun e => e.1 == l) with
      | some e => (e.2.1.map (·.1)).getD 0
      | none => 0))
    let fl := enteredFlags act (sums.flatMap (fun e => e.2.2))
    .done (s.setWave s.cur ((w.setLanes d.toNat out).orFlags (allFlags fl))) (flagRaises w fl))

def execVbal (p : Pred) (idx : Bool) (md : MReg) (a : VReg) (b : VReg) (s : State) : Host.Outcome State Fault Refusal :=
  wholeWord p s (fun w act =>
    let len (l : Nat) : Nat := if act.getLsbD l then (w.getV a.toNat l).toNat else 0
    let total := lanes.foldl (fun n l => n + len l) 0
    if lanes.any (fun l => decide (2 ^ 20 ≤ len l)) || decide (2 ^ 20 < total) then
      raiseLanes s .balanceOverflow act 1 0
    else
      let start (i : Nat) : Nat := (List.range i).foldl (fun n j => n + len j) 0
      let rows := (lanesOf act).filter (fun i => decide (0 < len i))
      let heads := rows.foldl (fun m i => if start i ≤ 31 then m ||| laneBit (start i) else m) (0 : W32)
      let w1 := w.setM md.toNat heads
      let w2 := if idx then
          w1.setLanes b.toNat (lanes.map (fun q =>
            (q, match (rows.filter (fun i => decide (start i ≤ q) && decide (q < start i + len i))).getLast? with
              | some i => BitVec.ofNat 32 i
              | none => 0xFFFF_FFFF)))
        else w1
      doneWave s w2)

def execVisect (p : Pred) (t : EType) (d : VReg) (a : VReg) (b : VReg) (s : State) : Host.Outcome State Fault Refusal :=
  runWord s (fun w =>
    let act := w.active s.slotB p
    let out := (lanesOf act).map (fun l =>
      (l, match (lanes.filter (fun j =>
            decide (t.intVal (w.getV b.toNat j).toNat ≤ t.intVal (w.getV a.toNat l).toNat))).getLast? with
        | some j => BitVec.ofNat 32 j
        | none => 0xFFFF_FFFF))
    .done (s.setWave s.cur (w.setLanes d.toNat out))
      (if act = 0 then [] else poisonRaises w a.toNat act ++ poisonRaises w b.toNat allLanes))

/-- Inserts a key behind the keys that are not above it. -/
def insertKey (le : W32 → W32 → Bool) (x : W32 × Nat) : List (W32 × Nat) → List (W32 × Nat)
  | [] => [x]
  | y :: ys => if le y.1 x.1 then y :: insertKey le x ys else x :: y :: ys

/-- A stable sort (R169). -/
def sortKeys (le : W32 → W32 → Bool) (xs : List (W32 × Nat)) : List (W32 × Nat) :=
  xs.foldl (fun acc x => insertKey le x acc) []

def execVmrg (p : Pred) (uns : Bool) (hi : Bool) (idx : Bool) (d : VReg) (a : VReg) (b : VReg) (s : State) :
    Host.Outcome State Fault Refusal :=
  runWord s (fun w =>
    let act := w.active s.slotB p
    let le (x y : W32) : Bool := if uns then decide (x ≤ y) else decide (x.toInt ≤ y.toInt)
    let q := sortKeys le ((w.getVec a.toNat ++ w.getVec b.toNat).zip (List.range 64))
    let out := (lanesOf act).map (fun l =>
      let e := q.getD (if hi then l + 32 else l) (0, 0)
      (l, if idx then BitVec.ofNat 32 e.2 else e.1))
    .done (s.setWave s.cur (w.setLanes d.toNat out))
      (if act = 0 then [] else poisonRaises w a.toNat allLanes ++ poisonRaises w b.toNat allLanes))

def execVcmpr (p : Pred) (d : VReg) (a : VReg) (mb : MReg) (s : State) : Host.Outcome State Fault Refusal :=
  runWord s (fun w =>
    let sel := w.active s.slotB p &&& w.getM mb.toNat
    let out := (lanesOf sel).mapIdx (fun j l => (j, w.getV a.toNat l))
    .done (s.setWave s.cur (w.setLanes d.toNat out)) (poisonRaises w a.toNat sel))

def execVexpd (p : Pred) (d : VReg) (a : VReg) (mb : MReg) (s : State) : Host.Outcome State Fault Refusal :=
  runWord s (fun w =>
    let sel := lanesOf (w.active s.slotB p &&& w.getM mb.toNat)
    let out := sel.mapIdx (fun j l => (l, w.getV a.toNat j))
    .done (s.setWave s.cur (w.setLanes d.toNat out)) (poisonRaises w a.toNat (maskOf (fun j => decide (j < sel.length)))))

def execVballot (p : Pred) (md : MReg) (a : VReg) (s : State) : Host.Outcome State Fault Refusal :=
  maskWord p s md (fun w l => (w.getV a.toNat l != 0, 0))

def execVany (p : Pred) (all : Bool) (md : MReg) (a : VReg) (s : State) : Host.Outcome State Fault Refusal :=
  wholeWord p s (fun w act =>
    let hit (l : Nat) : Bool := w.getV a.toNat l != 0
    let r := if all then (lanesOf act).all hit else (lanesOf act).any hit
    doneWave s (w.setM md.toNat (if r then allLanes else 0)))

/-! ### Merging softmax partials (R174) -/

/-- The sequence of R174 on two partials: m, l, then the outputs. The fabric routers perform the same (R459). -/
def mergePartials (m1 l1 m2 l2 : W32) (o1 o2 : List W32) : W32 × W32 × List W32 :=
  let m := BitVec.ofNat 32 (minMax Fmt.fp32 true false m1.toNat m2.toNat).1
  let factor (x : W32) : W32 :=
    if FVal.cmp (val32 x) (val32 m) = 0 ∧ (val32 x).isNan = false ∧ (val32 m).isNan = false then 0x3F80_0000
    else BitVec.ofNat 32 (exp2Cr (val32 (sub32 x m))).1
  let f1 := factor m1
  let f2 := factor m2
  let comb (a b : W32) : W32 := add32 (mul32 f1 a) (mul32 f2 b)
  (m, comb l1 l2, List.zipWith comb o1 o2)

def execVtriple (p : Pred) (la : BitVec 4) (d : VReg) (a : VReg) (n : BitVec 3) (s : State) :
    Host.Outcome State Fault Refusal :=
  longLanes p la s (Instr.uses s.ir (.vtriple p la d a n)) (fun w l =>
    let k := n.toNat + 1
    let grp (v : VReg) (j : Nat) : W32 := w.getV (v.toNat + j) l
    let outs (v : VReg) : List W32 := (List.range k).map (fun c => grp v (c + 2))
    let r := mergePartials (grp d 0) (grp d 1) (grp a 0) (grp a 1) (outs d) (outs a)
    ((d.toNat, r.1) :: (d.toNat + 1, r.2.1) :: r.2.2.mapIdx (fun c x => (d.toNat + 2 + c, x)), 0))

end Sys2Proof.Machine
end

