-- ==== Sys2Proof/Machine/Pairs.lean ====
section
/-! DEFINITION. The P2 words (03 R81-R87): two slots that read all their sources before either writes. The row `…_PAIR` is a
P2 word whose slot X holds the instruction of its name; both slots stand in the current word. -/

namespace Sys2Proof.Machine

/-- What one slot does: its register writes, and the flags of its lanes. -/
structure SlotEffect where
  writes : List RegWrite
  flags : List (Nat × W32) := []
  deriving DecidableEq, Repr

/-- A scalar slot (R119, R123) on the old d and s. -/
def pairScalar (op : PairOp) (t : SType) (d x : W64) : W64 :=
  match op with
  | .sadd => Alu.add t d x
  | .ssub => Alu.sub t d x
  | .smul => Alu.mul t d x
  | .sand => d &&& x
  | .sor => d ||| x
  | .sxor => d ^^^ x
  | .sshl => Alu.shl t d x
  | .sshr => Alu.shr t d x
  | .ssra => Alu.sra t d x
  | .smin => Alu.min t d x
  | .smax => Alu.max t d x
  | .spopc => Alu.popc t x
  | .sclz => Alu.clz t x
  | _ => x

/-- A mask slot (R126). -/
def pairMask (op : PairOp) (d x : W32) : W32 :=
  match op with
  | .mand => d &&& x
  | .mor => d ||| x
  | .mxor => d ^^^ x
  | _ => ~~~ x

/-- A vector slot on one lane: the old d and the modified s (R86, R129, R145). -/
def pairVector (op : PairOp) (t : EType) (rm : Rm) (ftz : Bool) (d x : W32) : W32 × W32 :=
  let z (f : EType → Nat → Nat → Nat) : W32 × W32 := (zipElems (viewWidth t) (f t) d x, 0)
  match op with
  | .vadd => z Elt.add
  | .vsub => z Elt.sub
  | .vmul => z Elt.mul
  | .vmin => z Elt.min
  | .vmax => z Elt.max
  | .vabsd => z Elt.absd
  | .vand => (d &&& x, 0)
  | .vor => (d ||| x, 0)
  | .vxor => (d ^^^ x, 0)
  | .vshl => z Elt.shl
  | .vshr => z Elt.shr
  | .vsra => z Elt.sra
  | .vpopc => (mapElems (viewWidth t) (Elt.popc t) x, 0)
  | .vclz => (mapElems (viewWidth t) (Elt.clz t) x, 0)
  | .vadds => satElems t Elt.adds d x
  | .vsubs => satElems t Elt.subs d x
  | .vfadd => Flt.zip t (Flt.add t rm ftz) d x
  | .vfsub => Flt.zip t (Flt.sub t rm ftz) d x
  | .vfmul => Flt.zip t (Flt.mul t rm ftz) d x
  | .vfmin => Flt.zip t (Flt.min t rm ftz) d x
  | .vfmax => Flt.zip t (Flt.max t rm ftz) d x
  | _ => (x, 0)

/-- What a slot does on the registers of `w`, for the lanes `act` (R43, R86). -/
def slotEffect (w : Wave) (act : W32) (op : PairOp) (h : Half) (isY : Bool) : SlotEffect :=
  match op.kind with
  | .scalar =>
    let t := (STypes.ofCode (h.var.setWidth 4)).getD .i64
    if act = 0 then { writes := [] }
    else { writes := [.s (h.d.toNat % 64) (pairScalar op t (w.getS (h.d.toNat % 64)) (w.getS (h.s.toNat % 64)))] }
  | .mask =>
    if act = 0 then { writes := [] }
    else { writes := [.m (h.d.toNat % 16) (pairMask op (w.getM (h.d.toNat % 16)) (w.getM (h.s.toNat % 16)))] }
  | _ =>
    let t := (op.eType h.var).getD .i32
    let d := (pairVReg isY h.d).toNat
    let r := (pairVReg isY h.s).toNat
    let out := (lanesOf act).map (fun l =>
      (l, pairVector op t w.rm w.ftz (w.getV d l) (modify t (if h.m then 1 else 0) (w.getV r l))))
    { writes := out.map (fun e => .v d e.1 e.2.1), flags := out.map (fun e => (e.1, e.2.2)) }

/-- A P2 word whose slot X holds `op` (R86, R87). -/
def pairWord (op : PairOp) (s : State) : Host.Outcome State Fault Refusal :=
  runWord s (fun w =>
    let act := w.active s.slotB ⟨false, 0⟩
    let x := slotEffect w act op (halfX s.ir) false
    let y := match codeY s.ir with
      | some q => slotEffect w act q (halfY s.ir) true
      | none => { writes := [] }
    let fl := x.flags ++ y.flags
    .done (s.setWave s.cur ((applyWrites w (x.writes ++ y.writes)).orFlags (allFlags fl)))
      (flagRaises w x.flags ++ (flagRaises w y.flags).map (fun r => { r with pairY := true })))

def execSmovPair (s : State) : Host.Outcome State Fault Refusal := pairWord .smov s
def execSaddPair (s : State) : Host.Outcome State Fault Refusal := pairWord .sadd s
def execSsubPair (s : State) : Host.Outcome State Fault Refusal := pairWord .ssub s
def execSmulPair (s : State) : Host.Outcome State Fault Refusal := pairWord .smul s
def execSandPair (s : State) : Host.Outcome State Fault Refusal := pairWord .sand s
def execSorPair (s : State) : Host.Outcome State Fault Refusal := pairWord .sor s
def execSxorPair (s : State) : Host.Outcome State Fault Refusal := pairWord .sxor s
def execSshlPair (s : State) : Host.Outcome State Fault Refusal := pairWord .sshl s
def execSshrPair (s : State) : Host.Outcome State Fault Refusal := pairWord .sshr s
def execSsraPair (s : State) : Host.Outcome State Fault Refusal := pairWord .ssra s
def execSminPair (s : State) : Host.Outcome State Fault Refusal := pairWord .smin s
def execSmaxPair (s : State) : Host.Outcome State Fault Refusal := pairWord .smax s
def execSpopcPair (s : State) : Host.Outcome State Fault Refusal := pairWord .spopc s
def execSclzPair (s : State) : Host.Outcome State Fault Refusal := pairWord .sclz s
def execMandPair (s : State) : Host.Outcome State Fault Refusal := pairWord .mand s
def execMorPair (s : State) : Host.Outcome State Fault Refusal := pairWord .mor s
def execMxorPair (s : State) : Host.Outcome State Fault Refusal := pairWord .mxor s
def execMnotPair (s : State) : Host.Outcome State Fault Refusal := pairWord .mnot s
def execVmovPair (s : State) : Host.Outcome State Fault Refusal := pairWord .vmov s
def execVaddPair (s : State) : Host.Outcome State Fault Refusal := pairWord .vadd s
def execVsubPair (s : State) : Host.Outcome State Fault Refusal := pairWord .vsub s
def execVmulPair (s : State) : Host.Outcome State Fault Refusal := pairWord .vmul s
def execVminPair (s : State) : Host.Outcome State Fault Refusal := pairWord .vmin s
def execVmaxPair (s : State) : Host.Outcome State Fault Refusal := pairWord .vmax s
def execVabsdPair (s : State) : Host.Outcome State Fault Refusal := pairWord .vabsd s
def execVandPair (s : State) : Host.Outcome State Fault Refusal := pairWord .vand s
def execVorPair (s : State) : Host.Outcome State Fault Refusal := pairWord .vor s
def execVxorPair (s : State) : Host.Outcome State Fault Refusal := pairWord .vxor s
def execVshlPair (s : State) : Host.Outcome State Fault Refusal := pairWord .vshl s
def execVshrPair (s : State) : Host.Outcome State Fault Refusal := pairWord .vshr s
def execVsraPair (s : State) : Host.Outcome State Fault Refusal := pairWord .vsra s
def execVpopcPair (s : State) : Host.Outcome State Fault Refusal := pairWord .vpopc s
def execVclzPair (s : State) : Host.Outcome State Fault Refusal := pairWord .vclz s
def execVaddsPair (s : State) : Host.Outcome State Fault Refusal := pairWord .vadds s
def execVsubsPair (s : State) : Host.Outcome State Fault Refusal := pairWord .vsubs s
def execVfaddPair (s : State) : Host.Outcome State Fault Refusal := pairWord .vfadd s
def execVfsubPair (s : State) : Host.Outcome State Fault Refusal := pairWord .vfsub s
def execVfmulPair (s : State) : Host.Outcome State Fault Refusal := pairWord .vfmul s
def execVfminPair (s : State) : Host.Outcome State Fault Refusal := pairWord .vfmin s
def execVfmaxPair (s : State) : Host.Outcome State Fault Refusal := pairWord .vfmax s

end Sys2Proof.Machine
end

