-- ==== Sys2Proof/Machine/Control.lean ====
section
/-! DEFINITION. Control flow and the system instructions (06 R136-R143, 02 R48-R52, 20 R430-R434): opcodes 0x380-0x38B. -/

namespace Sys2Proof.Machine

/-- A slot goes on at another word; its windows end (R57). -/
def goTo (s : State) (w : Wave) (target : W64) : Result :=
  .placed (s.setWave s.cur ((w.updSlot s.slotB (fun x => { x with pc := target, wait := none })).endWindows s.slotB)) []

/-- R136: an instruction that is uniform in its slot. -/
def uniform (p : Pred) (s : State) (f : Wave → Result) : Host.Outcome State Fault Refusal :=
  runWord s (fun w =>
    let taken := w.active s.slotB p
    if taken = 0 then .done s []
    else if taken = (w.slot s.slotB).mask then f w
    else raiseLanes s .illegalField taken 7 0)

/-- The PC of the current word. -/
def pcOf (s : State) (w : Wave) : W64 := (w.slot s.slotB).pc

/-- The target of a wide offset (R92). -/
def offsetTarget (pc : W64) (off : BitVec 28) : W64 := pc + 8 * off.signExtend 64

/-- The check of a register target (R139): its DETAIL when it fails. R139 names a page that is not executable or not present
for DETAIL 3; a malformed entry and a page that user mode may not access give it too. DEDUCED (log 86). -/
def targetDetail (s : State) (w : Wave) (x : W64) : Option Nat :=
  if x.toNat % 8 ≠ 0 then some 1
  else if 2 ^ 56 ≤ x.toNat then some 2
  else match (partOf s (waveAgent w s.cur) .exec x.toNat 8).page with
    | .ok _ => none
    | .error _ => some 3

/-- A transfer to a register target. -/
def checkedTo (p : Pred) (s : State) (w : Wave) (x : W64) (f : Wave → Wave) : Result :=
  match targetDetail s w x with
  | some d => raiseLanes s .indirectTarget (w.active s.slotB p) d x
  | none => goTo s (f w) x

/-- The instructions of a slot's windows complete: both slots that a split makes wait for them (R57). -/
def completeSlot (w : Wave) (b : Bool) : Wave :=
  { (w.windows.foldl (fun w x => if x.slotB == b && !x.done then applyWrites w x.writes else w) w) with
    windows := w.windows.flatMap (fun x =>
      if x.slotB != b then [x]
      else if x.ends == .any || x.done then []
      else [{ x with left := 0 }, { x with left := 0, slotB := !b }]) }

/-- BR (R48, R49, R57). -/
def execBr (p : Pred) (dist : BitVec 11) (off : BitVec 28) (s : State) : Host.Outcome State Fault Refusal :=
  runWord s (fun w =>
    let x := w.slot s.slotB
    let taken := w.active s.slotB p
    let target := offsetTarget x.pc off
    if taken = 0 then .done s []
    else if taken = x.mask then goTo s w target
    else if dist = 0 then raiseLanes s .illegalField taken 7 0
    else
      let y := w.slot (!s.slotB)
      let need := if y.valid then 2 else 1
      if 64 < w.stack.length + need then raiseLanes s .divergeOverflow taken 0 0
      else
        let r := x.pc + 8 * dist.setWidth 64
        let w1 := completeSlot w s.slotB
        let join := StackEntry.join r x.mask x.rpc
        let stay : Slot := { x with mask := x.mask &&& ~~~ taken, pc := x.pc + 8, rpc := some r, wait := none }
        let w2 := if y.valid then { w1 with stack := .pending target taken r :: join :: w1.stack }
          else { w1 with stack := join :: w1.stack }.setSlot (!s.slotB) (Slot.running target taken (some r))
        .placed (s.setWave s.cur (w2.setSlot s.slotB stay)) [])

/-- BRU (R138). -/
def execBru (p : Pred) (off : BitVec 28) (s : State) : Host.Outcome State Fault Refusal :=
  uniform p s (fun w => goTo s w (offsetTarget (pcOf s w) off))

/-- JMP, CALL and RET (R139). -/
def execJmp (p : Pred) (off : BitVec 28) (s : State) : Host.Outcome State Fault Refusal :=
  uniform p s (fun w => goTo s w (offsetTarget (pcOf s w) off))
def execJmpReg (p : Pred) (sa : SReg) (s : State) : Host.Outcome State Fault Refusal :=
  uniform p s (fun w => checkedTo p s w (w.getS sa.toNat) id)
def execCall (p : Pred) (d : SReg) (off : BitVec 28) (s : State) : Host.Outcome State Fault Refusal :=
  uniform p s (fun w => goTo s (w.setS d.toNat (pcOf s w + 8)) (offsetTarget (pcOf s w) off))
def execCallReg (p : Pred) (d : SReg) (sa : SReg) (s : State) : Host.Outcome State Fault Refusal :=
  uniform p s (fun w => checkedTo p s w (w.getS sa.toNat) (fun x => x.setS d.toNat (pcOf s w + 8)))
def execRet (p : Pred) (sa : SReg) (s : State) : Host.Outcome State Fault Refusal :=
  uniform p s (fun w => checkedTo p s w (w.getS sa.toNat) id)

/-- LOOP (R140): it reads its counter and does not change it. -/
def execLoop (p : Pred) (d : SReg) (off : BitVec 28) (s : State) : Host.Outcome State Fault Refusal :=
  uniform p s (fun w =>
    if w.getS d.toNat = 0 then .done s [] else goTo s w (offsetTarget (pcOf s w) off))

/-! ### Lanes that wait at VSYNC (R355, R356) -/

/-- What an evaluation of the waiting lanes finds. -/
inductive SyncOut where
  | waits
  | mismatch (lanes : W32) (detail : Nat)
  | release (lanes : W32)
  deriving DecidableEq, Repr

/-- The lanes of W. -/
def Wave.syncLanes (w : Wave) : W32 := maskOf (fun l => (Cells.get none w.sync l).isSome)

/-- The evaluation of R355. -/
def evalSync (w : Wave) : SyncOut :=
  let inW := w.syncLanes
  match lanesOf inW with
  | [] => .waits
  | l0 :: _ =>
    let m0 := (Cells.get none w.sync l0).getD 0
    let part := m0 &&& ~~~ w.exited
    if !m0.getLsbD l0 then .mismatch (laneBit l0) 2
    else if part &&& ~~~ inW != 0 then .waits
    else
      let differ := maskOf (fun l => part.getLsbD l && Cells.get none w.sync l != some m0)
      if differ != 0 then .mismatch differ 1 else .release part

/-- Released lanes leave W. -/
def dropSync (w : Wave) (lanes : W32) : Wave :=
  { w with sync := (lanesOf lanes).foldl (fun m l => m.erase l) w.sync }

/-- Whether lanes of a slot wait. -/
def slotSyncs (w : Wave) (b : Bool) : Bool := w.syncLanes &&& (w.slot b).mask != 0

/-- The slots that wait at VSYNC and have no waiting lane left go on. -/
def passSynced (s : State) (i : Nat) : State :=
  match s.wave i with
  | none => s
  | some w => ((waitingAt w (fun k => k == .sync)).filter (fun b => !slotSyncs w b)).foldl (fun s b => passSlot s i b id) s

/-- Lanes have exited: the waiting lanes are evaluated again; a mismatch is taken at the VSYNC of slot A when it has waiting
lanes, and at that of slot B otherwise (R356). -/
def exitSync (s : State) (i : Nat) : State :=
  match s.wave i with
  | none => s
  | some w => match evalSync w with
    | .waits => s
    | .release lanes => passSynced (s.updWave i (fun w => dropSync w lanes)) i
    | .mismatch lanes detail =>
      let b := !slotSyncs w false
      takeTrap s i { cause := .syncMaskMismatch, lanes := lanes, detail := detail } b (w.slot b).pc
        (((w.slot b).wait.map (·.word)).getD 0) false false

/-- Evaluates the waiting lanes after a word that lets lanes exit. -/
def afterExit (i : Nat) (o : Host.Outcome State Fault Refusal) : Host.Outcome State Fault Refusal :=
  match o with
  | .next t => .next (exitSync t i)
  | x => x

/-- The lanes of active(S) exit (R52). -/
def exitLanes (s : State) (w : Wave) (act : W32) : Result :=
  let left := (w.slot s.slotB).mask &&& ~~~ act
  let w1 := { w with exited := w.exited ||| act }
  if left = 0 then .placed (s.setWave s.cur (w1.setSlot s.slotB Slot.empty)) []
  else .done (s.setWave s.cur (w1.updSlot s.slotB (fun x => { x with mask := left }))) []

/-- EXIT (R142, R52). Where no lane exits, the waiting lanes are not evaluated (R355). -/
def execExit (s : State) : Host.Outcome State Fault Refusal :=
  let o := onceWord (wordPred s.ir) s (fun w => exitLanes s w (w.active s.slotB (wordPred s.ir)))
  if activeNow s = 0 then o else afterExit s.cur o

/-- TRAP and BRK (R143). -/
def execTrap (s : State) : Host.Outcome State Fault Refusal :=
  onceWord (wordPred s.ir) s (fun w => raiseActive s w (wordPred s.ir) .softwareTrap (s.ir.toNat % 256))
def execBrk (s : State) : Host.Outcome State Fault Refusal :=
  onceWord (wordPred s.ir) s (fun w => raiseActive s w (wordPred s.ir) .breakpoint 0)

/-- ERET (R432). -/
def execEret (s : State) : Host.Outcome State Fault Refusal :=
  onceWord (wordPred s.ir) s (fun w =>
    if w.slotB.valid then raiseActive s w (wordPred s.ir) .illegalField 7
    else if !w.sys.inHandler then .done s []
    else .placed (returnFromHandler s s.cur) [])

/-- HALT (R433): the wave goes on at the next word once a WAKE names it. -/
def execHalt (s : State) : Host.Outcome State Fault Refusal :=
  onceWord (wordPred s.ir) s (fun w =>
    doneWave s { w with run := { w.run with status := .asleep } })

/-- R434: the cached translations that survive an invalidation. -/
def survives (ctx : Nat) (va code : Nat) (c : Cached) : Bool :=
  match code with
  | 0 => c.ctx != ctx || !overlap (va / 2 ^ 16 * 2 ^ 16) (2 ^ 16) c.va c.size
  | 1 => c.ctx != ctx
  | _ => false

/-- Drops cached translations in every TLB and L2 of the package (R434, R411). -/
def invalidate (s : State) (keep : Cached → Bool) : State :=
  { s with
    cores := s.cores.map (fun c => { c with tlb := c.tlb.filter keep })
    clusters := s.clusters.map (fun c => { c with l2 := c.l2.filter keep }) }

/-- TLBINV (R434). -/
def execTlbinv (p : Pred) (sa : SReg) (sb : SReg) (s : State) : Host.Outcome State Fault Refusal :=
  onceWord p s (fun w =>
    let b := w.getS sb.toNat
    let code := bitsOf b.toNat 10 9
    if code = 3 ∨ 2 ^ 11 ≤ b.toNat then raiseActive s w p .illegalField 4
    else
      let ctx := if b.getLsbD 8 then b.toNat % 256 else w.sys.ctxsel.toNat % 256
      .done (invalidate s (survives ctx ((w.getS sa.toNat).toNat % 2 ^ 56) code)) [])

/-! ### A word that is no instruction (R110) -/

/-- ILLEGAL_WORD: the word raises its decoding cause, whatever active(S) holds (R110, R469). -/
def execIllegalWord (s : State) : Host.Outcome State Fault Refusal :=
  runWord s (fun w => match decodeWord w.sysMode s.ir with
    | .ok _ => .done s []
    | .error x => .done s [{ cause := Causes.ofCode x.cause.toNat, lanes := w.active s.slotB (wordPred s.ir)
                             detail := x.detail.toNat, pairY := x.pairY }])

end Sys2Proof.Machine
end

