-- ==== Sys2Proof/Machine/Scratch.lean ====
section
/-! DEFINITION. The scratchpad (08 R177-R179, R193, R195): the bytes of a core, the ranges that a wave reaches, and the tag
table. Every access is one step, so the steps give the total order of R195. -/

namespace Sys2Proof.Machine

namespace Core

def spRead (c : Core) (off n : Nat) : List Byte := Cells.slice 0 c.scratch off n

/-- Writes bytes; a write that covers a whole 8-byte granule clears its poison (R193). -/
def spWrite (c : Core) (off : Nat) (bs : List Byte) : Core :=
  let whole := (List.range (bs.length / 8 + 1)).map (fun k => (off + 7) / 8 + k)
  { c with
    scratch := Cells.fill 0 c.scratch off bs
    scratchPoison := whole.foldl (fun p g => if g * 8 + 8 ≤ off + bs.length then p.remove g else p) c.scratchPoison }

/-- The first byte of a range that lies in a poisoned granule. -/
def spPoison (c : Core) (off n : Nat) : Option Nat :=
  if c.scratchPoison.isEmpty then none
  else ((List.range n).find? (fun k => c.scratchPoison.has ((off + k) / 8))).map (· + off)

/-- The rings that waves of a key in a context use on this core (R191, R226). -/
def ringsOf (c : Core) (ctx : Nat) (key : W64) : List Ring := c.rings.filter (fun r => r.bound && r.ctx == ctx && r.key == key)

end Core

/-- The ranges of R177 for a wave: its window, the windows of members of its group on its core, the ring of its group. -/
def scratchRanges (s : State) (i : Nat) : List (Nat × Nat) :=
  match s.wave i with
  | none => []
  | some w =>
    let core := w.place.core
    let own := if w.place.scratchLen = 0 then [] else [(w.place.scratchBase, w.place.scratchLen)]
    let others := (List.range s.waves.length).filterMap (fun j => match s.wave j with
      | none => none
      | some x =>
        if j != i && x.place.core == core && x.place.ctx == w.place.ctx && w.sys.gkey != 0 && x.sys.gkey == w.sys.gkey
            && x.place.scratchLen != 0 && !x.run.evicted && x.run.status != .gone then
          some (x.place.scratchBase, x.place.scratchLen)
        else none)
    let rings := ((s.core core).ringsOf w.place.ctx w.sys.gkey).map (fun r => (r.base, 32 + 32 * r.size))
    own ++ others ++ rings

/-- Whether a range lies wholly in one of the ranges that a wave reaches (R177). -/
def reaches (rs : List (Nat × Nat)) (off n : Nat) : Bool :=
  decide (off + n ≤ 2 ^ 19) && rs.any (fun r => decide (r.1 ≤ off) && decide (off + n ≤ r.1 + r.2))

/-- The lowest byte of an access that no range reaches (R62): past the range that holds its first byte. -/
def failingByte (rs : List (Nat × Nat)) (off : Nat) : Nat :=
  (rs.filter (fun r => decide (r.1 ≤ off) && decide (off < r.1 + r.2))).foldl (fun m r => max m (r.1 + r.2)) off

/-- SCRATCH_RANGE for an access that is out of reach (R177). -/
def reachRaises (rs : List (Nat × Nat)) (lanes : W32) (off n : Nat) : List Raise :=
  if reaches rs off n then []
  else [{ cause := .scratchRange, lanes := lanes, addr := BitVec.ofNat 64 (failingByte rs off) }]

/-- The slot that holds a line in a context (R179, R207). -/
def tagSlot (c : Core) (ctx : Nat) (line : Nat) : Option Nat :=
  (c.tags.find? (fun e => e.2 == BitVec.ofNat 64 (2 ^ 63 + ctx * 2 ^ 55 + line))).map (·.1)

end Sys2Proof.Machine
end

