-- ==== Sys2Proof/Machine/LoadStore.lean ====
section
/-! DEFINITION. Loads and stores, global and in the scratchpad, and the tag instructions (09 R199-R208): addresses, the
checks of every element, and what a transaction makes of an access (R216, R218, R220). -/

namespace Sys2Proof.Machine

/-! ### Elements -/

/-- One element of a memory word: its lane, its lanes in a fault mask, its address, its parts in global memory, and the
causes that it records. -/
structure Access where
  lane : Nat
  va : Nat
  parts : List Part
  raises : List Raise
  deriving Repr

/-- The bytes of a width (R88). -/
def Width.bytes (w : Width) : Nat :=
  match w with
  | .b8 => 1
  | .b16 => 2
  | .b32 => 4
  | .b64 => 8

/-- An address: the sum modulo 2^64 (R200). -/
def addrOf (base : W64) (term : Int) : Nat := (((base.toNat : Int) + term) % 2 ^ 64).toNat

/-- The checks of one element in global memory (R201, R407). `straddles`: a misaligned element that crosses a page records
ATOMIC_STRADDLE. -/
def globalAccess (s : State) (g : Agent) (lane : Nat) (mask : W32) (need : Need) (va n align : Nat) (straddles : Bool) :
    Access :=
  let parts := partsOf s g need va n
  let mis : List Raise :=
    if aligned va align then []
    else [{ cause := if straddles && decide (1 < parts.length) then .atomicStraddle else .misaligned
            lanes := mask, addr := BitVec.ofNat 64 va }]
  { lane := lane, va := va, parts := parts
    raises := mis ++ partRaises mask parts ++ mediumRaises s mask need.reads parts }

/-- The checks of one element in the scratchpad (R177, R193, R201). -/
def scratchAccess (s : State) (w : Wave) (lane : Nat) (mask : W32) (reads : Bool) (off n align : Nat) : Access :=
  let rs := scratchRanges s s.cur
  let mis : List Raise := if aligned off align then []
    else [{ cause := .misaligned, lanes := mask, addr := BitVec.ofNat 64 off }]
  let far := reachRaises rs mask off n
  let bad : List Raise := if reads && far.isEmpty then
      (match (s.core w.place.core).spPoison off n with
        | some b => [{ cause := .poisonConsumed, lanes := mask, addr := BitVec.ofNat 64 b }]
        | none => [])
    else []
  { lane := lane, va := off, parts := [], raises := mis ++ far ++ bad }

/-- R45, R202: under .chk an element whose term lies beyond BOUND records ELEM_RANGE and nothing else. -/
def boundAccess (w : Wave) (chk : Bool) (lane : Nat) (mask : W32) (term n va : Nat) (f : Unit → Access) : Access :=
  if chk && decide (w.sys.bound.toNat < term + n) then
    { lane := lane, va := va, parts := [], raises := [{ cause := .elemRange, lanes := mask, addr := BitVec.ofNat 64 va }] }
  else f ()

/-- The elements that are performed: those that record no cause (R202, R203). -/
def performed (as : List Access) : List Access := as.filter (fun a => a.raises.isEmpty)

def allRaises (as : List Access) : List Raise := as.flatMap (·.raises)

/-! ### Transactions around an access -/

/-- R220: an access of another agent waits while it conflicts with a serialised transaction. -/
def heldByTx (s : State) (g : Agent) (writes : Bool) (as : List Access) : Bool :=
  as.any (fun a => (partRanges a.parts).any (fun r => serialHolds s g r.1 r.2 writes))

/-- R216: an access to a UO page or to host memory, inside a transaction. -/
def leavesTx (as : List Access) : Bool :=
  as.any (fun a => a.parts.any (fun q => match q.page with
    | .ok p => p.kind == .uo || p.host
    | .error _ => false))

/-- The lines of a set. -/
def lineCount (m : NatSet) : Nat := (m.filter (fun e => e.2)).length

/-- The result of a global access: `t` holds its effects. Inside a transaction, an access to a UO page or host memory and a
set that outgrows its capacity abort it (R216, R221). -/
def inTx (s t : State) (as : List Access) (rs : List Raise) : Result :=
  match s.wave s.cur with
  | none => .done t rs
  | some w =>
    if w.tx.isNone then .done t rs
    else if !rs.isEmpty then .done t rs
    else
      let abort (code : Nat) : Result := .placed (s.updWave s.cur (fun w => w.abortTx code 0 0)) []
      if leavesTx as then abort 4
      else match (t.wave s.cur).bind (·.tx) with
        | none => .done t rs
        | some x =>
          if 128 < lineCount x.reads then abort 2
          else if 32 < lineCount x.writes then abort 3
          else .done t rs

/-! ### Loads -/

/-- What a load writes for one element: the value of its bytes. -/
abbrev LoadDest := Nat → Nat → List RegWrite

/-- R205: registers of a vector element, 32 bits each. -/
def vecDest (d : VReg) (n : Nat) : LoadDest := fun lane x =>
  (List.range n).map (fun k => RegWrite.v (d.toNat + k) lane (BitVec.ofNat 32 (x / 2 ^ (32 * k))))
def scalarDest (d : SReg) : LoadDest := fun _ x => [RegWrite.s d.toNat (BitVec.ofNat 64 x)]

/-- The loads of the elements that record no cause, in lane order. -/
def loadAll (s : State) (w : Wave) (scratch : Bool) (n : Nat) (dest : LoadDest) (as : List Access) :
    State × List RegWrite :=
  as.foldl (fun (acc : State × List RegWrite) a =>
    if scratch then (acc.1, acc.2 ++ dest a.lane (leNat ((acc.1.core w.place.core).spRead a.va n)))
    else
      let r := readParts acc.1 (waveAgent w s.cur) a.parts
      (r.1, acc.2 ++ dest a.lane (leNat r.2))) (s, [])

/-- A load word (R203, R205). -/
def loadWord (s : State) (w : Wave) (la : BitVec 4) (u : Uses) (scratch : Bool) (n : Nat) (dest : LoadDest)
    (as : List Access) : Result :=
  if !scratch && heldByTx s (waveAgent w s.cur) false as then .wait (.txTurn none) s
  else
    let r := loadAll s w scratch n dest (performed as)
    inTx s (r.1.updWave s.cur (fun x => holdWrites s x la u r.2)) as (allRaises as)

/-- A store word: the bytes of each element (R203, R205, R67). -/
def storeWord (s : State) (w : Wave) (scratch : Bool) (data : Nat → List Byte) (as : List Access) : Result :=
  if !scratch && heldByTx s (waveAgent w s.cur) true as then .wait (.txTurn none) s
  else
    let t := (performed as).foldl (fun t a =>
      if scratch then t.updCore w.place.core (fun c => c.spWrite a.va (data a.lane))
      else writeParts t (waveAgent w s.cur) a.parts (data a.lane)) s
    inTx s t as (allRaises as)

/-! ### Addresses (R200) -/

/-- The elements of a vector form: `term` is what is added to sa in a lane. -/
def vecAccesses (s : State) (w : Wave) (p : Pred) (chk : Bool) (base : W64) (term : Nat → Int) (n : Nat)
    (f : Nat → W32 → Nat → Access) : List Access :=
  (lanesOf (w.active s.slotB p)).map (fun l =>
    let va := addrOf base (term l)
    boundAccess w chk l (laneBit l) (term l).toNat n va (fun _ => f l (laneBit l) va))

/-- The one element of a scalar form; its fault mask is active(S) (R202). -/
def scalarAccesses (s : State) (w : Wave) (p : Pred) (chk : Bool) (base : W64) (term : Int) (n : Nat)
    (f : Nat → W32 → Nat → Access) : List Access :=
  let act := w.active s.slotB p
  if act = 0 then []
  else
    let va := addrOf base term
    [boundAccess w chk 0 act term.toNat n va (fun _ => f 0 act va)]

/-- The term of each lane: an offset vector with a scale; an offset scalar; an immediate in elements (R89). -/
def offsetVector (w : Wave) (vb : VReg) (scale : Nat) : Nat → Int := fun l => ((w.getV vb.toNat l).toNat * scale : Nat)
def offsetBlock (w : Wave) (sb : SReg) (scale n : Nat) : Nat → Int := fun l => ((w.getS sb.toNat).toNat * scale + l * n : Nat)
def immTerm (imm : BitVec 17) (n : Nat) : Int := imm.toInt * n

/-- Natural alignment is needed of an ordered access only (R201). -/
def ordAlign (o : Ord) (n : Nat) : Nat := if o = .plain then 1 else Nat.min n 8

/-- The bytes of the registers of a vector element. -/
def vecBytes (w : Wave) (d : VReg) (n : Nat) (lane : Nat) : List Byte :=
  ((List.range ((n + 3) / 4)).flatMap (fun k => leBytes 4 (w.getV (d.toNat + k) lane).toNat)).take n

/-! ### Global loads and stores -/

def execVld (o : VMem) (s : State) : Host.Outcome State Fault Refusal :=
  runWord s (fun w =>
    let n := Width.bytes o.w
    loadWord s w o.la (Instr.uses s.ir (.vld o)) false n (vecDest o.d (Use.wide o.w))
      (vecAccesses s w o.p o.chk (w.getS o.sa.toNat) (offsetVector w o.vb (2 ^ o.scale.toNat)) n
        (fun l m va => globalAccess s (waveAgent w s.cur) l m .read va n (ordAlign o.ord n) false)))

def execVldI (o : VMemI) (s : State) : Host.Outcome State Fault Refusal :=
  runWord s (fun w =>
    let n := Width.bytes o.w
    loadWord s w o.la (Instr.uses s.ir (.vldI o)) false n (vecDest o.d (Use.wide o.w))
      (vecAccesses s w o.p false (w.getS o.sa.toNat) (fun _ => immTerm o.imm n) n
        (fun l m va => globalAccess s (waveAgent w s.cur) l m .read va n 1 false)))

def execVst (o : VMem) (s : State) : Host.Outcome State Fault Refusal :=
  runWord s (fun w =>
    let n := Width.bytes o.w
    storeWord s w false (vecBytes w o.d n)
      (vecAccesses s w o.p o.chk (w.getS o.sa.toNat) (offsetVector w o.vb (2 ^ o.scale.toNat)) n
        (fun l m va => globalAccess s (waveAgent w s.cur) l m .write va n (ordAlign o.ord n) false)))

def execVstI (o : VMemI) (s : State) : Host.Outcome State Fault Refusal :=
  runWord s (fun w =>
    let n := Width.bytes o.w
    storeWord s w false (vecBytes w o.d n)
      (vecAccesses s w o.p false (w.getS o.sa.toNat) (fun _ => immTerm o.imm n) n
        (fun l m va => globalAccess s (waveAgent w s.cur) l m .write va n 1 false)))

def execVldb (o : BMem) (s : State) : Host.Outcome State Fault Refusal :=
  runWord s (fun w =>
    let n := Width.bytes o.w
    loadWord s w o.la (Instr.uses s.ir (.vldb o)) false n (vecDest o.d (Use.wide o.w))
      (vecAccesses s w o.p o.chk (w.getS o.sa.toNat) (offsetBlock w o.sb (2 ^ o.scale.toNat) n) n
        (fun l m va => globalAccess s (waveAgent w s.cur) l m .read va n (ordAlign o.ord n) false)))

def execVldbI (o : VMemI) (s : State) : Host.Outcome State Fault Refusal :=
  runWord s (fun w =>
    let n := Width.bytes o.w
    loadWord s w o.la (Instr.uses s.ir (.vldbI o)) false n (vecDest o.d (Use.wide o.w))
      (vecAccesses s w o.p false (w.getS o.sa.toNat) (fun l => immTerm o.imm n + (l * n : Nat)) n
        (fun l m va => globalAccess s (waveAgent w s.cur) l m .read va n 1 false)))

def execVstb (o : BMem) (s : State) : Host.Outcome State Fault Refusal :=
  runWord s (fun w =>
    let n := Width.bytes o.w
    storeWord s w false (vecBytes w o.d n)
      (vecAccesses s w o.p o.chk (w.getS o.sa.toNat) (offsetBlock w o.sb (2 ^ o.scale.toNat) n) n
        (fun l m va => globalAccess s (waveAgent w s.cur) l m .write va n (ordAlign o.ord n) false)))

def execVstbI (o : VMemI) (s : State) : Host.Outcome State Fault Refusal :=
  runWord s (fun w =>
    let n := Width.bytes o.w
    storeWord s w false (vecBytes w o.d n)
      (vecAccesses s w o.p false (w.getS o.sa.toNat) (fun l => immTerm o.imm n + (l * n : Nat)) n
        (fun l m va => globalAccess s (waveAgent w s.cur) l m .write va n 1 false)))

def execSld (o : SMem) (s : State) : Host.Outcome State Fault Refusal :=
  runWord s (fun w =>
    let n := Width.bytes o.w
    loadWord s w o.la (Instr.uses s.ir (.sld o)) false n (scalarDest o.d)
      (scalarAccesses s w o.p o.chk (w.getS o.sa.toNat) ((w.getS o.sb.toNat).toNat * 2 ^ o.scale.toNat : Nat) n
        (fun l m va => globalAccess s (waveAgent w s.cur) l m .read va n (ordAlign o.ord n) false)))

def execSldI (o : SMemI) (s : State) : Host.Outcome State Fault Refusal :=
  runWord s (fun w =>
    let n := Width.bytes o.w
    loadWord s w o.la (Instr.uses s.ir (.sldI o)) false n (scalarDest o.d)
      (scalarAccesses s w o.p false (w.getS o.sa.toNat) (immTerm o.imm n) n
        (fun l m va => globalAccess s (waveAgent w s.cur) l m .read va n 1 false)))

def execSst (o : SMem) (s : State) : Host.Outcome State Fault Refusal :=
  runWord s (fun w =>
    let n := Width.bytes o.w
    storeWord s w false (fun _ => leBytes n (w.getS o.d.toNat).toNat)
      (scalarAccesses s w o.p o.chk (w.getS o.sa.toNat) ((w.getS o.sb.toNat).toNat * 2 ^ o.scale.toNat : Nat) n
        (fun l m va => globalAccess s (waveAgent w s.cur) l m .write va n (ordAlign o.ord n) false)))

def execSstI (o : SMemI) (s : State) : Host.Outcome State Fault Refusal :=
  runWord s (fun w =>
    let n := Width.bytes o.w
    storeWord s w false (fun _ => leBytes n (w.getS o.d.toNat).toNat)
      (scalarAccesses s w o.p false (w.getS o.sa.toNat) (immTerm o.imm n) n
        (fun l m va => globalAccess s (waveAgent w s.cur) l m .write va n 1 false)))

/-! ### Quads (R206): 16 bytes a lane -/

def execVldq (o : VMem) (s : State) : Host.Outcome State Fault Refusal :=
  runWord s (fun w =>
    loadWord s w o.la (Instr.uses s.ir (.vldq o)) false 16 (vecDest o.d 4)
      (vecAccesses s w o.p o.chk (w.getS o.sa.toNat) (offsetVector w o.vb (2 ^ o.scale.toNat)) 16
        (fun l m va => globalAccess s (waveAgent w s.cur) l m .read va 16 (ordAlign o.ord 16) false)))

def execVldqI (o : VMemI) (s : State) : Host.Outcome State Fault Refusal :=
  runWord s (fun w =>
    loadWord s w o.la (Instr.uses s.ir (.vldqI o)) false 16 (vecDest o.d 4)
      (vecAccesses s w o.p false (w.getS o.sa.toNat) (fun _ => immTerm o.imm 16) 16
        (fun l m va => globalAccess s (waveAgent w s.cur) l m .read va 16 1 false)))

def execVstq (o : VMem) (a16 : Bool) (s : State) : Host.Outcome State Fault Refusal :=
  runWord s (fun w =>
    storeWord s w false (vecBytes w o.d 16)
      (vecAccesses s w o.p o.chk (w.getS o.sa.toNat) (offsetVector w o.vb (2 ^ o.scale.toNat)) 16
        (fun l m va => globalAccess s (waveAgent w s.cur) l m .write va 16
          (if a16 then 16 else ordAlign o.ord 16) false)))

def execVstqI (o : VMemI) (a16 : Bool) (s : State) : Host.Outcome State Fault Refusal :=
  runWord s (fun w =>
    storeWord s w false (vecBytes w o.d 16)
      (vecAccesses s w o.p false (w.getS o.sa.toNat) (fun _ => immTerm o.imm 16) 16
        (fun l m va => globalAccess s (waveAgent w s.cur) l m .write va 16 (if a16 then 16 else 1) false)))

/-! ### Scratchpad (R205) -/

def execVlds (o : VMem) (s : State) : Host.Outcome State Fault Refusal :=
  runWord s (fun w =>
    let n := Width.bytes o.w
    loadWord s w o.la (Instr.uses s.ir (.vlds o)) true n (vecDest o.d (Use.wide o.w))
      (vecAccesses s w o.p o.chk (w.getS o.sa.toNat) (offsetVector w o.vb (2 ^ o.scale.toNat)) n
        (fun l m off => scratchAccess s w l m true off n 1)))

def execVldsI (o : VMemI) (s : State) : Host.Outcome State Fault Refusal :=
  runWord s (fun w =>
    let n := Width.bytes o.w
    loadWord s w o.la (Instr.uses s.ir (.vldsI o)) true n (vecDest o.d (Use.wide o.w))
      (vecAccesses s w o.p false (w.getS o.sa.toNat) (fun _ => immTerm o.imm n) n
        (fun l m off => scratchAccess s w l m true off n 1)))

def execVsts (o : VMem) (s : State) : Host.Outcome State Fault Refusal :=
  runWord s (fun w =>
    let n := Width.bytes o.w
    storeWord s w true (vecBytes w o.d n)
      (vecAccesses s w o.p o.chk (w.getS o.sa.toNat) (offsetVector w o.vb (2 ^ o.scale.toNat)) n
        (fun l m off => scratchAccess s w l m false off n 1)))

def execVstsI (o : VMemI) (s : State) : Host.Outcome State Fault Refusal :=
  runWord s (fun w =>
    let n := Width.bytes o.w
    storeWord s w true (vecBytes w o.d n)
      (vecAccesses s w o.p false (w.getS o.sa.toNat) (fun _ => immTerm o.imm n) n
        (fun l m off => scratchAccess s w l m false off n 1)))

/-! ### Tags (R207, R208) -/

/-- SPLK. -/
def execSplk (p : Pred) (d : SReg) (a : SReg) (s : State) : Host.Outcome State Fault Refusal :=
  scalarWord p s d (fun w =>
    match tagSlot (s.core w.place.core) w.place.ctx (bitsOf (w.getS a.toNat).toNat 55 7) with
    | some n => BitVec.ofNat 64 n
    | none => 0xFFFF_FFFF)

/-- A slot that the wave may name, or SCRATCH_RANGE (R208). -/
def tagRaises (s : State) (w : Wave) (p : Pred) (x : W64) : List Raise :=
  if 2 ^ 12 ≤ x.toNat then [{ cause := .scratchRange, lanes := w.active s.slotB p }]
  else reachRaises (scratchRanges s s.cur) (w.active s.slotB p) (128 * x.toNat) 128
        |>.map (fun r => { r with addr := 0 })

def execSptag (p : Pred) (a : SReg) (b : SReg) (s : State) : Host.Outcome State Fault Refusal :=
  onceWord p s (fun w =>
    let x := w.getS a.toNat
    let line := bitsOf (w.getS b.toNat).toNat 55 7
    let far := tagRaises s w p x
    let dup : List Raise := match tagSlot (s.core w.place.core) w.place.ctx line with
      | some n => if n = x.toNat then [] else [{ cause := .scratchTagDuplicate, lanes := w.active s.slotB p }]
      | none => []
    if !(far ++ dup).isEmpty then .done s (far ++ dup)
    else .done (s.updCore w.place.core (fun c => { c with
      tags := Cells.set 0 c.tags x.toNat (BitVec.ofNat 64 (2 ^ 63 + w.place.ctx * 2 ^ 55 + line)) })) [])

def execSptagInv (p : Pred) (a : SReg) (s : State) : Host.Outcome State Fault Refusal :=
  onceWord p s (fun w =>
    let x := w.getS a.toNat
    let far := tagRaises s w p x
    if !far.isEmpty then .done s far
    else .done (s.updCore w.place.core (fun c => { c with
      tags := Cells.set 0 c.tags x.toNat (Cells.get 0 c.tags x.toNat &&& 0x7FFF_FFFF_FFFF_FFFF) })) [])

/-! ### Reads of aligned 8-byte words for lanes: packed cache slots and routes (R172, R173, R465) -/

/-- The distinct numbers of the active lanes, in lane order. -/
def namedBy (act : W32) (f : Nat → Nat) : List Nat :=
  (lanesOf act).foldl (fun l k => if l.contains (f k) then l else l ++ [f k]) []

/-- The 8-byte word of each distinct number that the active lanes name, read once for its lanes. -/
def tableAccesses (s : State) (w : Wave) (base : W64) (act : W32) (f : Nat → Nat) : List Access :=
  (namedBy act f).map (fun b =>
    globalAccess s (waveAgent w s.cur) b (maskOf (fun l => act.getLsbD l && f l == b)) .read
      ((base.toNat + 8 * b) % 2 ^ 64) 8 1 false)

/-- The words read, by number, with the state after the reads. -/
def tableWords (s : State) (w : Wave) (as : List Access) : State × List (Nat × Nat) :=
  as.foldl (fun (acc : State × List (Nat × Nat)) a =>
    let x := readParts acc.1 (waveAgent w s.cur) a.parts
    (x.1, acc.2 ++ [(a.lane, leNat x.2)])) (s, [])

def execKvslot (p : Pred) (la : BitVec 4) (d : VReg) (a : VReg) (sb : SReg) (md : MReg) (s : State) :
    Host.Outcome State Fault Refusal :=
  runWord s (fun w =>
    let act := w.active s.slotB p
    let base := w.getS sb.toNat
    let blocks := (w.getS (sb.toNat + 1)).toNat % 2 ^ 32
    let pos (l : Nat) : Nat := (w.getV a.toNat l).toNat
    let blk (l : Nat) : Nat := pos l / 64
    let far := maskOf (fun l => act.getLsbD l && decide (blocks ≤ blk l))
    let u := Instr.uses s.ir (.kvslot p la d a sb md)
    if act = 0 then
      .done (s.setWave s.cur (holdWrites s w la u (if Pred.dead p then [] else [.m md.toNat 0]))) []
    else if base.toNat % 8 ≠ 0 then
      .done s ({ cause := .misaligned, lanes := act, addr := base } ::
        (if far = 0 then [] else [{ cause := .kvPosition, lanes := far }]))
    else if far ≠ 0 then raiseLanes s .kvPosition far 0 0
    else
      let as := tableAccesses s w base act blk
      if !(allRaises as).isEmpty then .done s (allRaises as)
      else if heldByTx s (waveAgent w s.cur) false as then .wait (.txTurn none) s
      else
        let r := tableWords s w as
        let map_ (l : Nat) : Nat := ((r.2.find? (fun e => e.1 == blk l)).map (·.2)).getD 0
        let has (l : Nat) : Bool := (map_ l).testBit (pos l % 64)
        let val (l : Nat) : W32 :=
          if has l then BitVec.ofNat 32 (popcount (BitVec.ofNat 64 (map_ l % 2 ^ (pos l % 64)))) else 0xFFFF_FFFF
        let ws := (lanesOf act).map (fun l => RegWrite.v d.toNat l (val l))
          ++ [RegWrite.m md.toNat (maskOf (fun l => act.getLsbD l && has l))]
        inTx s (r.1.updWave s.cur (fun w => holdWrites s w la u ws)) as [])

/-- TOKROUTE: the placement entries of the active lanes' experts, and each lane's rank among those of its key. -/
def execTokroute (p : Pred) (la : BitVec 4) (d : VReg) (a : VReg) (sb : SReg) (s : State) :
    Host.Outcome State Fault Refusal :=
  runWord s (fun w =>
    let act := w.active s.slotB p
    let base := w.getS sb.toNat
    let entries := (w.getS (sb.toNat + 1)).toNat % 2 ^ 32
    let expert (l : Nat) : Nat := (w.getV a.toNat l).toNat
    let far := maskOf (fun l => act.getLsbD l && decide (entries ≤ expert l))
    let u := Instr.uses s.ir (.tokroute p la d a sb)
    if act = 0 then .done s []
    else if base.toNat % 8 ≠ 0 then
      .done s ({ cause := .misaligned, lanes := act, addr := base } ::
        (if far = 0 then [] else [{ cause := .routeInvalid, lanes := far, detail := 1 }]))
    else if far ≠ 0 then raiseLanes s .routeInvalid far 1 0
    else
      let as := tableAccesses s w base act expert
      if !(allRaises as).isEmpty then .done s (allRaises as)
      else if heldByTx s (waveAgent w s.cur) false as then .wait (.txTurn none) s
      else
        let r := tableWords s w as
        let entry (l : Nat) : Nat := ((r.2.find? (fun e => e.1 == expert l)).map (·.2)).getD 0
        let unplaced := maskOf (fun l => act.getLsbD l && !(entry l).testBit 63)
        let reserved := maskOf (fun l => act.getLsbD l && (bitsOf (entry l) 62 48 != 0 || bitsOf (entry l) 23 16 != 0))
        if unplaced ≠ 0 then raiseLanes s .routeInvalid unplaced 2 0
        else if reserved ≠ 0 then raiseLanes s .routeInvalid reserved 3 0
        else
          let key (l : Nat) : Nat := bitsOf (entry l) 47 32 * 256 + bitsOf (entry l) 31 24
          let same (l : Nat) : List Nat := (lanesOf act).filter (fun k => key k == key l)
          let ws := (lanesOf act).flatMap (fun l => [
            RegWrite.v d.toNat l (BitVec.ofNat 32 (key l)),
            RegWrite.v (d.toNat + 1) l (BitVec.ofNat 32 (bitsOf (entry l) 15 0)),
            RegWrite.v (d.toNat + 2) l (BitVec.ofNat 32 ((same l).filter (fun k => decide (k < l))).length),
            RegWrite.v (d.toNat + 3) l (BitVec.ofNat 32 (same l).length)])
          inTx s (r.1.updWave s.cur (fun w => holdWrites s w la u ws)) as [])

end Sys2Proof.Machine
end

