-- ==== Sys2Proof/Machine/FullEmpty.lean ====
section
/-! DEFINITION. Atomics, full/empty words, FENCE and transactions (09 R209-R221). A change of a full/empty bit serves the
waiters of the word inside the same step (R213). -/

namespace Sys2Proof.Machine

/-! ### Atomics (R209-R211) -/

/-- op(old, x) on `n` bytes. -/
def AtomOp.apply (op : AtomOp) (n old x : Nat) : Nat :=
  let m := 2 ^ (8 * n)
  let sg (v : Nat) : Int := if v < m / 2 then v else (v : Int) - m
  match op with
  | .add => (old + x) % m
  | .fadd => (add32 (BitVec.ofNat 32 old) (BitVec.ofNat 32 x)).toNat
  | .smin => if sg old ≤ sg x then old else x
  | .smax => if sg old ≤ sg x then x else old
  | .and => old &&& x
  | .or => old ||| x
  | .xor => old ^^^ x
  | .xchg => x

/-- R211: the operations that host memory does not support. -/
def AtomOp.onHost (op : AtomOp) : Bool :=
  match op with
  | .fadd | .smin | .smax => false
  | _ => true

/-- ATOMIC_UNSUPPORTED for an element in host memory (R211). -/
def hostRaises (a : Access) (mask : W32) (ok : Bool) : Access :=
  if ok then a
  else if a.parts.any (fun q => match q.page with
      | .ok p => p.host
      | .error _ => false) then
    { a with raises := a.raises ++ [{ cause := .atomicUnsupported, lanes := mask, addr := BitVec.ofNat 64 a.va }] }
  else a

/-- One read-modify-write of an element of `n` bytes. -/
def rmw (s : State) (w : Wave) (scratch : Bool) (n : Nat) (a : Access) (f : Nat → Nat) : State × Nat :=
  if scratch then
    let old := leNat ((s.core w.place.core).spRead a.va n)
    (s.updCore w.place.core (fun c => c.spWrite a.va (leBytes n (f old))), old)
  else
    let r := readParts s (waveAgent w s.cur) a.parts
    let old := leNat r.2
    (writeParts r.1 (waveAgent w s.cur) a.parts (leBytes n (f old)), old)

/-- An atomic or compare-and-swap word: `f` gives the new value of a lane's location from the old one (R209, R210). -/
def atomWord (s : State) (w : Wave) (la : BitVec 4) (u : Uses) (scratch : Bool) (n : Nat) (dest : LoadDest)
    (f : Nat → Nat → Nat) (as : List Access) : Result :=
  if !scratch && heldByTx s (waveAgent w s.cur) true as then .wait (.txTurn none) s
  else
    let r := (performed as).foldl (fun (acc : State × List RegWrite) a =>
      let x := rmw acc.1 w scratch n a (f a.lane)
      (x.1, acc.2 ++ dest a.lane x.2)) (s, [])
    inTx s (r.1.updWave s.cur (fun x => holdWrites s x la u r.2)) as (allRaises as)

/-- The operand of a lane: `k` registers from `d`. -/
def vecOperand (w : Wave) (d k : Nat) (lane : Nat) : Nat :=
  (List.range k).foldl (fun x j => x + (w.getV (d + j) lane).toNat * 2 ^ (32 * j)) 0

/-- The elements of a vector atomic; its scale is its width (R200). -/
def atomAccesses (s : State) (w : Wave) (o : VMem) (scratch ok : Bool) : List Access :=
  let n := Width.bytes o.w
  vecAccesses s w o.p o.chk (w.getS o.sa.toNat) (offsetVector w o.vb n) n (fun l m va =>
    if scratch then scratchAccess s w l m true va n n
    else hostRaises (globalAccess s (waveAgent w s.cur) l m .both va n n true) m ok)

def execVatom (o : VMem) (op : AtomOp) (s : State) : Host.Outcome State Fault Refusal :=
  runWord s (fun w =>
    let n := Width.bytes o.w
    atomWord s w o.la (Instr.uses s.ir (.vatom o op)) false n (vecDest o.d (n / 4))
      (fun l old => AtomOp.apply op n old (vecOperand w o.d.toNat (n / 4) l)) (atomAccesses s w o false (AtomOp.onHost op)))

def execVatoms (o : VMem) (op : AtomOp) (s : State) : Host.Outcome State Fault Refusal :=
  runWord s (fun w =>
    let n := Width.bytes o.w
    atomWord s w o.la (Instr.uses s.ir (.vatoms o op)) true n (vecDest o.d (n / 4))
      (fun l old => AtomOp.apply op n old (vecOperand w o.d.toNat (n / 4) l)) (atomAccesses s w o true true))

def execVcas (o : VMem) (s : State) : Host.Outcome State Fault Refusal :=
  runWord s (fun w =>
    let n := Width.bytes o.w
    let k := n / 4
    atomWord s w o.la (Instr.uses s.ir (.vcas o)) false n (vecDest o.d k)
      (fun l old => if old = vecOperand w o.d.toNat k l then vecOperand w (o.d.toNat + k) k l else old)
      (atomAccesses s w o false true))

/-- The element of a scalar atomic. -/
def scalarAtom (s : State) (w : Wave) (o : SMem) (ok : Bool) : List Access :=
  let n := Width.bytes o.w
  scalarAccesses s w o.p o.chk (w.getS o.sa.toNat) ((w.getS o.sb.toNat).toNat * n : Nat) n (fun l m va =>
    hostRaises (globalAccess s (waveAgent w s.cur) l m .both va n n true) m ok)

def execSatom (o : SMem) (op : AtomOp) (s : State) : Host.Outcome State Fault Refusal :=
  runWord s (fun w =>
    let n := Width.bytes o.w
    atomWord s w o.la (Instr.uses s.ir (.satom o op)) false n (scalarDest o.d)
      (fun _ old => AtomOp.apply op n old ((w.getS o.d.toNat).toNat % 2 ^ (8 * n)))
      (scalarAtom s w o (AtomOp.onHost op)))

def execScas (o : SMem) (s : State) : Host.Outcome State Fault Refusal :=
  runWord s (fun w =>
    let n := Width.bytes o.w
    let low (x : W64) : Nat := x.toNat % 2 ^ (8 * n)
    atomWord s w o.la (Instr.uses s.ir (.scas o)) false n (scalarDest o.d)
      (fun _ old => if old = low (w.getS o.d.toNat) then low (w.getS (o.d.toNat + 1)) else old) (scalarAtom s w o true))

/-! ### Full/empty words (R212, R213) -/

/-- The LA field and the scalar of the D field of an F3 word. -/
def wordLa (ir : W64) : BitVec 4 := ir.extractLsb' 48 4
def wordD (ir : W64) : Nat := (ir.extractLsb' 32 6).toNat
/-- The scalar of the A field. -/
def wordA (ir : W64) : Nat := (ir.extractLsb' 21 6).toNat

/-- A waiter on a word: the wave, the slot, its ticket and its word. -/
structure Waiter where
  wave : Nat
  slotB : Bool
  ticket : Nat
  take : Bool
  word : W64
  deriving DecidableEq, Repr

/-- The resident waiters of a physical word, for full or for empty. -/
def waitersOf (s : State) (pa : Nat) (full : Bool) : List Waiter :=
  (List.range s.waves.length).flatMap (fun i => match s.wave i with
    | none => []
    | some w => if w.run.evicted then [] else
      [false, true].filterMap (fun b =>
        if !(w.slot b).valid then none
        else match (w.slot b).wait with
          | some x => (match x.kind, full with
            | .wordFull p t _, true => if p = pa then some ⟨i, b, x.ticket, t, x.word⟩ else none
            | .wordEmpty p _, false => if p = pa then some ⟨i, b, x.ticket, false, x.word⟩ else none
            | _, _ => none)
          | none => none))

/-- The waiter that began to wait first. -/
def firstWaiter (xs : List Waiter) : Option Waiter :=
  xs.foldl (fun (m : Option Waiter) x => match m with
    | none => some x
    | some y => if x.ticket < y.ticket then some x else some y) none

/-- The answer to a fabric packet reaches its command (R451-R454): at this node, or on its way to another. -/
def answerPacket (s : State) (p : FabPacket) (data : List Byte) (fault : Option (Cause × Nat × W64)) : State :=
  if p.src.toNat = s.fabric.node then
    { s with fabric := { s.fabric with cmds := s.fabric.cmds.map (fun c =>
        if c.number = p.cmd then { c with phase := 2, reply := data, fault := c.fault.orElse (fun _ => fault) } else c) } }
  else
    let r : FabReply := { src := BitVec.ofNat 12 s.fabric.node, seqNo := BitVec.ofNat 32 s.fabric.nextSeq, cmd := p.cmd
                          data := data, fault := fault.map (fun f => (BitVec.ofNat 6 f.1.code, BitVec.ofNat 8 f.2.1))
                          addr := (fault.map (·.2.2)).getD 0 }
    { s with fabric := { s.fabric with
        nextSeq := s.fabric.nextSeq + 1, sentReply := s.fabric.sentReply ++ [(p.src.toNat, r)] } }

/-- R213: a waiting LFULL completes: it reads the word, and a take empties it. A poisoned word is met when it executes
again. -/
def serveFull (s : State) (pa : Nat) (x : Waiter) : State :=
  match s.wave x.wave with
  | none => s
  | some w =>
    if s.mem.poisoned pa 8 then
      s.updWave x.wave (fun w => w.updSlot x.slotB (fun y => { y with wait := none }))
    else
      let s1 := touchTx s (waveAgent w x.wave) pa 8 x.take
      let v := BitVec.ofNat 64 (leNat (s1.readPA pa 8))
      let s2 := if x.take then { s1 with mem := s1.mem.setFull pa false } else s1
      let u := Use.waited x.word [.s (wordA x.word)] [.s (wordD x.word)]
      passSlot s2 x.wave x.slotB (fun w => w.openWindow x.slotB (wordLa x.word) u.writes u.reads [.s (wordD x.word) v])

/-- R389: the dispatchers see every setting of a full bit; a record is ready from the instant at which all its ready words are
full. -/
def watchReady (s : State) : State :=
  { s with dies := s.dies.map (fun d => { d with
      queue := d.queue.map (fun r => if r.isReady then r else { r with isReady := r.ready.all (fun pa => s.mem.isFull pa) }) }) }

/-- A full bit is set. -/
def setFullBit (s : State) (pa : Nat) : State := watchReady { s with mem := s.mem.setFull pa true }

/-- R213: a waiting SFULL completes. -/
def serveEmpty (s : State) (pa : Nat) (x : Waiter) : State :=
  match s.wave x.wave with
  | none => s
  | some w =>
    let s1 := touchTx s (waveAgent w x.wave) pa 8 true
    let s2 := s1.writePA pa (leBytes 8 (w.getS (wordD x.word)).toNat)
    let u := Use.waited x.word [.s (wordD x.word), .s (wordA x.word)] []
    passSlot (setFullBit s2 pa) x.wave x.slotB
      (fun w => w.openWindow x.slotB (wordLa x.word) u.writes u.reads [])

/-- R454: a waiting .fill signal writes its word. -/
def serveFill (s : State) (pa : Nat) (p : FabPacket) (ticket : Nat) : State :=
  let s1 := { s with fabric := { s.fabric with fills := s.fabric.fills.filter (fun e => e.2.1 != ticket) } }
  let s2 := s1.writePA pa (p.data.take 8)
  answerPacket (setFullBit s2 pa) p [] none

/-- R213: a change of the bit serves the waiters of a word in the order in which they began to wait. -/
def serveWord : Nat → State → Nat → State
  | 0, s, _ => s
  | n + 1, s, pa =>
    if s.mem.isFull pa then
      match firstWaiter (waitersOf s pa true) with
      | none => s
      | some x => serveWord n (serveFull s pa x) pa
    else
      let fill := s.fabric.fills.find? (fun e => e.2.2 == pa)
      match firstWaiter (waitersOf s pa false), fill with
      | none, none => s
      | some x, none => serveWord n (serveEmpty s pa x) pa
      | none, some f => serveWord n (serveFill s pa f.1 f.2.1) pa
      | some x, some f =>
        if x.ticket < f.2.1 then serveWord n (serveEmpty s pa x) pa else serveWord n (serveFill s pa f.1 f.2.1) pa

/-- Serves every waiter that can be served. -/
def serveAll (s : State) (pa : Nat) : State := serveWord (2 * s.waves.length + s.fabric.fills.length + 1) s pa

/-- Sets the bit of a word and serves its waiters. -/
def setWordBit (s : State) (pa : Nat) (full : Bool) : State :=
  serveAll (if full then setFullBit s pa else { s with mem := s.mem.setFull pa false }) pa

/-- The checks of a full/empty word (R201, R212, R407). -/
def fullAccess (s : State) (w : Wave) (o : FEOp) (need : Need) (straddles : Bool) : Access :=
  let act := w.active s.slotB o.p
  let va := (w.getS o.sa.toNat).toNat
  let a := globalAccess s (waveAgent w s.cur) 0 act need va 8 8 straddles
  let untagged := a.parts.any (fun q => match q.page with
    | .ok p => !p.tag
    | .error _ => false)
  if untagged then
    { a with raises := a.raises ++ [{ cause := .tagNotEnabled, lanes := act, addr := BitVec.ofNat 64 va }] }
  else a

/-- A full/empty word: `f` gets the physical address of its word. -/
def fullWord (o : FEOp) (s : State) (need : Need) (straddles : Bool) (f : Wave → Nat → W64 → Result) :
    Host.Outcome State Fault Refusal :=
  onceWord o.p s (fun w =>
    let a := fullAccess s w o need straddles
    if !a.raises.isEmpty then .done s a.raises
    else if heldByTx s (waveAgent w s.cur) need.writes [a] then .wait (.txTurn none) s
    else match partRanges a.parts with
      | (pa, _) :: _ => f { w with tx := w.tx } pa (w.getS o.sa.toNat)
      | [] => .done s [])

/-- LFULL and LFULL.take: the word is full and nobody waits for it, or the slot waits. -/
def loadFull (o : FEOp) (take : Bool) (s : State) (u : Uses) : Host.Outcome State Fault Refusal :=
  fullWord o s (if take then .both else .read) false (fun w pa va =>
    if s.mem.isFull pa && (waitersOf s pa true).isEmpty then
      let s1 := touchTx s (waveAgent w s.cur) pa 8 take
      let v := BitVec.ofNat 64 (leNat (s1.readPA pa 8))
      let s2 := s1.updWave s.cur (fun x => holdWrites s x o.la u [.s o.d.toNat v])
      .done (if take then setWordBit s2 pa false else s2) []
    else .wait (.wordFull pa take va) s)

def execLfull (o : FEOp) (s : State) : Host.Outcome State Fault Refusal :=
  loadFull o false s (Instr.uses s.ir (.lfull o))
def execLfullTake (o : FEOp) (s : State) : Host.Outcome State Fault Refusal :=
  loadFull o true s (Instr.uses s.ir (.lfullTake o))

/-- Writes the word of SFULL and sets it full. -/
def fillWord (s : State) (w : Wave) (pa : Nat) (x : W64) : State :=
  setWordBit ((touchTx s (waveAgent w s.cur) pa 8 true).writePA pa (leBytes 8 x.toNat)) pa true

def execSfull (o : FEOp) (s : State) : Host.Outcome State Fault Refusal :=
  let u := Instr.uses s.ir (.sfull o)
  fullWord o s .both false (fun w pa va =>
    if !s.mem.isFull pa && (waitersOf s pa false).isEmpty then
      .done (fillWord (s.updWave s.cur (fun x => holdWrites s x o.la u [])) w pa (w.getS o.d.toNat)) []
    else .wait (.wordEmpty pa va) s)

/-- SFULL.nb never waits (R212). -/
def execSfullNb (o : FEOp) (md : MReg) (s : State) : Host.Outcome State Fault Refusal :=
  let u := Instr.uses s.ir (.sfullNb o md)
  fullWord o s .both false (fun w pa _ =>
    if s.mem.isFull pa then .done (s.updWave s.cur (fun x => holdWrites s x o.la u [.m md.toNat 0])) []
    else .done (fillWord (s.updWave s.cur (fun x => holdWrites s x o.la u [.m md.toNat allLanes])) w pa
      (w.getS o.d.toNat)) [])

def execFempty (o : FEOp) (s : State) : Host.Outcome State Fault Refusal :=
  let u := Instr.uses s.ir (.fempty o)
  fullWord o s .both true (fun w pa _ =>
    let full := s.mem.isFull pa
    let s1 := (touchTx s (waveAgent w s.cur) pa 8 true).updWave s.cur (fun x =>
      holdWrites s x o.la u [.s o.d.toNat (if full then 1 else 0)])
    .done (if full then setWordBit s1 pa false else s1) [])

/-! ### FENCE (R214) -/

/-- FENCE: every step already takes its place in one order (log 9), so only .eng waits. -/
def execFence (p : Pred) (_kind : FenceKind) (_scope : FenceScope) (eng : Bool) (s : State) :
    Host.Outcome State Fault Refusal :=
  onceWord p s (fun w =>
    if !eng then .done s []
    else
      let upto := match (w.slot s.slotB).wait with
        | some x => (match x.kind with
          | .engines n => n
          | _ => s.ticket)
        | none => s.ticket
      if postedBefore s s.cur upto then .wait (.engines upto) s else .done s [])

/-! ### Transactions (R215-R221) -/

/-- Open transactions of other waves than wave `i` whose scope meets that of a transaction on its core. -/
def otherTx (s : State) (i : Nat) (w : Wave) (cluster : Bool) (p : Tx → Bool) : Bool :=
  (List.range s.waves.length).any (fun j => j != i && (match s.wave j with
    | none => false
    | some x => match x.tx with
      | none => false
      | some t => p t && !t.conflict && (if t.cluster || cluster then x.place.cluster == w.place.cluster
          else x.place.core == w.place.core)))

/-- R220: the TXBEGIN of a wave waits, as a serialised transaction of its scope runs, or as it is to run serialised and
another transaction of its scope is open. -/
def beginHeld (s : State) (i : Nat) (w : Wave) (cluster : Bool) : Bool :=
  otherTx s i w cluster (·.serial) || (w.txCnt == 8 && otherTx s i w cluster (fun _ => true))

/-- R220: an access of a wave waits, as a serialised transaction runs in whose scope the wave lies. -/
def accessHeld (s : State) (i : Nat) (w : Wave) : Bool :=
  (List.range s.waves.length).any (fun j => j != i && (match s.wave j with
    | none => false
    | some x => match x.tx with
      | none => false
      | some t => t.serial && !t.conflict && inTxScope x t (waveAgent w i)))

/-- TXBEGIN (R215, R220). -/
def execTxbegin (p : Pred) (dist : BitVec 11) (cl : Bool) (s : State) : Host.Outcome State Fault Refusal :=
  onceWord p s (fun w =>
    let serial := w.txCnt == 8
    if (w.slot (!s.slotB)).valid || w.tx.isSome then raiseActive s w p .txForbidden 0
    else if beginHeld s s.cur w cl then .wait (.txTurn (some cl)) s
    else
      let x := w.slot s.slotB
      let t : Tx := { slotB := s.slotB, mask := x.mask, rpc := x.rpc, depth := w.stack.length
                      abortPc := x.pc + 8 * dist.setWidth 64, cluster := cl, order := s.ticket, reads := [], writes := []
                      written := [], serial := serial, conflict := false }
      let old := w.sys.txstat.toNat
      let stat := txStat (bitsOf old 29 24) (bitsOf old 23 16) (w.txCnt) serial true cl (old % 16)
      .done (s.setWave s.cur { w with tx := some t, sys := { w.sys with txstat := stat } }).nextTicket [])

/-- Consecutive written bytes, as ranges. -/
def runsOf : Cells (Option Byte) → List (Nat × List Byte)
  | [] => []
  | (k, v) :: rest =>
    let b := v.getD 0
    match runsOf rest with
    | (k2, bs) :: more => if k2 = k + 1 then (k, b :: bs) :: more else (k, [b]) :: (k2, bs) :: more
    | [] => [(k, [b])]

/-- R412: SHARED_PAGE_WRITE for the pages of a transaction's stores that a FORKPG has shared since. -/
def sharedSince (s : State) (g : Agent) (lanes : W32) (t : Tx) : List Raise :=
  (t.pages.flatMap (fun va => partRaises lanes (partsOf s g .write va 1))).filter (fun r => r.cause == .sharedPageWrite)

/-- TXEND (R217). The stores are performed here, so one to a page that has been shared since raises its cause here, which
aborts the transaction (R219, R412). -/
def execTxend (s : State) : Host.Outcome State Fault Refusal :=
  onceWord (wordPred s.ir) s (fun w =>
    match w.tx with
    | none => .done s []
    | some t =>
      if t.conflict then .placed (s.updWave s.cur (fun w => w.abortTx 1 0 0)) []
      else
        let s1 := (runsOf t.written).foldl (fun s r => s.writePA r.1 r.2) s
        let rs := sharedSince s (waveAgent w s.cur) (w.active s.slotB (wordPred s.ir)) t
        .done (s1.updWave s.cur (fun w => { w with
          tx := none
          sys := { w.sys with txstat := txStat 0 0 0 t.serial false t.cluster 0 } })) rs)

/-- TXABORT (R217). -/
def execTxabort (s : State) : Host.Outcome State Fault Refusal :=
  onceWord (wordPred s.ir) s (fun w =>
    if w.tx.isNone then .done s []
    else .placed (s.updWave s.cur (fun w => w.abortTx 5 0 (s.ir.toNat % 256))) [])

/-- TX_CONFLICT_ABORT (R218, R219): the transaction of a wave that met a conflict aborts. -/
def execTxConflictAbort (s : State) : Host.Outcome State Fault Refusal :=
  match s.target with
  | .wave i => match (s.wave i).bind (·.tx) with
    | some t => if t.conflict then .next (settleOrRetire (s.updWave i (fun w => w.abortTx 1 0 0)) i)
      else .refused .notEnabled
    | none => .refused .notEnabled
  | _ => .refused .notEnabled

end Sys2Proof.Machine
end

