-- ==== Sys2Proof/Machine/Recurrence.lean ====
section
/-! DEFINITION. The arithmetic of the recurrence array (11_array R245-R269, 01_numbers R26-R31, R36): tile control
registers, contraction and binary mode, micro-ops and rules, the forward and the backward sweep, the epilogue. Nothing here
reads the state. -/

namespace Sys2Proof.Machine

/-! ### Tiles (R245, R246) -/

/-- The fields of a tile control register. -/
structure Tcr where
  fmt : Nat
  rows : Nat
  cols : Nat
  strip : Bool
  deriving DecidableEq, Repr

namespace Tiles

def fields (x : W32) : Tcr :=
  { fmt := bitsOf x.toNat 3 0, rows := bitsOf x.toNat 9 4 + 1, cols := bitsOf x.toNat 19 10 + 1, strip := x.getLsbD 20 }

/-- The width of an element in bits (R246). -/
def width (fmt : Nat) : Nat := [8, 8, 8, 16, 16, 32, 1].getD fmt 8

/-- The checks of R245 and R246. -/
def tcrOk (x : W32) : Bool :=
  let t := fields x
  bitsOf x.toNat 31 21 == 0 && decide (t.fmt ≤ 6) && decide (t.rows * t.cols * width t.fmt ≤ 8192 * 8)
    && (!t.strip || (decide (t.fmt ≤ 1) && t.cols % 32 == 0)) && (t.fmt != 6 || t.cols % 8 == 0)

/-- The classes of formats that may meet in one contraction (R248). -/
def formatClass (fmt : Nat) : Nat := [0, 0, 1, 2, 2, 3, 4].getD fmt 5

/-- The bytes of one row of elements. -/
def rowBytes (t : Tcr) : Nat := t.cols * width t.fmt / 8
/-- RS and SS of the canonical layout (R247). -/
def rowStride (t : Tcr) : Nat := 128 * ((rowBytes t + 127) / 128)
def stripStride (t : Tcr) : Nat := if t.strip then 8 * ((t.cols + 255) / 256) else 0
/-- The bytes that the canonical layout covers. -/
def layoutBytes (t : Tcr) : Nat := t.rows * (rowStride t + stripStride t)
/-- The bytes of a tile's elements, rounded up (R289). -/
def elemBytes (t : Tcr) : Nat := (t.rows * t.cols * width t.fmt + 7) / 8

end Tiles

/-- Splits a list into parts of `n`. -/
def splitBy {α : Type} (n : Nat) : Nat → List α → List (List α)
  | 0, _ => []
  | k + 1, l => if l.isEmpty then [] else l.take n :: splitBy n k (l.drop n)

/-- All parts of `n` elements of a list. -/
def partsBy {α : Type} (n : Nat) (l : List α) : List (List α) := splitBy n (l.length / n + 1) l

/-! ### Contraction (R248-R251) -/

/-- The contents of a tile that an operation reads: its control register, its element bytes, its strip bytes. -/
structure TileData where
  tcr : Tcr
  bytes : List Byte
  strips : List Byte
  deriving DecidableEq, Repr

namespace Contract

/-- The elements of a row as numbers. -/
def rowCodes (t : TileData) (r : Nat) : List Nat :=
  let n := Tiles.rowBytes t.tcr
  (partsBy (Tiles.width t.tcr.fmt / 8) ((t.bytes.drop (r * n)).take n)).map leNat

/-- The exact values of a row of a float format, with the scale of each 32-element group applied (R29, R24). -/
def rowVals (t : TileData) (r : Nat) : List FVal :=
  let f := [Fmt.e4m3, Fmt.e5m2, Fmt.e4m3, Fmt.bf16, Fmt.fp16].getD t.tcr.fmt Fmt.fp32
  (rowCodes t r).mapIdx (fun k x =>
    let v := f.decode x
    if t.tcr.strip then scaled v (t.strips.getD (32 * r + k / 32) 0).toNat else v)

/-- One cell of an 8-bit or 16-bit float contraction (R249). -/
def floatCell (n aprom : Nat) (a b : List FVal) (f : W32) : W32 :=
  let groups := partsBy n (List.zipWith (fun x y => (FVal.mul x y).1) a b)
  let r := groups.foldl (fun (acc : W32 × Nat × Nat) g =>
    let p := gsum acc.2.1 g
    if acc.2.2 + 1 = aprom then (add32 acc.1 (promote26 p), 0, 0) else (acc.1, p, acc.2.2 + 1)) (f, 0, 0)
  if r.2.2 = 0 then r.1 else add32 r.1 (promote26 r.2.1)

/-- One cell of an F32 contraction (R250). -/
def f32Cell (a b : List Nat) (f : W32) : W32 :=
  (List.zip a b).foldl (fun acc e => fma32 (BitVec.ofNat 32 e.1) (BitVec.ofNat 32 e.2) acc) f

/-- One cell of an I8 contraction (R250). -/
def i8Cell (a b : List Nat) (f : W32) : W32 :=
  let sx (x : Nat) : Int := if 128 ≤ x then (x : Int) - 256 else x
  BitVec.ofInt 32 ((List.zip a b).foldl (fun acc e => acc + sx e.1 * sx e.2) f.toInt)

/-- One cell of binary mode (R251). -/
def binCell (op : BinOp) (k : Nat) (a b : Nat) (f : W32) : W32 :=
  let ones (x : Nat) : Int := popcount (BitVec.ofNat k x)
  f + BitVec.ofInt 32 (match op with
    | .and => ones (a &&& b)
    | .xor => ones (a ^^^ b)
    | .pm => k - 2 * ones (a ^^^ b))

end Contract

/-- Element (i, j) of a frame stands at 64 i + j. A change of the M×N region of a frame. -/
def mapRegion (m n : Nat) (f : Nat → Nat → W32 → W32) (frame : List W32) : List W32 :=
  frame.mapIdx (fun x v => if x / 64 < m ∧ x % 64 < n then f (x / 64) (x % 64) v else v)

/-- MMA on one core (R248-R250). -/
def contractTiles (a b : TileData) (aprom : Nat) (frame : List W32) : List W32 :=
  let m := a.tcr.rows
  let n := b.tcr.rows
  match a.tcr.fmt with
  | 2 =>
    let ra := (List.range m).map (Contract.rowCodes a)
    let rb := (List.range n).map (Contract.rowCodes b)
    mapRegion m n (fun i j f => Contract.i8Cell (ra.getD i []) (rb.getD j []) f) frame
  | 5 =>
    let ra := (List.range m).map (Contract.rowCodes a)
    let rb := (List.range n).map (Contract.rowCodes b)
    mapRegion m n (fun i j f => Contract.f32Cell (ra.getD i []) (rb.getD j []) f) frame
  | fmt =>
    let ra := (List.range m).map (Contract.rowVals a)
    let rb := (List.range n).map (Contract.rowVals b)
    let g := if fmt ≤ 1 then 16 else 4
    mapRegion m n (fun i j f => Contract.floatCell g aprom (ra.getD i []) (rb.getD j []) f) frame

/-- MBIN on one core (R251, R292). -/
def binaryTiles (a b : TileData) (op : BinOp) (frame : List W32) : List W32 :=
  let k := a.tcr.cols
  let row (t : TileData) (r : Nat) : Nat := leNat ((t.bytes.drop (r * (k / 8))).take (k / 8))
  let ra := (List.range a.tcr.rows).map (row a)
  let rb := (List.range b.tcr.rows).map (row b)
  mapRegion a.tcr.rows b.tcr.rows (fun i j f => Contract.binCell op k (ra.getD i 0) (rb.getD j 0) f) frame

/-! ### Micro-ops and rules (R252-R257) -/

namespace Rule

def op (u : W32) : Nat := bitsOf u.toNat 31 27
def dst (u : W32) : Nat := bitsOf u.toNat 26 24
/-- The operand count of an operation (R254). -/
def arity (o : Nat) : Nat := [1, 2, 2, 2, 3, 2, 2, 3, 3, 3, 1, 1, 1, 1, 1, 1, 3].getD o 0
/-- The operand codes that an operation uses. -/
def codes (u : W32) : List Nat := [bitsOf u.toNat 23 20, bitsOf u.toNat 19 16, bitsOf u.toNat 15 12].take (arity (op u))

/-- The checks of one micro-op (R253, R254). -/
def uopOk (epi : Bool) (u : W32) : Bool :=
  decide (op u ≤ 16) && decide (dst u ≤ 5) && bitsOf u.toNat 11 0 == 0
    && (epi || !(op u == 14 || op u == 15 || op u == 16))
    && (op u != 9 || (!epi && dst u == 5))
    && (epi || dst u != 5 || op u == 9)
    && (op u != 16 || dst u == 0 || dst u == 2)
    && (!epi || !(codes u).contains 2)

/-- The checks of a rule (R252-R254). -/
def ok (epi : Bool) (us : List W32) : Bool :=
  us.all (uopOk epi) && us.any (fun u => dst u == 4) && (epi || decide ((us.filter (fun u => dst u == 5)).length ≤ 1))

/-- Whether a micro-op reads an operand code; fields that an operation does not use are ignored (R253). -/
def readsCode (us : List W32) (c : Nat) : Bool := us.any (fun u => (codes u).contains c)
/-- R265: a rule that MBWD can run. -/
def differentiable (us : List W32) : Bool := us.all (fun u => !([9, 14, 15, 16].contains (op u)))
/-- R263: a rule that writes TB. -/
def writesTb (us : List W32) : Bool := us.any (fun u => dst u == 5)

def isNan32 (x : W32) : Bool := (val32 x).isNan
def isInf32 (x : W32) : Bool := (val32 x).isInf
/-- The canonical NaN for any NaN (R31). -/
def canon (x : W32) : W32 := if isNan32 x then nan32 else x
def less (a b : W32) : Bool := FVal.cmp (val32 a) (val32 b) == -1

/-- The position of the first least (or greatest) operand (R256); none when an operand is NaN. -/
def selected (isMax : Bool) (xs : List W32) : Option Nat :=
  if xs.any isNan32 then none
  else some ((List.range xs.length).foldl (fun best k =>
    let a := xs.getD best 0
    let b := xs.getD k 0
    if (if isMax then less a b else less b a) then k else best) 0)

def exp2 (x : W32) : W32 := BitVec.ofNat 32 (exp2Cr (val32 x)).1
def log2 (x : W32) : W32 := BitVec.ofNat 32 (log2Cr (val32 x)).1

/-- SMIN3 (R257). -/
def smin3 (xs : List W32) (k : List W32) : W32 :=
  match selected false xs with
  | none => nan32
  | some b =>
    let m := xs.getD b 0
    if isInf32 m then m
    else
      let es := ((List.range xs.length).filter (· != b)).map (fun j =>
        let v := xs.getD j 0
        if isInf32 v then 0 else exp2 (mul32 (sub32 m v) (k.getD 0 0)))
      let s := add32 (add32 0x3F80_0000 (es.getD 0 0)) (es.getD 1 0)
      sub32 m (mul32 (log2 s) (k.getD 1 0))

/-- One operation on its operands (R254); the second result is that of TWOSUM. -/
def apply (o : Nat) (xs k : List W32) : W32 × W32 :=
  let x := xs.getD 0 0
  let y := xs.getD 1 0
  let z := xs.getD 2 0
  let pick (isMax : Bool) : W32 := match selected isMax xs with
    | none => nan32
    | some b => xs.getD b 0
  match o with
  | 0 => (canon x, 0)
  | 1 => (add32 x y, 0)
  | 2 => (sub32 x y, 0)
  | 3 => (mul32 x y, 0)
  | 4 => (fma32 x y z, 0)
  | 5 => (pick false, 0)
  | 6 => (pick true, 0)
  | 7 => (pick false, 0)
  | 8 => (smin3 xs k, 0)
  | 9 => (BitVec.ofNat 32 ((selected false xs).getD 3), 0)
  | 10 => (canon (x &&& 0x7FFF_FFFF), 0)
  | 11 => (canon (neg32 x), 0)
  | 12 => (exp2 x, 0)
  | 13 => (log2 x, 0)
  | 14 => (BitVec.ofNat 32 (sigmCr (val32 x)).1, 0)
  | 15 => (BitVec.ofNat 32 (tanhCr (val32 x)).1, 0)
  | _ => let r := pairAdd x y z
         (r.1, r.2.1)

end Rule

/-- The operands of a cell: L, U, D, A, B, C (R255). -/
structure CellIn where
  l : W32
  u : W32
  d : W32
  a : W32
  b : W32
  c : W32
  deriving DecidableEq, Repr

/-- What one micro-op read and gave. -/
structure UopTrace where
  op : Nat
  dst : Nat
  codes : List Nat
  xs : List W32
  result : W32
  deriving DecidableEq, Repr

/-- The values of a cell as its micro-ops run. -/
structure CellRun where
  t : List W32 := [0, 0, 0, 0]
  h : W32 := 0
  /-- TB, or H2 (R253). -/
  x2 : Option W32 := none
  trace : List UopTrace := []
  deriving DecidableEq, Repr

/-- The value of an operand code (R253, R255). -/
def operandOf (x : CellIn) (k t : List W32) (c : Nat) : W32 :=
  match c with
  | 0 => x.l
  | 1 => x.u
  | 2 => x.d
  | 3 => x.a
  | 4 => x.b
  | 5 => x.c
  | _ =>
    if c < 10 then k.getD (c - 6) 0
    else if c < 14 then t.getD (c - 10) 0
    else if c = 14 then 0 else 0x3F80_0000

/-- One micro-op of a cell; the trace stands newest first. -/
def runUop (x : CellIn) (k : List W32) (r : CellRun) (u : W32) : CellRun :=
  let cs := Rule.codes u
  let xs := cs.map (operandOf x k r.t)
  let v := Rule.apply (Rule.op u) xs k
  let d := Rule.dst u
  let r1 := { r with trace := { op := Rule.op u, dst := d, codes := cs, xs := xs, result := v.1 } :: r.trace }
  if Rule.op u = 16 then { r1 with t := (r.t.set d v.1).set (d + 1) v.2 }
  else if d < 4 then { r1 with t := r.t.set d v.1 }
  else if d = 4 then { r1 with h := v.1 }
  else { r1 with x2 := some v.1 }

/-- A cell (R255). -/
def runCell (us k : List W32) (x : CellIn) : CellRun := us.foldl (runUop x k) {}

/-! ### The forward sweep (R258-R263) -/

/-- Edges brought to one base, and rebased under .rb (R261): top, left, the output base. -/
def prepareEdges (top left : List W32) (topBase leftBase : W32) (rb : Bool) : List W32 × List W32 × W32 :=
  let left1 := if leftBase = topBase then left
    else left.map (fun v => add32 v (sub32 leftBase topBase))
  if !rb then (top, left1, topBase)
  else
    let finite := (top ++ left1).filter isFinite32
    let beta := match finite with
      | [] => 0
      | v :: vs => vs.foldl (fun b x => if Rule.less x b then x else b) v
    (top.map (fun v => sub32 v beta), left1.map (fun v => sub32 v beta), add32 topBase beta)

/-- One row of the plane: over the columns' (U, B, C), with the running L and D. -/
def sweepRow (us k : List W32) (a : W32) : W32 → W32 → List (W32 × W32 × W32) → List (W32 × Option W32)
  | _, _, [] => []
  | l, d, (u, b, c) :: rest =>
    let r := runCell us k { l := l, u := u, d := d, a := a, b := b, c := c }
    (r.h, r.x2) :: sweepRow us k a r.h u rest

/-- The rows of the plane, over the rows' (left value, A, C values). -/
def sweepRows (us k colv : List W32) : W32 → List W32 → List (W32 × W32 × List W32) → List (List (W32 × Option W32))
  | _, _, [] => []
  | d0, up, (l, a, cs) :: rest =>
    let row := sweepRow us k a l d0 (List.zip up (List.zip colv cs))
    row :: sweepRows us k colv l (row.map (·.1)) rest

/-- What a sweep reads: the rule, its constants, the prepared edges, the row and column vectors and the C values. -/
structure Plane where
  us : List W32
  k : List W32
  top : List W32
  left : List W32
  rowv : List W32
  colv : List W32
  c : List (List W32)
  deriving DecidableEq, Repr

/-- The plane H with its traceback codes. -/
def Plane.sweep (p : Plane) : List (List (W32 × Option W32)) :=
  sweepRows p.us p.k p.colv (p.top.getD 0 0) (p.top.drop 1) (List.zip p.left (List.zip p.rowv p.c))

/-! ### The backward sweep (R264-R267) -/

/-- x / y, correctly rounded. -/
def div32 (x y : W32) : W32 :=
  match val32 x, val32 y with
  | .nan _, _ | _, .nan _ => nan32
  | .inf _, .inf _ => nan32
  | .inf a, .num b _ _ => BitVec.ofNat 32 (inf32 (a != b))
  | .num a _ _, .inf b => BitVec.ofNat 32 (zero32 (a != b))
  | .num a m e, .num b n f =>
    if n = 0 then (if m = 0 then nan32 else BitVec.ofNat 32 (inf32 (a != b)))
    else if m = 0 then BitVec.ofNat 32 (zero32 (a != b))
    else BitVec.ofNat 32 (roundNum Fmt.fp32 rmRNE false (a != b) (m * 2 ^ 80 / n) (e - f - 80) (m * 2 ^ 80 % n != 0)).1

abbrev ln2Word : W32 := 0x3F31_7218

/-- The contributions of a micro-op to its operands (R265); none where an operand receives nothing. -/
def contributions (k : List W32) (u : UopTrace) (g : W32) : List (Option W32) :=
  let x := u.xs.getD 0 0
  let y := u.xs.getD 1 0
  match u.op with
  | 0 => [some g]
  | 1 => [some g, some g]
  | 2 => [some g, some (neg32 g)]
  | 3 => [some (mul32 g y), some (mul32 g x)]
  | 4 => [some (mul32 g y), some (mul32 g x), some g]
  | 8 =>
    (List.range 3).map (fun j =>
      let w := if Rule.isInf32 u.result then
          (if Rule.selected false u.xs = some j then (0x3F80_0000 : W32) else 0)
        else Rule.exp2 (mul32 (sub32 u.result (u.xs.getD j 0)) (k.getD 0 0))
      some (mul32 g w))
  | 10 => [some (if x.getLsbD 31 then neg32 g else g)]
  | 11 => [some (neg32 g)]
  | 12 => [some (mul32 (mul32 g u.result) ln2Word)]
  | 13 => [some (div32 g (mul32 x ln2Word))]
  | o =>
    let b := match Rule.selected (o == 6) u.xs with
      | some b => b
      | none => ((List.range u.xs.length).find? (fun j => Rule.isNan32 (u.xs.getD j 0))).getD 0
    (List.range u.xs.length).map (fun j => if j = b then some g else none)

/-- The weights wL, wU, wD, wC of a cell (R265): adjoints stand at their operand codes, that of H at 16. -/
def cellWeights (us k : List W32) (x : CellIn) : W32 × W32 × W32 × W32 :=
  let adj := (runCell us k x).trace.foldl (fun (adj : Cells W32) u =>
    let key := if u.dst = 4 then 16 else 10 + u.dst
    let g := Cells.get 0 adj key
    let adj1 := Cells.set 0 adj key 0
    (List.zip u.codes (contributions k u g)).foldl (fun a e => match e.2 with
      | some v => if [0, 1, 2, 5, 10, 11, 12, 13].contains e.1 then Cells.set 0 a e.1 (add32 (Cells.get 0 a e.1) v) else a
      | none => a) adj1) [(16, 0x3F80_0000)]
  (Cells.get 0 adj 0, Cells.get 0 adj 1, Cells.get 0 adj 2, Cells.get 0 adj 5)

/-- The operands of the cells of a row, from the stored plane. -/
def rowInputs (p : Plane) (h : List (List W32)) (i : Nat) : List CellIn :=
  let row := h.getD i []
  let ups := if i = 0 then p.top.drop 1 else h.getD (i - 1) []
  let d0 := if i = 0 then p.top.getD 0 0 else p.left.getD (i - 1) 0
  let ls := p.left.getD i 0 :: row
  let ds := d0 :: ups
  (List.range row.length).map (fun j =>
    { l := ls.getD j 0, u := ups.getD j 0, d := ds.getD j 0, a := p.rowv.getD i 0, b := p.colv.getD j 0
      c := (p.c.getD i []).getD j 0 })

/-- One row of E, from the right (R266): the weights of the row, the row below with its weights, and the seeds. -/
def adjointRow (seeds : List W32) (ws : List (W32 × W32 × W32 × W32)) (below : Option (List W32 × List (W32 × W32 × W32 × W32))) :
    List W32 :=
  let n := seeds.length
  (List.range n).foldr (fun j (es : List W32) =>
    let e0 := seeds.getD j 0
    let e1 := if j + 1 < n then add32 e0 (mul32 (es.getD 0 0) (ws.getD (j + 1) (0, 0, 0, 0)).1) else e0
    let e2 := match below with
      | none => e1
      | some (eb, wb) =>
        let d := add32 e1 (mul32 (eb.getD j 0) (wb.getD j (0, 0, 0, 0)).2.1)
        if j + 1 < n then add32 d (mul32 (eb.getD (j + 1) 0) (wb.getD (j + 1) (0, 0, 0, 0)).2.2.1) else d
    e2 :: es) []

/-- What MBWD computes: the gradient, and the left and top adjoint edges. -/
structure Backward where
  g : List (List W32)
  ladj : List W32
  tadj : List W32
  deriving DecidableEq, Repr

/-- The backward sweep over the stored plane `h` with its seeds (R264-R267). -/
def Plane.backward (p : Plane) (h : List (List W32)) (gR gB : List W32) : Backward :=
  let m := p.left.length
  let n := p.top.length - 1
  let ws := (List.range m).map (fun i => (rowInputs p h i).map (cellWeights p.us p.k))
  let wAt (i j : Nat) : W32 × W32 × W32 × W32 := (ws.getD i []).getD j (0, 0, 0, 0)
  let seed (i j : Nat) : W32 :=
    if i + 1 = m ∧ j + 1 = n then add32 (gR.getD i 0) (gB.getD n 0)
    else if j + 1 = n then gR.getD i 0
    else if i + 1 = m then gB.getD (1 + j) 0
    else 0
  let es := (List.range m).foldr (fun i (rows : List (List W32)) =>
    adjointRow ((List.range n).map (seed i)) (ws.getD i [])
      (match rows with
        | [] => none
        | eb :: _ => some (eb, ws.getD (i + 1) [])) :: rows) []
  let e (i j : Nat) : W32 := (es.getD i []).getD j 0
  { g := es.mapIdx (fun i row => row.mapIdx (fun j v => mul32 v (wAt i j).2.2.2))
    ladj := (List.range m).map (fun i =>
      let v := add32 (if i + 1 = m then gB.getD 0 0 else 0) (mul32 (e i 0) (wAt i 0).1)
      if i + 1 < m then add32 v (mul32 (e (i + 1) 0) (wAt (i + 1) 0).2.2.1) else v)
    tadj := add32 0 (mul32 (e 0 0) (wAt 0 0).2.2.1) :: (List.range n).map (fun j =>
      let v := add32 0 (mul32 (e 0 j) (wAt 0 j).2.1)
      if j + 1 < n then add32 v (mul32 (e 0 (j + 1)) (wAt 0 (j + 1)).2.2.1) else v) }

/-! ### The epilogue (R268) -/

/-- What the epilogue of one core reads: the rule, the extra frames, and the row and column vectors. -/
structure Epilogue where
  us : List W32
  k : List W32
  l : Option (List W32)
  u : Option (List W32)
  rowv : List W32
  colv : List W32
  deriving DecidableEq, Repr

/-- H and H2 of every element of the M×N region of `c` (R268); elements outside are none. -/
def Epilogue.run (p : Epilogue) (m n : Nat) (c : List W32) : List (Option (W32 × Option W32)) :=
  c.mapIdx (fun x v =>
    if x / 64 < m ∧ x % 64 < n then
      let at0 (f : Option (List W32)) : W32 := match f with
        | some xs => xs.getD x 0
        | none => 0
      let r := runCell p.us p.k
        { l := at0 p.l, u := at0 p.u, d := 0, a := p.rowv.getD (x / 64) 0, b := p.colv.getD (x % 64) 0, c := v }
      some (r.h, r.x2)
    else none)

end Sys2Proof.Machine
end

