-- ==== Sys2Proof/Machine/Sha.lean ====
section
/-! DEFINITION. SHA-256 (FIPS 180-4), which the stream digest (R304) and the measurements (R440) name. The constants are
those of the standard: the leading bits of the fractional parts of roots of the first primes, computed here. -/

namespace Sys2Proof.Machine

namespace Sha

/-- The first `n` primes. -/
def primes (n : Nat) : List Nat :=
  ((List.range 312).filter (fun p => decide (2 ≤ p) && (List.range 18).all (fun d => d < 2 || d == p || p % d != 0))).take n

/-- The greatest r with r^3 ≤ x, found bit by bit. -/
def cubeRoot (x : Nat) : Nat :=
  (List.range 40).foldl (fun r k => let y := r + 2 ^ (39 - k); if y * y * y ≤ x then y else r) 0

/-- The 64 round constants: fractional parts of cube roots. -/
def roundConsts : List W32 := (primes 64).map (fun p => BitVec.ofNat 32 (cubeRoot (p * 2 ^ 96)))
/-- The initial hash: fractional parts of square roots. -/
def initial : List W32 := (primes 8).map (fun p => BitVec.ofNat 32 (p * 2 ^ 64).sqrt)

def rotr (x : W32) (n : Nat) : W32 := x.rotateRight n

/-- The message schedule: 48 further words behind the 16 of a block, newest first. -/
def extend : Nat → List W32 → List W32
  | 0, ws => ws
  | n + 1, ws =>
    let w (k : Nat) : W32 := ws.getD (k - 1) 0
    let s0 := rotr (w 15) 7 ^^^ rotr (w 15) 18 ^^^ (w 15 >>> 3)
    let s1 := rotr (w 2) 17 ^^^ rotr (w 2) 19 ^^^ (w 2 >>> 10)
    extend n ((w 16 + s0 + w 7 + s1) :: ws)

/-- One round on the working variables a-h. -/
def round (v : List W32) (kw : W32 × W32) : List W32 :=
  match v with
  | [a, b, c, d, e, f, g, h] =>
    let t1 := h + (rotr e 6 ^^^ rotr e 11 ^^^ rotr e 25) + ((e &&& f) ^^^ (~~~e &&& g)) + kw.1 + kw.2
    let t2 := (rotr a 2 ^^^ rotr a 13 ^^^ rotr a 22) + ((a &&& b) ^^^ (a &&& c) ^^^ (b &&& c))
    [t1 + t2, a, b, c, d + t1, e, f, g]
  | _ => v

/-- A block of 64 bytes. -/
def block (hash : List W32) (bytes : List Byte) : List W32 :=
  let ws := (List.range 16).map (fun k => BitVec.ofNat 32 (leNat ((bytes.drop (4 * k)).take 4).reverse))
  let sched := (extend 48 ws.reverse).reverse
  List.zipWith (· + ·) hash ((List.zip roundConsts sched).foldl round hash)

/-- The blocks of a padded message. -/
def blocks : Nat → List W32 → List Byte → List W32
  | 0, hash, _ => hash
  | n + 1, hash, bytes => blocks n (block hash (bytes.take 64)) (bytes.drop 64)

end Sha

/-- SHA-256 of a message: 32 bytes. -/
def sha256 (msg : List Byte) : List Byte :=
  let zeros := (119 - msg.length % 64) % 64
  let padded := msg ++ [0x80#8] ++ List.replicate zeros 0 ++ beBytes 8 (8 * msg.length)
  (Sha.blocks (padded.length / 64) Sha.initial padded).flatMap (fun x => beBytes 4 x.toNat)

end Sys2Proof.Machine
end

