-- ==== Sys2Proof/Machine/ArrayCore.lean ====
section
/-! DEFINITION. Array operations (11_array R243-R279, 12_array_instructions R280-R308): the operands and checks of each
operation, what it reads and computes when it starts, and its commit. The words that post them and the sequencer's events
stand in ArrayWords.lean. -/

namespace Sys2Proof.Machine

/-! ### Frames, tiles and edges of a core -/

/-- The physical frame of a map entry. -/
def physFrame (w : Wave) (e : Nat) : Option Nat := w.place.frameMap.getD e none
def ownsFrame (w : Wave) (e : Nat) : Bool := (physFrame w e).isSome
/-- The physical edge register of a name. -/
def physEdge (w : Wave) (e : Nat) : Option Nat := w.place.edgeMap.getD e none

/-- The waves that may own frames of a core; an evicted one owns none unless an array card of it runs (R306). -/
def residents (s : State) (core : Nat) : List Wave :=
  s.waves.filter (fun w => w.place.core == core && w.run.status != .gone)

/-- The physical frames that waves of a core own. -/
def ownedFrames (s : State) (core : Nat) : List Nat := (residents s core).flatMap (fun w => w.place.frameMap.filterMap id)
/-- The frames that the waves of a core hold for the ACALLOC at which they were evicted (R279). -/
def heldFrames (s : State) (core : Nat) : Nat := ((residents s core).map (·.place.frameHold)).sum
/-- The frames that may still be granted: at most 32 are owned at one time (R181). -/
def freeFrames (s : State) (core : Nat) : Nat := 32 - (ownedFrames s core).length - heldFrames s core
/-- The lowest physical frame that no wave owns; which one is taken shows nowhere. -/
def shadowFrame (s : State) (core : Nat) : Nat :=
  let owned := ownedFrames s core
  ((List.range 36).find? (fun p => !owned.contains p)).getD 35

/-- The elements of a wave's frame. -/
def frameOf (s : State) (w : Wave) (e : Nat) : List W32 := match physFrame w e with
  | some p => frameElems (s.core w.place.core) p
  | none => List.replicate 4096 0

/-- A poisoned granule within the M×N region of a frame (R193). -/
def framePoisoned (s : State) (w : Wave) (e m n : Nat) : Bool := match physFrame w e with
  | some p => (s.core w.place.core).store.framePoison.any (fun g =>
      g.1 / 2048 == p && decide (g.1 % 2048 / 32 < m) && decide (g.1 % 32 * 2 < n))
  | none => false

/-- A tile as an operation reads it. -/
def tileOf (c : Core) (t : Nat) : TileData :=
  let tcr := Tiles.fields (Cells.get 0 c.store.tcr t)
  { tcr := tcr
    bytes := Cells.slice 0 c.store.tiles (8192 * t) (min 8192 (Tiles.elemBytes tcr))
    strips := if tcr.strip then Cells.slice 0 c.store.strips (2048 * t) 2048 else [] }

/-- A poisoned granule among the elements and strips of a tile. -/
def tilePoisoned (c : Core) (t : Nat) : Bool :=
  let tcr := Tiles.fields (Cells.get 0 c.store.tcr t)
  c.store.tilePoison.hasAny (1024 * t) ((Tiles.elemBytes tcr + 7) / 8)
    || (tcr.strip && c.store.tilePoison.any (fun g =>
      decide (32768 + 256 * t ≤ g.1) && decide (g.1 < 32768 + 256 * t + 4 * tcr.rows)
        && decide (g.1 % 4 * 8 < tcr.cols / 32)))

def tcrValid (c : Core) (t : Nat) : Bool := Tiles.tcrOk (Cells.get 0 c.store.tcr t)

/-- An edge register as an operation reads it. -/
structure EdgeData where
  vals : List W32
  len : Nat
  base : W32
  poisoned : Bool
  deriving DecidableEq, Repr

def edgeOf (s : State) (w : Wave) (e : Nat) : EdgeData :=
  let c := s.core w.place.core
  let p := (physEdge w e).getD 0
  let len := Cells.get 0 c.store.edgeLen p
  { vals := (edgeVals c p).take len, len := len, base := Cells.get 0 c.store.edgeBase p
    poisoned := c.store.edgePoison.has (68 * p) || c.store.edgePoison.hasAny (68 * p + 2) ((len + 1) / 2) }

/-! ### Operands -/

/-- The operation control word (R290). -/
structure Ocw where
  aprom : Nat
  epi : Option Nat
  rv : Option Nat
  cv : Option Nat
  l : Option Nat
  u : Option Nat
  h2 : Option Nat
  m : Nat
  n : Nat
  deriving DecidableEq, Repr

/-- A field with its enable bit. -/
def gated (x en hi lo : Nat) : Option Nat := if x.testBit en then some (bitsOf x hi lo) else none
/-- A field whose enable bit is 0 and that is not zero. -/
def strayField (x en hi lo : Nat) : Bool := !x.testBit en && bitsOf x hi lo != 0

def ocwOf (v : W64) : Ocw :=
  let x := v.toNat
  let on (o : Option Nat) : Option Nat := if x.testBit 15 then o else none
  { aprom := if bitsOf x 7 0 = 0 then 256 else bitsOf x 7 0
    epi := gated x 15 14 12
    rv := on (gated x 23 22 20), cv := on (gated x 27 26 24)
    l := on (gated x 33 32 28), u := on (gated x 39 38 34), h2 := on (gated x 45 44 40)
    m := bitsOf x 51 46 + 1, n := bitsOf x 57 52 + 1 }

/-- The bits of an OCW that must be zero (R290, R292, R297). -/
def ocwBad (v : W64) (mepi mbin : Bool) : Bool :=
  let x := v.toNat
  bitsOf x 63 58 != 0 || bitsOf x 19 16 != 0 || bitsOf x 11 8 != 0
    || (!mepi && bitsOf x 57 46 != 0) || ((mepi || mbin) && bitsOf x 7 0 != 0) || (mepi && !x.testBit 15)
    || strayField x 15 14 12 || strayField x 23 22 20 || strayField x 27 26 24 || strayField x 33 32 28
    || strayField x 39 38 34 || strayField x 45 44 40
    || (!x.testBit 15 && (x.testBit 23 || x.testBit 27 || x.testBit 33 || x.testBit 39 || x.testBit 45))

/-- The recurrence descriptor (R294). -/
structure RecDesc where
  rule : Nat
  top : Nat
  left : Nat
  bot : Nat
  right : Nat
  rv : Option Nat
  cv : Option Nat
  tbt : Nat
  epi : Option Nat
  deriving DecidableEq, Repr

def recDesc (v : W64) : RecDesc :=
  let x := v.toNat
  { rule := bitsOf x 2 0, top := bitsOf x 5 3, left := bitsOf x 8 6, bot := bitsOf x 11 9, right := bitsOf x 14 12
    rv := gated x 18 17 15, cv := gated x 22 21 19, tbt := bitsOf x 27 23, epi := gated x 31 30 28 }

def recDescBad (v : W64) (tb : Bool) : Bool :=
  let x := v.toNat
  bitsOf x 63 32 != 0 || strayField x 18 17 15 || strayField x 22 21 19 || strayField x 31 30 28
    || (!tb && bitsOf x 27 23 != 0)

/-- The second descriptor of MBWD (R296). -/
def bwdDescBad (v : W64) : Bool :=
  let x := v.toNat
  bitsOf x 63 16 != 0 || x.testBit 9 || bitsOf x 2 0 != 0 || strayField x 15 14 10

/-- A stream name (R304). -/
structure Stream where
  fmask : Nat
  emask : Nat
  pcount : Nat
  deriving DecidableEq, Repr

def streamOf (v : W64) : Stream := { fmask := bitsOf v.toNat 31 0, emask := bitsOf v.toNat 39 32, pcount := bitsOf v.toNat 47 40 }
def Stream.frames (x : Stream) : List Nat := (List.range 32).filter (fun k => x.fmask.testBit k)
def Stream.edges (x : Stream) : List Nat := (List.range 8).filter (fun k => x.emask.testBit k)

/-- The scalars that an operation reads, in order (R275). -/
def arrayScalars (read : Nat → W64) : Instr → List W64
  | .movtc _ _ _ a | .tld _ _ _ a | .tst _ _ a _ | .acfree _ _ a | .eld _ _ _ _ a | .est _ _ _ a _ => [read a.toNat]
  | .tldv _ _ _ _ b => [read b.toNat]
  | .mma o | .mbin o _ => [read o.sc.toNat]
  | .mrule _ _ _ _ a b => [read a.toNat, read b.toNat, read (b.toNat + 1)]
  | .mrec o _ _ => [read o.sa.toNat]
  | .mbwd o _ => [read o.sa.toNat, read (o.sa.toNat + 1)]
  | .mepi _ _ _ _ c => [read c.toNat]
  | .ald _ _ _ _ a b | .ast _ _ _ a _ b => [read a.toNat, read b.toNat]
  | .stexp _ _ _ a b | .stimp _ _ _ a b => [read a.toNat, read b.toNat, read (b.toNat + 1), read (b.toNat + 2)]
  | _ => []

/-- The vector lanes that an operation reads (R275, R289, R305). -/
def arrayVectors (w : Wave) (sc : List W64) : Instr → List W32
  | .tldv _ _ _ v _ => w.getVec v.toNat
  | .stexp _ _ v _ _ => (List.range (2 * (streamOf (sc.getD 1 0)).pcount)).flatMap (fun k => w.getVec (v.toNat + k))
  | _ => []

/-- Whether an operation occupies both cores of a pair. -/
def isPair : Instr → Bool
  | .mma o | .mbin o _ => o.pair
  | .mrec o _ _ | .mbwd o _ => o.pair
  | _ => false

/-! ### The checks at issue (R283), made again when the operation starts -/

/-- ACCUM_FRAME and FOOTPRINT_INVALID for named frames (with the DETAIL of their place) and edges. -/
def nameRaises (w : Wave) (lanes : W32) (frames : List (Nat × Nat)) (edges : List Nat) : List Raise :=
  (frames.filter (fun e => !ownsFrame w e.1)).map (fun e => { cause := .accumFrame, lanes := lanes, detail := e.2 })
    ++ (edges.filter (fun e => (physEdge w e).isNone)).map (fun _ =>
      { cause := .footprintInvalid, lanes := lanes, detail := 1 })

def fieldRaises (lanes : W32) (bad : Bool) (detail : Nat) : List Raise :=
  if bad then [{ cause := .illegalField, lanes := lanes, detail := detail }] else []

def at4 (o : Option Nat) : List (Nat × Nat) := (o.map (fun a => (a, 4))).toList

/-- The checks of a stream name and its pair registers (R304). -/
def streamRaises (w : Wave) (lanes : W32) (v : VReg) (sb : W64) : List Raise :=
  let x := streamOf sb
  fieldRaises lanes (bitsOf sb.toNat 63 48 != 0 || decide (128 < x.pcount)) 4
    ++ fieldRaises lanes (if x.pcount = 0 then v != 0 else v.toNat % 2 == 1) 2
    ++ nameRaises w lanes (x.frames.map (fun a => (a, 4))) x.edges
    ++ (if x.pcount != 0 && decide (w.place.regs < v.toNat + 2 * x.pcount) then
      [{ cause := .footprintInvalid, lanes := lanes, detail := 2 }] else [])

/-- The checks of an operation against its scalars and the wave's maps. -/
def arrayChecks (w : Wave) (lanes : W32) (sc : List W64) : Instr → List Raise
  | .mma o =>
    let x := ocwOf (sc.getD 0 0)
    fieldRaises lanes (ocwBad (sc.getD 0 0) false false) 2
      ++ nameRaises w lanes ((o.ad.toNat, 1) :: at4 x.l ++ at4 x.u ++ at4 x.h2) (x.rv.toList ++ x.cv.toList)
  | .mbin o _ =>
    let x := ocwOf (sc.getD 0 0)
    fieldRaises lanes (ocwBad (sc.getD 0 0) false true) 2
      ++ nameRaises w lanes ((o.ad.toNat, 1) :: at4 x.l ++ at4 x.u ++ at4 x.h2) (x.rv.toList ++ x.cv.toList)
  | .mrec o ac tb =>
    let d := recDesc (sc.getD 0 0)
    fieldRaises lanes (recDescBad (sc.getD 0 0) tb) 3
      ++ nameRaises w lanes ((o.ad.toNat, 1) :: (ac.map (fun a => (a.toNat, 3))).toList)
        ([d.top, d.left, d.bot, d.right] ++ d.rv.toList ++ d.cv.toList)
  | .mbwd o ah =>
    let d := recDesc (sc.getD 0 0)
    let y := (sc.getD 1 0).toNat
    fieldRaises lanes (recDescBad (sc.getD 0 0) false || bwdDescBad (sc.getD 1 0)) 3
      ++ nameRaises w lanes ((o.ad.toNat, 1) :: (ah.toNat, 3) :: at4 (gated y 15 14 10))
        ([d.top, d.left, d.bot, d.right, bitsOf y 8 6, bitsOf y 5 3] ++ d.rv.toList ++ d.cv.toList)
  | .mepi _ _ ad af _ =>
    let x := ocwOf (sc.getD 0 0)
    fieldRaises lanes (ocwBad (sc.getD 0 0) true false) 4
      ++ nameRaises w lanes ((ad.toNat, 1) :: (af.toNat, 2) :: at4 x.l ++ at4 x.u ++ at4 x.h2) (x.rv.toList ++ x.cv.toList)
  | .azero _ _ ad => nameRaises w lanes [(ad.toNat, 1)] []
  | .ald _ _ _ ad _ _ => nameRaises w lanes [(ad.toNat, 1)] []
  | .ast _ _ _ _ af _ => nameRaises w lanes [(af.toNat, 1)] []
  | .amov _ _ ad af => nameRaises w lanes [(ad.toNat, 1), (af.toNat, 2)] []
  | .eld _ _ _ ed _ => nameRaises w lanes [] [ed.toNat]
  | .est _ _ _ _ eb => nameRaises w lanes [] [eb.toNat]
  | .stexp _ _ v _ _ | .stimp _ _ v _ _ => streamRaises w lanes v (sc.getD 1 0)
  | _ => []

/-! ### What an operation reads when it starts -/

/-- A started operation: the state after its reads, what it will write, and the follower wave. -/
structure Started where
  state : State
  writes : List ArrayWrite
  follower : Option Nat := none
  deriving Repr

abbrev StartOut := Except (List Raise) Started

/-- The answer of a start: its causes, or what it does. -/
def startOr (rs : List Raise) (f : Unit → Started) : StartOut := if rs.isEmpty then .ok (f ()) else .error rs

def poisonIf (lanes : W32) (b : Bool) : List Raise := if b then [{ cause := .poisonConsumed, lanes := lanes }] else []
def raiseIf (lanes : W32) (b : Bool) (c : Cause) (detail : Nat) : List Raise :=
  if b then [{ cause := c, lanes := lanes, detail := detail }] else []

/-- The follower wave (R311, R312): the lowest-ranked member of the group that is resident on the other core of the pair;
none when that core is fenced. -/
def followerOf (s : State) (w : Wave) : Option Nat :=
  let other := partnerOf w.place.core
  if (s.core other).fenced then none
  else match s.groupOf w with
    | none => none
    | some g =>
      let here (m : Member) : Bool := match s.wave m.wave with
        | some x => x.place.core == other && !x.run.evicted && x.run.status != .retiring && x.run.status != .gone
        | none => false
      ((List.range 32).findSome? (fun r => g.members.find? (fun m => m.rank == r && here m))).map (·.wave)

/-- PAIR_UNAVAILABLE (R312). -/
def pairRaises (s : State) (lanes : W32) (pair : Bool) (f : Option Nat) (frames : List Nat) : List Raise :=
  let ok := match f.bind s.wave with
    | some x => frames.all (ownsFrame x)
    | none => false
  raiseIf lanes (pair && !ok) .pairUnavailable 0

/-- Scratchpad granules of a range (R284), each within the ranges of R177. -/
def granuleRaises (rs : List (Nat × Nat)) (lanes : W32) (off n : Nat) : List Raise :=
  if reaches rs off n then []
  else (List.range ((n + 7) / 8)).flatMap (fun k => reachRaises rs lanes (off + 8 * k) (min 8 (n - 8 * k)))

/-- A read of a core's scratchpad, or of global memory. -/
def readRaises (s : State) (w : Wave) (i : Nat) (sp : Bool) (lanes : W32) (a n : Nat) : List Raise :=
  if sp then
    granuleRaises (scratchRanges s i) lanes a n ++ (match (s.core w.place.core).spPoison a n with
      | some b => [{ cause := .poisonConsumed, lanes := lanes, addr := BitVec.ofNat 64 b }]
      | none => [])
  else (rangeRaises s (engineAgent w) .read a n).map (fun r => { r with lanes := lanes })
def readBytes (s : State) (w : Wave) (sp : Bool) (a n : Nat) : State × List Byte :=
  if sp then (s, Cells.slice 0 (s.core w.place.core).scratch a n)
  else (chunks a n).foldl (fun (acc : State × List Byte) c =>
    let r := readParts acc.1 (engineAgent w) (partsOf acc.1 (engineAgent w) .read c.1 c.2)
    (r.1, acc.2 ++ r.2)) (s, [])
/-- The checks of a write at its start, and again at its commit. -/
def writeRaises (s : State) (w : Wave) (i : Nat) (sp : Bool) (lanes : W32) (a n : Nat) : List Raise :=
  if sp then granuleRaises (scratchRanges s i) lanes a n
  else (rangeRaises s (engineAgent w) .write a n).map (fun r => { r with lanes := lanes })

def misalignedAt (lanes : W32) (a align : Nat) : List Raise :=
  if a % align = 0 then [] else [{ cause := .misaligned, lanes := lanes, addr := BitVec.ofNat 64 a }]

def wordsOf (bs : List Byte) : List W32 := (partsBy 4 bs).map (fun b => BitVec.ofNat 32 (leNat b))

/-! ### Contraction (R291, R292) -/

/-- The epilogue rule of a slot. -/
def epiSlot (c : Core) (k : Nat) : RuleSlot := c.store.rules.getD (8 + k) {}
def recSlot (c : Core) (k : Nat) : RuleSlot := c.store.rules.getD k {}

/-- EPILOGUE_INVALID for an empty slot, POISON_CONSUMED for a poisoned one (R193, R293). -/
def epiRaises (c : Core) (lanes : W32) (e : Option Nat) : List Raise := match e with
  | none => []
  | some k => raiseIf lanes (epiSlot c k).uops.isEmpty .epilogueInvalid 2 ++ poisonIf lanes (epiSlot c k).poisoned

/-- The writes of one core's result: with an epilogue, H into the destination and H2 into its frame; H2 stands first. -/
def resultWrites (s : State) (wi : Nat) (w : Wave) (leader : Core) (x : Ocw) (ad m n : Nat) (res c : List W32)
    (rowv colv : List W32) : List ArrayWrite :=
  match x.epi with
  | none => [.frame wi ad res 0 m n]
  | some k =>
    let slot := epiSlot leader k
    let out := Epilogue.run { us := slot.uops, k := slot.consts, l := x.l.map (frameOf s w), u := x.u.map (frameOf s w)
                              rowv := rowv, colv := colv } m n c
    let h := List.zipWith (fun (o : Option (W32 × Option W32)) v => (o.map (·.1)).getD v) out res
    (match x.h2 with
      | none => []
      | some f => [.frame wi f (List.zipWith (fun (o : Option (W32 × Option W32)) v => (o.bind (·.2)).getD v) out
          (frameOf s w f)) 0 m n]) ++ [.frame wi ad h 0 m n]

/-- MMA and MBIN. -/
def startMma (s : State) (i : Nat) (w : Wave) (lanes : W32) (o : MmaOp) (bin : Option BinOp) (v : W64) : StartOut :=
  let x := ocwOf v
  let core := s.core w.place.core
  let fol := if o.pair then followerOf s w else none
  let fw := fol.bind s.wave
  let ta := o.ta.toNat
  let tb := o.tb.toNat
  let ad := o.ad.toNat
  let a := Tiles.fields (Cells.get 0 core.store.tcr ta)
  let b := Tiles.fields (Cells.get 0 core.store.tcr tb)
  let other := s.core (partnerOf w.place.core)
  let valid := tcrValid core ta && tcrValid core tb && (fw.isNone || tcrValid other tb)
  let shape : List Raise :=
    if !valid then [{ cause := .tileConfig, lanes := lanes, detail := 2 }]
    else if bin.isSome && !(a.fmt == 6 && b.fmt == 6) then [{ cause := .tileShape, lanes := lanes, detail := 5 }]
    else raiseIf lanes (a.cols != b.cols || Tiles.formatClass a.fmt != Tiles.formatClass b.fmt || a.strip != b.strip
        || (bin.isNone && a.fmt == 6)) .tileShape 1
      ++ raiseIf lanes (fw.isSome && Cells.get 0 other.store.tcr tb != Cells.get 0 core.store.tcr tb) .tileShape 2
  let m := a.rows
  let n := b.rows
  let rv := (x.rv.map (edgeOf s w))
  let cv := (x.cv.map (edgeOf s w))
  let edges := (match rv with
      | some e => raiseIf lanes (decide (e.len < m)) .edgeLength 3 ++ poisonIf lanes e.poisoned
      | none => [])
    ++ (match cv with
      | some e => raiseIf lanes (decide (e.len < if o.pair then 2 * n else n)) .edgeLength 4 ++ poisonIf lanes e.poisoned
      | none => [])
  let reads := ad :: (x.l.toList ++ x.u.toList)
  let bad := tilePoisoned core ta || tilePoisoned core tb || (fw.isSome && tilePoisoned other tb)
    || reads.any (fun f => framePoisoned s w f m n || (match fw with
      | some y => framePoisoned s y f m n
      | none => false))
  let rs := shape ++ edges ++ epiRaises core lanes x.epi ++ pairRaises s lanes o.pair fol (reads ++ x.h2.toList)
    ++ poisonIf lanes (valid && bad)
  startOr rs (fun _ =>
    let rowv := (rv.map (·.vals)).getD []
    let colv := (cv.map (·.vals)).getD []
    let ta := tileOf core ta
    let one (wi : Nat) (y : Wave) (cols : List W32) : List ArrayWrite :=
      let tbd := tileOf (s.core y.place.core) tb
      let f := frameOf s y ad
      let res := match bin with
        | none => contractTiles ta tbd x.aprom f
        | some op => binaryTiles ta tbd op f
      let c := if bin.isSome then res.map (fun e => rne32 (ofInt e.toInt)) else res
      resultWrites s wi y core x ad m n res c rowv cols
    { state := s
      follower := fol
      writes := one i w colv ++ (match fol, fw with
        | some j, some y => one j y (colv.drop n)
        | _, _ => []) })

/-- MEPI (R297). -/
def startMepi (s : State) (i : Nat) (w : Wave) (lanes : W32) (ad af : Nat) (v : W64) : StartOut :=
  let x := ocwOf v
  let core := s.core w.place.core
  let rv := (x.rv.map (edgeOf s w))
  let cv := (x.cv.map (edgeOf s w))
  let rs := (match rv with
      | some e => raiseIf lanes (decide (e.len < x.m)) .edgeLength 3 ++ poisonIf lanes e.poisoned
      | none => [])
    ++ (match cv with
      | some e => raiseIf lanes (decide (e.len < x.n)) .edgeLength 4 ++ poisonIf lanes e.poisoned
      | none => [])
    ++ epiRaises core lanes x.epi
    ++ poisonIf lanes ((af :: (x.l.toList ++ x.u.toList)).any (fun f => framePoisoned s w f x.m x.n))
  startOr rs (fun _ =>
    let c := frameOf s w af
    let old := frameOf s w ad
    { state := s
      writes := resultWrites s i w core x ad x.m x.n old c ((rv.map (·.vals)).getD []) ((cv.map (·.vals)).getD []) })

/-! ### Recurrence (R295, R296) -/

/-- A plane as rows, over one frame or a pair of frames. -/
def planeRows (m n : Nat) (leader follower : List W32) : List (List W32) :=
  (List.range m).map (fun i =>
    ((leader.drop (64 * i)).take (min n 64)) ++ ((follower.drop (64 * i)).take (n - 64)))

/-- The half of a plane that lies on one core. -/
def halfRows (j : Nat) (rows : List (List W32)) : List (List W32) := rows.map (fun r => (r.drop (64 * j)).take 64)

/-- A frame whose upper left region takes the rows given. -/
def putRows (rows : List (List W32)) (frame : List W32) : List W32 :=
  mapRegion rows.length ((rows.headD []).length) (fun i j v => (rows.getD i []).getD j v) frame

/-- The micro-ops that a descriptor runs over a plane: its recurrence rule and, where it names one, its epilogue rule. -/
def recUops (core : Core) (d : RecDesc) : List W32 :=
  (recSlot core d.rule).uops ++ ((d.epi.map (fun k => (epiSlot core k).uops)).getD [])

/-- The check of the row or column vector that a descriptor names, against the length it must have: only where a rule reads
it, by operand code `c` (R258; the epilogue's reads count as the recurrence rule's, log 87). -/
def recVectorRaises (s : State) (w : Wave) (lanes : W32) (d : RecDesc) (e : Option Nat) (c len detail : Nat) : List Raise :=
  match e with
  | some e => if Rule.readsCode (recUops (s.core w.place.core) d) c
      then raiseIf lanes ((edgeOf s w e).len != len) .edgeLength detail ++ poisonIf lanes (edgeOf s w e).poisoned else []
  | none => []

/-- The checks that MREC and MBWD share: the rule slot and the lengths of the edges that lead in (R258, R295). -/
def recRaises (s : State) (w : Wave) (lanes : W32) (o : RecOp) (d : RecDesc) : List Raise :=
  let core := s.core w.place.core
  let slot := recSlot core d.rule
  let top := edgeOf s w d.top
  let left := edgeOf s w d.left
  let m := left.len
  let n := top.len - 1
  raiseIf lanes slot.uops.isEmpty .ruleInvalid 2 ++ poisonIf lanes slot.poisoned
    ++ raiseIf lanes (if o.pair then decide (top.len < 66) || decide (129 < top.len)
        else decide (top.len < 2) || decide (65 < top.len)) .edgeLength 1
    ++ raiseIf lanes (m == 0 || decide (64 < m)) .edgeLength 2
    ++ recVectorRaises s w lanes d d.rv 3 m 3 ++ recVectorRaises s w lanes d d.cv 4 n 4
    ++ epiRaises core lanes d.epi ++ poisonIf lanes (top.poisoned || left.poisoned)

/-- The values of a row or column vector over `n` places of a plane, +0 where none is named. -/
def planeVector (s : State) (w : Wave) (e : Option Nat) (n : Nat) : List W32 :=
  let vals := (e.map (fun k => (edgeOf s w k).vals)).getD []
  (List.range n).map (fun k => vals.getD k 0)

/-- The plane that a descriptor names, with its prepared edges, and the output base. -/
def recPlane (s : State) (w : Wave) (fw : Option Wave) (o : RecOp) (d : RecDesc) (cf : Option Nat) : Plane × W32 :=
  let slot := recSlot (s.core w.place.core) d.rule
  let top := edgeOf s w d.top
  let left := edgeOf s w d.left
  let m := left.len
  let n := top.len - 1
  let prep := prepareEdges top.vals left.vals top.base left.base o.rb
  let c := match cf with
    | some f => planeRows m n (frameOf s w f) ((fw.map (fun y => frameOf s y f)).getD [])
    | none => List.replicate m (List.replicate n 0)
  ({ us := slot.uops, k := slot.consts, top := prep.1, left := prep.2.1
     rowv := planeVector s w d.rv m
     colv := planeVector s w d.cv n
     c := c }, prep.2.2)

/-- The frame writes of a plane, on one core or two, with the epilogue of R294. -/
def planeWrites (s : State) (leader : Core) (ws : List (Nat × Wave)) (ad : Nat) (d : RecDesc) (p : Plane)
    (rows : List (List W32)) : List ArrayWrite :=
  ws.mapIdx (fun j iw =>
    let part := halfRows j rows
    let m := part.length
    let n := (part.headD []).length
    let plain := putRows part (frameOf s iw.2 ad)
    let out := match d.epi with
      | none => plain
      | some k =>
        let slot := epiSlot leader k
        List.zipWith (fun (o : Option (W32 × Option W32)) v => (o.map (·.1)).getD v)
          (Epilogue.run { us := slot.uops, k := slot.consts, l := none, u := none, rowv := p.rowv
                          colv := p.colv.drop (64 * j) } m n plain) plain
    .frame iw.1 ad out 0 m n)

/-- The leader, and the follower of a pair operation. -/
def opWaves (i : Nat) (w : Wave) (fol : Option Nat) (fw : Option Wave) : List (Nat × Wave) :=
  (i, w) :: (match fol, fw with
    | some j, some y => [(j, y)]
    | _, _ => [])

/-- A poisoned granule among the columns of a plane that lie in the frames named, the leader's and the follower's (R270). -/
def planePoisoned (s : State) (ws : List (Nat × Wave)) (frames : List Nat) (m n : Nat) : Bool :=
  (ws.mapIdx (fun j y => frames.any (fun f => framePoisoned s y.2 f m (min 64 (n - 64 * j))))).any id

/-- The traceback bytes of a row of codes in a tile (R263). -/
def tracebackRow (core tile cols i : Nat) (codes : List (Option W32)) : List ArrayWrite :=
  (codes.mapIdx (fun j c => (j, c))).filterMap (fun e => e.2.map (fun x =>
    ArrayWrite.tileBytes core (8192 * tile + i * cols + e.1) [x.setWidth 8]))

/-- MREC. -/
def startMrec (s : State) (i : Nat) (w : Wave) (lanes : W32) (o : RecOp) (ac : Option FrameReg) (tb : Bool) (v : W64) :
    StartOut :=
  let d := recDesc v
  let core := s.core w.place.core
  let fol := if o.pair then followerOf s w else none
  let fw := fol.bind s.wave
  let ad := o.ad.toNat
  let cf := ac.map (·.toNat)
  let m := (edgeOf s w d.left).len
  let n := (edgeOf s w d.top).len - 1
  let cores := w.place.core :: (if fw.isSome then [partnerOf w.place.core] else [])
  let tcrs := cores.map (fun c => Tiles.fields (Cells.get 0 (s.core c).store.tcr d.tbt))
  let trace : List Raise :=
    if !tb then []
    else if cores.any (fun c => !tcrValid (s.core c) d.tbt) then [{ cause := .tileConfig, lanes := lanes, detail := 2 }]
    else raiseIf lanes ((tcrs.mapIdx (fun j t => t.fmt != 2 || decide (t.rows < m)
        || decide (t.cols < min 64 (n - 64 * j)))).any id) .tileShape 3
      ++ raiseIf lanes (!(recSlot core d.rule).uops.isEmpty && !Rule.writesTb (recSlot core d.rule).uops) .ruleInvalid 4
  let waves := opWaves i w fol fw
  let rs := trace ++ recRaises s w lanes o d ++ pairRaises s lanes o.pair fol (ad :: cf.toList)
    ++ poisonIf lanes (planePoisoned s waves cf.toList m n)
  startOr rs (fun _ =>
    let pb := recPlane s w fw o d cf
    let cells := pb.1.sweep
    let h := cells.map (fun r => r.map (·.1))
    let last := h.getLastD []
    let codes := cells.map (fun r => r.map (·.2))
    { state := s
      follower := fol
      writes := planeWrites s core waves ad d pb.1 h
        ++ [.edge w.place.core ((physEdge w d.bot).getD 0) (pb.1.left.getLastD 0 :: last) (n + 1) pb.2
            , .edge w.place.core ((physEdge w d.right).getD 0) (h.map (fun r => r.getLastD 0)) m pb.2]
        ++ (if tb then ((cores.zip tcrs).mapIdx (fun j ct =>
              (codes.mapIdx (fun r cs => tracebackRow ct.1 d.tbt ct.2.cols r ((cs.drop (64 * j)).take 64))).flatten)).flatten
            else []) })

/-- MBWD. -/
def startMbwd (s : State) (i : Nat) (w : Wave) (lanes : W32) (o : RecOp) (ah : FrameReg) (v y : W64) : StartOut :=
  let d := recDesc v
  let core := s.core w.place.core
  let fol := if o.pair then followerOf s w else none
  let fw := fol.bind s.wave
  let ag := o.ad.toNat
  let cf := gated y.toNat 15 14 10
  let m := (edgeOf s w d.left).len
  let n := (edgeOf s w d.top).len - 1
  let gR := edgeOf s w d.right
  let gB := edgeOf s w d.bot
  let waves := opWaves i w fol fw
  let rs := recRaises s w lanes o d
    ++ raiseIf lanes (!(recSlot core d.rule).uops.isEmpty && !Rule.differentiable (recSlot core d.rule).uops) .ruleInvalid 3
    ++ raiseIf lanes (gR.len != m || gB.len != n + 1) .edgeLength 5 ++ poisonIf lanes (gR.poisoned || gB.poisoned)
    ++ pairRaises s lanes o.pair fol (ag :: ah.toNat :: cf.toList)
    ++ poisonIf lanes (planePoisoned s waves (ah.toNat :: cf.toList) m n)
  startOr rs (fun _ =>
    let p := (recPlane s w fw o d cf).1
    let h := planeRows m n (frameOf s w ah.toNat) ((fw.map (fun z => frameOf s z ah.toNat)).getD [])
    let b := p.backward h gR.vals gB.vals
    { state := s
      follower := fol
      writes := planeWrites s core waves ag d p b.g
        ++ [.edge w.place.core ((physEdge w (bitsOf y.toNat 5 3)).getD 0) b.ladj m 0
            , .edge w.place.core ((physEdge w (bitsOf y.toNat 8 6)).getD 0) b.tadj (n + 1) 0] })

/-! ### Tiles (R286-R289) -/

/-- The checks of TLD and TST on their tile and scratchpad range. -/
def layoutRaises (s : State) (w : Wave) (i : Nat) (lanes : W32) (tile : Nat) (sa : W64) : List Raise :=
  let core := s.core w.place.core
  let base := bitsOf sa.toNat 18 0
  raiseIf lanes (!tcrValid core tile) .tileConfig 2 ++ misalignedAt lanes base 128
    ++ (if 2 ^ 19 ≤ sa.toNat then [{ cause := .scratchRange, lanes := lanes, addr := sa }]
      else if tcrValid core tile then
        granuleRaises (scratchRanges s i) lanes base (Tiles.layoutBytes (Tiles.fields (Cells.get 0 core.store.tcr tile)))
      else [])

/-- TLD (R287). -/
def startTld (s : State) (i : Nat) (w : Wave) (lanes : W32) (td : Nat) (sa : W64) : StartOut :=
  let core := s.core w.place.core
  let base := bitsOf sa.toNat 18 0
  let t := Tiles.fields (Cells.get 0 core.store.tcr td)
  let n := Tiles.rowBytes t
  let rs := layoutRaises s w i lanes td sa
  let rows := (List.range t.rows).map (fun r => base + r * Tiles.rowStride t)
  let strips := if t.strip then (List.range t.rows).map (fun r =>
    base + t.rows * Tiles.rowStride t + r * Tiles.stripStride t) else []
  let bad := if rs.isEmpty then
      (rows.any (fun a => (core.spPoison a n).isSome)) || strips.any (fun a => (core.spPoison a (t.cols / 32)).isSome)
    else false
  startOr (rs ++ poisonIf lanes bad) (fun _ =>
    { state := s
      writes := rows.mapIdx (fun r a => .tileBytes w.place.core (8192 * td + r * n) (Cells.slice 0 core.scratch a n))
        ++ strips.mapIdx (fun r a => .stripBytes w.place.core (2048 * td + 32 * r)
          (Cells.slice 0 core.scratch a (t.cols / 32))) })

/-- TST (R287). -/
def startTst (s : State) (i : Nat) (w : Wave) (lanes : W32) (tb : Nat) (sa : W64) : StartOut :=
  let core := s.core w.place.core
  let base := bitsOf sa.toNat 18 0
  let rs := layoutRaises s w i lanes tb sa
  startOr (rs ++ poisonIf lanes (rs.isEmpty && tilePoisoned core tb)) (fun _ =>
    let t := tileOf core tb
    let n := Tiles.rowBytes t.tcr
    let pad (k : Nat) (bs : List Byte) : List Byte := bs ++ List.replicate (k - bs.length) 0
    let rows := (List.range t.tcr.rows).flatMap (fun r => pad (Tiles.rowStride t.tcr) ((t.bytes.drop (r * n)).take n))
    let strips := if t.tcr.strip then (List.range t.tcr.rows).flatMap (fun r =>
      pad (Tiles.stripStride t.tcr) ((t.strips.drop (32 * r)).take (t.tcr.cols / 32))) else []
    { state := s, writes := [.scratch base (rows ++ strips)] })

/-- TLDV (R289). -/
def startTldv (s : State) (w : Wave) (lanes : W32) (td : Nat) (sb : W64) (vals : List W32) : StartOut :=
  let core := s.core w.place.core
  let o := bitsOf sb.toNat 13 0
  let z := Tiles.elemBytes (Tiles.fields (Cells.get 0 core.store.tcr td))
  startOr (raiseIf lanes (o % 128 != 0) .misaligned 0
      ++ (if tcrValid core td then raiseIf lanes (decide (z ≤ o)) .tileShape 4
        else [{ cause := .tileConfig, lanes := lanes, detail := 2 }])) (fun _ =>
    { state := s
      writes := (lanesOf lanes).map (fun l =>
        .tileBytes w.place.core (8192 * td + o + 4 * l) ((leBytes 4 (vals.getD l 0).toNat).take (z - (o + 4 * l)))) })

/-! ### Rules, frames, edges (R293, R298-R302) -/

/-- MRULE. -/
def startMrule (s : State) (i : Nat) (w : Wave) (lanes : W32) (epi : Bool) (slot : Nat) (sa b0 b1 : W64) : StartOut :=
  let a := sa.toNat
  let rs := misalignedAt lanes a 8 ++ readRaises s w i false lanes a 40
  if !rs.isEmpty then .error rs
  else
    let r := readBytes s w false a 40
    let count := fieldAt r.2 0 4
    let uops := (List.range (min count 8)).map (fun k => BitVec.ofNat 32 (fieldAt r.2 (8 + 4 * k) 4))
    let ok := decide (1 ≤ count) && decide (count ≤ 8) && fieldAt r.2 4 4 == 0 && Rule.ok epi uops
    startOr (raiseIf lanes (!ok) (if epi then .epilogueInvalid else .ruleInvalid) 1) (fun _ =>
      { state := r.1
        writes := [.rule w.place.core (if epi then 8 + slot else slot) uops
          [b0.extractLsb' 0 32, b0.extractLsb' 32 32, b1.extractLsb' 0 32, b1.extractLsb' 32 32]] })

/-- The rows that ALD and AST name (R299). -/
def rowRange (sb : W64) : Nat × Nat :=
  (bitsOf sb.toNat 5 0, if bitsOf sb.toNat 14 8 = 0 then 64 else bitsOf sb.toNat 14 8)

def memAddr (sp : Bool) (sa : W64) : Nat := if sp then bitsOf sa.toNat 18 0 else sa.toNat

/-- ALD. -/
def startAld (s : State) (i : Nat) (w : Wave) (lanes : W32) (sp : Bool) (ad : Nat) (sa sb : W64) : StartOut :=
  let a := memAddr sp sa
  let rr := rowRange sb
  let fits := decide (rr.1 + rr.2 ≤ 64)
  startOr (misalignedAt lanes a 8 ++ raiseIf lanes (!fits) .tileShape 4
      ++ (if fits then readRaises s w i sp lanes a (256 * rr.2) else [])) (fun _ =>
    let r := readBytes s w sp a (256 * rr.2)
    let old := frameOf s w ad
    let elems := old.take (64 * rr.1) ++ wordsOf r.2 ++ old.drop (64 * (rr.1 + rr.2))
    { state := r.1, writes := [.frame i ad elems rr.1 rr.2 64] })

/-- AST. -/
def startAst (s : State) (i : Nat) (w : Wave) (lanes : W32) (sp : Bool) (af : Nat) (sa sb : W64) : StartOut :=
  let a := memAddr sp sa
  let rr := rowRange sb
  let fits := decide (rr.1 + rr.2 ≤ 64)
  let bad := match physFrame w af with
    | some p => (s.core w.place.core).store.framePoison.hasAny (2048 * p + 32 * rr.1) (32 * rr.2)
    | none => false
  startOr (misalignedAt lanes a 8 ++ raiseIf lanes (!fits) .tileShape 4 ++ poisonIf lanes (fits && bad)
      ++ (if fits then writeRaises s w i sp lanes a (256 * rr.2) else [])) (fun _ =>
    let bytes := wordsImage (((frameOf s w af).drop (64 * rr.1)).take (64 * rr.2))
    { state := s, writes := [if sp then .scratch a bytes else .memory (BitVec.ofNat 64 a) bytes] })

/-- The length, base and values of an edge image (R302). -/
def edgeImageLen (img : List Byte) : Nat := fieldAt img 0 4
def edgeWrite (w : Wave) (e : Nat) (img : List Byte) : ArrayWrite :=
  .edge w.place.core ((physEdge w e).getD 0) (wordsOf ((img.drop 16).take 516)) (edgeImageLen img)
    (BitVec.ofNat 32 (fieldAt img 4 4))

/-- ELD. -/
def startEld (s : State) (i : Nat) (w : Wave) (lanes : W32) (sp : Bool) (ed : Nat) (sa : W64) : StartOut :=
  let a := memAddr sp sa
  let rs := misalignedAt lanes a 16 ++ readRaises s w i sp lanes a 544
  if !rs.isEmpty then .error rs
  else
    let r := readBytes s w sp a 544
    startOr (raiseIf lanes (decide (129 < edgeImageLen r.2)) .edgeLength 6) (fun _ =>
      { state := r.1, writes := [edgeWrite w ed r.2] })

/-- EST. -/
def startEst (s : State) (i : Nat) (w : Wave) (lanes : W32) (sp : Bool) (eb : Nat) (sa : W64) : StartOut :=
  let a := memAddr sp sa
  let c := s.core w.place.core
  let p := (physEdge w eb).getD 0
  startOr (misalignedAt lanes a 16 ++ writeRaises s w i sp lanes a 544
      ++ poisonIf lanes (c.store.edgePoison.hasAny (68 * p) 68)) (fun _ =>
    let bytes := edgeImage c p
    { state := s, writes := [if sp then .scratch a bytes else .memory (BitVec.ofNat 64 a) bytes] })

/-! ### Streams (R304, R305) -/

/-- The header of a stream image without its digest. -/
def streamHead (x : Stream) (format step : W64) : List Byte :=
  leBytes 4 1 ++ leBytes 4 0 ++ leBytes 8 format.toNat ++ leBytes 8 step.toNat ++ leBytes 4 x.fmask ++ leBytes 1 x.emask
    ++ leBytes 1 x.pcount ++ leBytes 2 0

/-- The bytes of a stream image. -/
def streamLen (x : Stream) : Nat := 64 + 16384 * x.frames.length + 544 * x.edges.length + 256 * x.pcount

/-- STEXP. -/
def startStexp (s : State) (i : Nat) (w : Wave) (lanes : W32) (sc : List W64) (pairs : List W32) : StartOut :=
  let a := (sc.getD 0 0).toNat
  let x := streamOf (sc.getD 1 0)
  let c := s.core w.place.core
  startOr (misalignedAt lanes a 64 ++ writeRaises s w i false lanes a (streamLen x)
      ++ poisonIf lanes (x.frames.any (fun f => framePoisoned s w f 64 64)
        || x.edges.any (fun e => c.store.edgePoison.hasAny (68 * (physEdge w e).getD 0) 68))) (fun _ =>
    let head := streamHead x (sc.getD 2 0) (sc.getD 3 0)
    let body := x.frames.flatMap (fun f => wordsImage (frameOf s w f))
      ++ x.edges.flatMap (fun e => edgeImage c ((physEdge w e).getD 0)) ++ wordsImage pairs
    { state := s, writes := [.memory (BitVec.ofNat 64 a) (head ++ sha256 (head ++ body) ++ body)] })

/-- STIMP. -/
def startStimp (s : State) (i : Nat) (w : Wave) (lanes : W32) (v : VReg) (sc : List W64) : StartOut :=
  let a := (sc.getD 0 0).toNat
  let x := streamOf (sc.getD 1 0)
  let n := streamLen x
  let rs := misalignedAt lanes a 64 ++ readRaises s w i false lanes a n
  if !rs.isEmpty then .error rs
  else
    let r := readBytes s w false a n
    let img := r.2
    let body := img.drop 64
    let nf := x.frames.length
    let ne := x.edges.length
    let edgeImg (k : Nat) : List Byte := (body.drop (16384 * nf + 544 * k)).take 544
    let pairAt := 16384 * nf + 544 * ne
    startOr (raiseIf lanes (fieldAt img 0 4 != 1) .streamImport 1
        ++ raiseIf lanes (fieldAt img 8 8 != (sc.getD 2 0).toNat) .streamImport 2
        ++ raiseIf lanes (fieldAt img 0x18 4 != x.fmask || fieldAt img 0x1C 1 != x.emask || fieldAt img 0x1D 1 != x.pcount)
          .streamImport 3
        ++ raiseIf lanes ((img.drop 32).take 32 != sha256 (img.take 32 ++ body)) .streamImport 4
        ++ raiseIf lanes ((List.range ne).any (fun k => decide (129 < edgeImageLen (edgeImg k)))) .streamImport 5) (fun _ =>
      { state := r.1
        writes := x.frames.mapIdx (fun k f => .frame i f (wordsOf ((body.drop (16384 * k)).take 16384)) 0 64 64)
          ++ x.edges.mapIdx (fun k e => edgeWrite w e (edgeImg k))
          ++ (List.range (2 * x.pcount)).map (fun k =>
            .vector (v.toNat + k) (wordsOf ((body.drop (pairAt + 128 * k)).take 128))) })

/-! ### The start of an operation -/

/-- What an operation does when it starts (R283): its causes, or its reads and what its commit will write. -/
def startOp (s : State) (o : ArrayOp) : StartOut :=
  match s.wave o.wave with
  | none => .error []
  | some w =>
    let i := o.wave
    let lanes := o.cap.lanes
    let sc := o.cap.scalars
    let x0 := sc.getD 0 0
    let rs := arrayChecks w lanes sc o.cap.instr
    let core := w.place.core
    if !rs.isEmpty then .error rs
    else match o.cap.instr with
    | .movtc _ _ td _ => startOr (raiseIf lanes (decide (2 ^ 32 ≤ x0.toNat) || !Tiles.tcrOk (x0.setWidth 32)) .tileConfig 1)
        (fun _ => { state := s, writes := [.tcr core td.toNat (x0.setWidth 32)] })
    | .movftc _ _ d ta => .ok { state := s
                                writes := [.scalar d.toNat ((Cells.get 0 (s.core core).store.tcr ta.toNat).setWidth 64)] }
    | .tld _ _ td _ => startTld s i w lanes td.toNat x0
    | .tst _ _ _ tb => startTst s i w lanes tb.toNat x0
    | .tzero _ _ td => .ok { state := s, writes := [.tileZero core td.toNat] }
    | .tldv _ _ td _ _ => startTldv s w lanes td.toNat x0 o.cap.vectors
    | .mma m => startMma s i w lanes m none x0
    | .mbin m op => startMma s i w lanes m (some op) x0
    | .mrule _ _ epi slot _ _ => startMrule s i w lanes epi slot.toNat x0 (sc.getD 1 0) (sc.getD 2 0)
    | .mrec m ac tb => startMrec s i w lanes m ac tb x0
    | .mbwd m ah => startMbwd s i w lanes m ah x0 (sc.getD 1 0)
    | .mepi _ _ ad af _ => startMepi s i w lanes ad.toNat af.toNat x0
    | .azero _ _ ad => .ok { state := s, writes := [.frame i ad.toNat (List.replicate 4096 0) 0 64 64] }
    | .ald _ _ sp ad _ _ => startAld s i w lanes sp ad.toNat x0 (sc.getD 1 0)
    | .ast _ _ sp _ af _ => startAst s i w lanes sp af.toNat x0 (sc.getD 1 0)
    | .amov _ _ ad af =>
      startOr (poisonIf lanes (framePoisoned s w af.toNat 64 64)) (fun _ =>
        { state := s, writes := [.frame i ad.toNat (frameOf s w af.toNat) 0 64 64] })
    | .acfree _ _ _ =>
      startOr (raiseIf lanes ((lanesOf (x0.setWidth 32)).any (fun e => !ownsFrame w e)) .accumFrame 5)
        (fun _ => { state := s, writes := [.freeFrames x0] })
    | .eld _ _ sp ed _ => startEld s i w lanes sp ed.toNat x0
    | .est _ _ sp _ eb => startEst s i w lanes sp eb.toNat x0
    | .stexp _ _ _ _ _ => startStexp s i w lanes sc o.cap.vectors
    | .stimp _ _ v _ _ => startStimp s i w lanes v sc
    | _ => .error []

/-! ### The commit (R181, R198, R272, R281) -/

/-- The granules of a store that a byte write replaces whole lose their poison. -/
def clearGranules (m : NatSet) (first off n : Nat) : NatSet :=
  let lo := first + (off + 7) / 8
  let hi := first + (off + n) / 8
  m.filter (fun e => decide (e.1 < lo) || decide (hi ≤ e.1))

/-- A write of the first `n` values, the length and the base of edge register `p` clears the poison of the granules of its
image that it replaces (R193, R302): a write of all 129 values rewrites the whole edge, its reserved granules with it. -/
def clearEdge (m : NatSet) (p n : Nat) : NatSet :=
  if 129 ≤ n then Cells.clear m (68 * p) 68 else (clearGranules m (68 * p) 16 (4 * n)).remove (68 * p)

/-- A frame commits: the map entry points at a free physical frame with the new elements (R181). Poison of granules that are
not new stays with the frame. -/
def commitFrame (s : State) (wi e : Nat) (elems : List W32) (row0 rows cols : Nat) : State :=
  match s.wave wi with
  | none => s
  | some w => match physFrame w e with
    | none => s
    | some old =>
      let new := shadowFrame s w.place.core
      let fresh (g : Nat) : Bool := decide (row0 ≤ g / 32) && decide (g / 32 < row0 + rows) && decide (g % 32 * 2 + 1 < cols)
      let kept := (s.core w.place.core).store.framePoison.filter (fun g => g.1 / 2048 == old && !fresh (g.1 % 2048))
      (s.updCore w.place.core (fun c => { c with store := { c.store with
          frames := Cells.fill 0 c.store.frames (4096 * new) elems
          framePoison := kept.foldl (fun m g => NatSet.add m (2048 * new + g.1 % 2048))
            (c.store.framePoison.filter (fun g => g.1 / 2048 != new)) } })).updWave wi (fun w =>
        { w with place := { w.place with frameMap := w.place.frameMap.set e (some new) } })

/-- One write of a commit, by wave `i`. -/
def applyWrite (s : State) (i : Nat) (w : Wave) : ArrayWrite → State
  | .frame wi e elems row0 rows cols => commitFrame s wi e elems row0 rows cols
  | .edge core p vals len base => s.updCore core (fun c => { c with store := { c.store with
      edges := Cells.fill 0 c.store.edges (129 * p) (vals.take 129)
      edgeLen := Cells.set 0 c.store.edgeLen p len
      edgeBase := Cells.set 0 c.store.edgeBase p base
      edgePoison := clearEdge c.store.edgePoison p vals.length } })
  | .tileBytes core off bytes => s.updCore core (fun c => { c with store := { c.store with
      tiles := Cells.fill 0 c.store.tiles off bytes
      tilePoison := clearGranules c.store.tilePoison 0 off bytes.length } })
  | .stripBytes core off bytes => s.updCore core (fun c => { c with store := { c.store with
      strips := Cells.fill 0 c.store.strips off bytes
      tilePoison := clearGranules c.store.tilePoison 32768 off bytes.length } })
  | .tcr core t x => s.updCore core (fun c => { c with store := { c.store with tcr := Cells.set 0 c.store.tcr t x } })
  | .tileZero core t => s.updCore core (fun c => { c with store := { c.store with
      tiles := Cells.clear c.store.tiles (8192 * t) 8192
      strips := Cells.clear c.store.strips (2048 * t) 2048
      tilePoison := Cells.clear (Cells.clear c.store.tilePoison (1024 * t) 1024) (32768 + 256 * t) 256 } })
  | .rule core slot uops consts => s.updCore core (fun c => { c with store := { c.store with
      rules := updAt c.store.rules slot (fun _ => { uops := uops, consts := consts, poisoned := false }) } })
  | .scalar r x => s.updWave i (fun w => w.setS r x)
  | .vector r xs => s.updWave i (fun w => w.setLanes r (xs.mapIdx (fun l x => (l, x))))
  | .memory va bytes => rangeWrite s (engineAgent w) va.toNat bytes
  | .scratch off bytes => s.updCore w.place.core (fun c => c.spWrite off bytes)
  | .freeFrames mask => s.updWave i (fun w => { w with place := { w.place with
      frameMap := w.place.frameMap.mapIdx (fun e p => if mask.getLsbD e then none else p) } })

/-- The causes that a write meets at its commit: those of its start again (R283). -/
def commitRaises (s : State) (i : Nat) (w : Wave) (lanes : W32) : ArrayWrite → List Raise
  | .memory va bytes => writeRaises s w i false lanes va.toNat bytes.length
  | .scratch off bytes => writeRaises s w i true lanes off bytes.length
  | _ => []

end Sys2Proof.Machine
end

