-- ==== Sys2Proof/Machine/ArrayWords.lean ====
section
/-! DEFINITION. The array class as words (12_array_instructions R280-R305: opcodes 0x280-0x296) and the sequencer's events
(11_array R243, R244, R272-R279, R283): ARRAY_OP_START, ARRAY_OP_COMMIT, ARRAY_RESIDUE_ERROR, ARRAY_UNCORRECTABLE. -/

namespace Sys2Proof.Machine

/-! ### Posting an operation (R272, R281, R282) -/

/-- The operations of a wave in a core's sequencer, without those of its cards. -/
def arrayPending (s : State) (i : Nat) : Nat :=
  match s.wave i with
  | none => 0
  | some w =>
    let c := s.core w.place.core
    let mine (o : ArrayOp) : Bool := o.wave == i && o.card.isNone
    (c.queue.filter mine).length + (match c.running with
      | some r => if mine r.op then 1 else 0
      | none => 0)

/-- The capture of an operation (R275). -/
def captureOp (s : State) (w : Wave) (ir : W64) (i : Instr) (lanes : W32) : Captured :=
  let sc := arrayScalars w.getS i
  { instr := i, word := ir, pc := pcOf s w, slotB := s.slotB, lanes := lanes, scalars := sc, vectors := arrayVectors w sc i
    order := w.run.issued }

/-- POISON_CONSUMED for the pair registers that STEXP reads, in all 32 lanes (R193, R305). -/
def streamPoison (w : Wave) (sc : List W64) : Instr → List Raise
  | .stexp _ _ v _ _ => (List.range (2 * (streamOf (sc.getD 1 0)).pcount)).flatMap (fun k => poisonRaises w (v.toNat + k) allLanes)
  | _ => []

/-- R243: an operation joins the sequencer behind the others, but before those of higher partitions whose words issued in
the same core clock. -/
def enqueueOp (o : ArrayOp) (q : List ArrayOp) : List ArrayOp :=
  let n := q.length - (q.reverse.takeWhile (fun x => x.clock == o.clock && decide (o.part < x.part))).length
  q.take n ++ o :: q.drop n

/-- An array word: its checks at issue, its place in the sequencer, its window (R280-R283). -/
def arrayWord (p : Pred) (la : BitVec 4) (i : Instr) (s : State) : Host.Outcome State Fault Refusal :=
  onceWord p s (fun w =>
    let u := Instr.usesOf w s.ir i
    let act := w.active s.slotB p
    let c := captureOp s w s.ir i act
    let rs := arrayChecks w act c.scalars i ++ streamPoison w c.scalars i
    if !rs.isEmpty then .done s rs
    else if 4 ≤ arrayPending s s.cur then .wait .arrayRoom s
    else
      let own := opWindow c la.toNat u.reads
      let s1 := s.updCore w.place.core (fun k => { k with
        queue := enqueueOp { wave := s.cur, cap := c, card := none, clock := k.clock, part := w.place.part } k.queue })
      .done (s1.updWave s.cur (fun w =>
        if own.isEmpty then holdWrites s w la u [] else { w with windows := w.windows ++ own })) [])

def execMovtc (p : Pred) (la : BitVec 4) (td : TileReg) (sa : SReg) (s : State) : Host.Outcome State Fault Refusal :=
  arrayWord p la (.movtc p la td sa) s
def execMovftc (p : Pred) (la : BitVec 4) (d : SReg) (ta : TileReg) (s : State) : Host.Outcome State Fault Refusal :=
  arrayWord p la (.movftc p la d ta) s
def execTld (p : Pred) (la : BitVec 4) (td : TileReg) (sa : SReg) (s : State) : Host.Outcome State Fault Refusal :=
  arrayWord p la (.tld p la td sa) s
def execTst (p : Pred) (la : BitVec 4) (sa : SReg) (tb : TileReg) (s : State) : Host.Outcome State Fault Refusal :=
  arrayWord p la (.tst p la sa tb) s
def execTzero (p : Pred) (la : BitVec 4) (td : TileReg) (s : State) : Host.Outcome State Fault Refusal :=
  arrayWord p la (.tzero p la td) s
def execTldv (p : Pred) (la : BitVec 4) (td : TileReg) (va : VReg) (sb : SReg) (s : State) :
    Host.Outcome State Fault Refusal := arrayWord p la (.tldv p la td va sb) s
def execMma (o : MmaOp) (s : State) : Host.Outcome State Fault Refusal := arrayWord o.p o.la (.mma o) s
def execMbin (o : MmaOp) (op : BinOp) (s : State) : Host.Outcome State Fault Refusal := arrayWord o.p o.la (.mbin o op) s
def execMrule (p : Pred) (la : BitVec 4) (epi : Bool) (slotNo : BitVec 3) (sa : SReg) (sb : SReg) (s : State) :
    Host.Outcome State Fault Refusal := arrayWord p la (.mrule p la epi slotNo sa sb) s
def execMrec (o : RecOp) (ac : Option FrameReg) (tb : Bool) (s : State) : Host.Outcome State Fault Refusal :=
  arrayWord o.p o.la (.mrec o ac tb) s
def execMbwd (o : RecOp) (ah : FrameReg) (s : State) : Host.Outcome State Fault Refusal := arrayWord o.p o.la (.mbwd o ah) s
def execMepi (p : Pred) (la : BitVec 4) (ad : FrameReg) (af : FrameReg) (sc : SReg) (s : State) :
    Host.Outcome State Fault Refusal := arrayWord p la (.mepi p la ad af sc) s
def execAzero (p : Pred) (la : BitVec 4) (ad : FrameReg) (s : State) : Host.Outcome State Fault Refusal :=
  arrayWord p la (.azero p la ad) s
def execAld (p : Pred) (la : BitVec 4) (sp : Bool) (ad : FrameReg) (sa : SReg) (sb : SReg) (s : State) :
    Host.Outcome State Fault Refusal := arrayWord p la (.ald p la sp ad sa sb) s
def execAst (p : Pred) (la : BitVec 4) (sp : Bool) (sa : SReg) (af : FrameReg) (sb : SReg) (s : State) :
    Host.Outcome State Fault Refusal := arrayWord p la (.ast p la sp sa af sb) s
def execAmov (p : Pred) (la : BitVec 4) (ad : FrameReg) (af : FrameReg) (s : State) : Host.Outcome State Fault Refusal :=
  arrayWord p la (.amov p la ad af) s
def execAcfree (p : Pred) (la : BitVec 4) (sa : SReg) (s : State) : Host.Outcome State Fault Refusal :=
  arrayWord p la (.acfree p la sa) s
def execEld (p : Pred) (la : BitVec 4) (sp : Bool) (ed : EdgeReg) (sa : SReg) (s : State) :
    Host.Outcome State Fault Refusal := arrayWord p la (.eld p la sp ed sa) s
def execEst (p : Pred) (la : BitVec 4) (sp : Bool) (sa : SReg) (eb : EdgeReg) (s : State) :
    Host.Outcome State Fault Refusal := arrayWord p la (.est p la sp sa eb) s
def execStexp (p : Pred) (la : BitVec 4) (vd : VReg) (sa : SReg) (sb : SReg) (s : State) :
    Host.Outcome State Fault Refusal := arrayWord p la (.stexp p la vd sa sb) s
def execStimp (p : Pred) (la : BitVec 4) (vd : VReg) (sa : SReg) (sb : SReg) (s : State) :
    Host.Outcome State Fault Refusal := arrayWord p la (.stimp p la vd sa sb) s

/-! ### MWAIT (R303) -/

/-- MWAIT: with LA = 0 the slot waits until the wave's operations have committed; otherwise its window does. -/
def execMwait (s : State) : Host.Outcome State Fault Refusal :=
  onceWord (wordPred s.ir) s (fun w =>
    let la := wordLa s.ir
    if arrayPending s s.cur = 0 then .done (s.updWave s.cur (fun w => holdWrites s w la {} [])) []
    else if la = 0 then .wait .arrayDrain s
    else doneWave s { w with windows := w.windows ++
      [{ slotB := s.slotB, left := la.toNat, done := false, dests := [], srcs := [], writes := [], ends := .drain }] })

/-! ### Frames on request (R277-R279, R300) -/

/-- The lowest empty entries of a frame map. -/
def emptyEntries (w : Wave) (n : Nat) : List Nat := ((List.range 32).filter (fun e => !ownsFrame w e)).take n

/-- Grants `n` frames to a wave: physical frames that no wave owns. What a granted frame holds is free (log 21). -/
def grantFrames (s : State) (i n : Nat) : State :=
  match s.wave i with
  | none => s
  | some w =>
    (emptyEntries w n).foldl (fun s e =>
      let p := shadowFrame s w.place.core
      (s.updCore w.place.core (fun c => { c with store := { c.store with
          frames := Cells.fill 0 c.store.frames (4096 * p) ((List.range 4096).map (fun k =>
            Config.freeWord (s.fresh * 2 ^ 40 + (p * 4096 + k)))) } })).updWave i (fun w =>
        { w with place := { w.place with frameMap := w.place.frameMap.set e (some p) } })) s |>.nextFresh

/-- A request for frames: the wave's age, the wave, what it needs, and its slot unless it has been evicted. -/
structure FrameRequest where
  age : Nat
  wave : Nat
  need : Nat
  slot : Option Bool
  deriving DecidableEq, Repr

/-- The frames that a waiting slot asks for. -/
def askedFrames (x : Slot) : Option Nat := match x.valid, x.wait with
  | true, some y => (match y.kind with
    | .frames n => some n
    | _ => none)
  | _, _ => none

/-- The requests that wait on a core, an evicted one with its spilled frames (R278, R279). -/
def frameRequests (s : State) (core : Nat) : List FrameRequest :=
  (List.range s.waves.length).flatMap (fun i => match s.wave i with
    | none => []
    | some w =>
      if w.place.core != core || w.run.status == .gone then []
      else if w.run.evicted then
        (match w.run.wake with
          | some (.frames n) => [⟨w.place.frameAge, i, n + w.saved.frames.length, none⟩]
          | _ => [])
      else [false, true].filterMap (fun b => (askedFrames (w.slot b)).map (fun n => ⟨w.place.frameAge, i, n, some b⟩)))

/-- Age order among requests (R47, R277): of waves of equal age the one dispatched first is the older one. -/
def olderRequest (x y : FrameRequest) : Bool := decide (x.age < y.age) || (x.age == y.age && decide (x.wave < y.wave))

def oldestRequest (rs : List FrameRequest) : Option FrameRequest :=
  rs.foldl (fun (m : Option FrameRequest) r => match m with
    | none => some r
    | some x => if olderRequest r x then some r else some x) none
def youngestRequest (rs : List FrameRequest) : Option FrameRequest :=
  rs.foldl (fun (m : Option FrameRequest) r => match m with
    | none => some r
    | some x => if olderRequest x r then some r else some x) none

/-- R278: two or more waves wait. -/
def manyWait (rs : List FrameRequest) : Bool := rs.any (fun x => rs.any (fun y => x.wave != y.wave))

/-- The bitmap of entries. -/
def entryMask (es : List Nat) : W64 := BitVec.ofNat 64 (es.foldl (fun m e => m + 2 ^ e) 0)

/-- R277, R278: free frames go to the oldest request; when it does not fit and another wave waits, the youngest wave is
evicted, once no pair operation holds its frames (R313). -/
def serveFrames : Nat → State → Nat → State
  | 0, s, _ => s
  | k + 1, s, core =>
    let rs := frameRequests s core
    match oldestRequest rs with
    | none => s
    | some r =>
      if r.need ≤ freeFrames s core then
        match r.slot, s.wave r.wave with
        | some b, some w =>
          let x := (((w.slot b).wait).map (·.word)).getD 0
          let es := emptyEntries w r.need
          let u := Use.waited x [.s (wordA x)] [.s (wordD x)]
          serveFrames k (passSlot (grantFrames s r.wave r.need) r.wave b (fun w =>
            w.openWindow b (wordLa x) u.writes u.reads [.s (wordD x) (entryMask es)])) core
        | _, _ => s
      else if manyWait rs then
        match youngestRequest rs with
        | some y => match y.slot with
          | some _ => if heldByPair s y.wave then s else serveFrames k (evict s y.wave (some (.frames y.need)) false true) core
          | none => s
        | none => s
      else s

/-- Serves the requests of a core. -/
def settleFrames (s : State) (core : Nat) : State := serveFrames (2 * s.waves.length + 1) s core

/-- The checks of ACALLOC (R300). -/
def acallocRaises (w : Wave) (lanes : W32) (v : W64) : List Raise :=
  fieldRaises lanes (decide (64 ≤ v.toNat)) 3
    ++ raiseIf lanes (decide (v.toNat < 64) && decide (32 < (w.place.frameMap.filter (·.isSome)).length + v.toNat)) .accumLimit 0

/-- ACALLOC and ACALLOC.nb: `nb` never waits. A wave that has come back from its eviction at ACALLOC has its frames (R279). -/
def acallocWord (p : Pred) (la : BitVec 4) (d sa : SReg) (nb : Bool) (i : Instr) (s : State) :
    Host.Outcome State Fault Refusal :=
  let u := Instr.uses s.ir i
  onceWord p s (fun w =>
    let rs := acallocRaises w (w.active s.slotB p) (w.getS sa.toNat)
    let n := (w.getS sa.toNat).toNat
    let core := w.place.core
    if !rs.isEmpty then .done s rs
    else if n = 0 then .done (s.updWave s.cur (fun w => holdWrites s w la u [.s d.toNat 0])) []
    else if decide (n ≤ w.place.frameHold) ||
        ((frameRequests s core).all (fun r => r.wave == s.cur && r.slot == some s.slotB || (!nb && w.place.frameAge < r.age))
          && decide (n ≤ freeFrames s core + w.place.frameHold)) then
      .done ((grantFrames s s.cur n).updWave s.cur (fun x =>
        holdWrites s { x with place := { x.place with frameHold := 0 } } la u [.s d.toNat (entryMask (emptyEntries w n))])) []
    else if nb then .done (s.updWave s.cur (fun w => holdWrites s w la u [.s d.toNat 0])) []
    else .wait (.frames n) s)

def execAcalloc (p : Pred) (la : BitVec 4) (d : SReg) (sa : SReg) (s : State) : Host.Outcome State Fault Refusal :=
  match acallocWord p la d sa false (.acalloc p la d sa) s with
  | .next t => .next (match t.wave s.cur with
    | some w => settleFrames t w.place.core
    | none => t)
  | o => o
def execAcallocNb (p : Pred) (la : BitVec 4) (d : SReg) (sa : SReg) (s : State) : Host.Outcome State Fault Refusal :=
  acallocWord p la d sa true (.acallocNb p la d sa) s

/-! ### Job cards in the sequencer (R306) -/

/-- The scalars that an array card gives its words. -/
def cardScalar (header : List Byte) (n : Nat) : W64 :=
  if n = 0 ∨ 3 < n then 0 else BitVec.ofNat 64 (fieldAt header (0x60 + 8 * n) 8)

def updCard (s : State) (cl number : Nat) (f : Card → Card) : State :=
  s.updCluster cl (fun c => { c with cards := c.cards.map (fun k => if k.number == number then f k else k) })

/-- The words of an array card that run, with their places. -/
def cardWords (header : List Byte) : List (Nat × W64) :=
  ((List.range 5).map (fun k => (k, BitVec.ofNat 64 (fieldAt header (0x40 + 8 * k) 8)))).filter (fun e => e.2 != 0)

/-- Hands the next word of an array card, from place `k` on, to the sequencer; the card finishes when none is left. -/
def nextCardWord (s : State) (cl : Nat) (card : Card) (k : Nat) : State :=
  match (cardWords card.header).find? (fun e => decide (k ≤ e.1)) with
  | none => updCard s cl card.number (fun c => { c with finished := true })
  | some (j, word) =>
    match decodeWord false word with
    | .error _ => updCard s cl card.number (fun c => { c with finished := true, cause := some (.chainFormat, 0, 0) })
    | .ok i =>
      let cap : Captured := { instr := i, word := word, pc := 0, slotB := false, lanes := allLanes
                              scalars := arrayScalars (cardScalar card.header) i, vectors := [], order := j }
      (updCard s cl card.number (fun c => { c with word := j })).updCore card.core (fun c =>
        { c with queue := c.queue ++ [{ wave := card.wave, cap := cap, card := some (cl, card.number, j) }] })

def findCard (s : State) (cl number : Nat) : Option Card := (s.cluster cl).cards.find? (fun k => k.number == number)

/-- A card ends with a cause recorded; the first one stands. -/
def failCard (s : State) (cl number : Nat) (r : Raise) : State :=
  updCard s cl number (fun c => { c with
    finished := true, cause := c.cause.orElse (fun _ => some (r.cause, r.detail, r.addr)) })

/-- The regions of a card: first byte, length, MODE (R236). -/
def cardRegions (header : List Byte) : List (Nat × Nat × Nat) :=
  (List.range 4).map (fun k =>
    (fieldAt header (0x18 + 10 * k) 6 * 256, fieldAt header (0x1E + 10 * k) 4, fieldAt header 12 1 / 4 ^ k % 4))

/-- The pieces of a range, cut where the regions of a card begin and end, with whether one permits the access (R324). -/
def cardPieces (header : List Byte) (off n : Nat) (write : Bool) : List (Nat × Nat × Bool) :=
  let rs := (cardRegions header).filter (fun r => r.2.2 != 0)
  let cuts := (rs.flatMap (fun r => [r.1, r.1 + r.2.1])).filter (fun c => decide (off < c) && decide (c < off + n))
  let marks := cuts.foldl (fun m c => if m.contains c then m else (m.takeWhile (fun x => decide (x < c))) ++ [c]
    ++ m.dropWhile (fun x => decide (x < c))) [off, off + n]
  (List.zipWith (fun a b => (a, b - a)) marks (marks.drop 1)).map (fun e =>
    (e.1, e.2, rs.any (fun r => decide (r.1 ≤ e.1) && decide (e.1 + e.2 ≤ r.1 + r.2.1)
      && (if write then decide (2 ≤ r.2.2) else r.2.2 % 2 == 1))))

/-- The scratchpad bytes that a TLD reads. -/
def tileReads (s : State) (o : ArrayOp) : List (Nat × Nat) := match o.cap.instr, s.wave o.wave with
  | .tld _ _ td _, some w =>
    let base := bitsOf ((o.cap.scalars.headD 0).toNat) 18 0
    let t := Tiles.fields (Cells.get 0 (s.core w.place.core).store.tcr td.toNat)
    (List.range t.rows).map (fun r => (base + r * Tiles.rowStride t, Tiles.rowBytes t))
      ++ (if t.strip then (List.range t.rows).map (fun r =>
        (base + t.rows * Tiles.rowStride t + r * Tiles.stripStride t, t.cols / 32)) else [])
  | _, _ => []

/-- The start of an operation; one of an array card reads and writes the scratchpad inside the regions of its card alone
(R324): what it may not read is a free value, what it may not write is left out. Answers the first byte left out. -/
def startCardOp (s : State) (o : ArrayOp) : StartOut × Option Nat :=
  match o.card with
  | none => (startOp s o, none)
  | some (cl, number, _) => match findCard s cl number with
    | none => (startOp s o, none)
    | some k =>
      let denied := ((tileReads s o).flatMap (fun r => cardPieces k.header r.1 r.2 false)).filter (fun e => !e.2.2)
      let hide (c : Core) (e : Nat × Nat × Bool) : Core :=
        { c with
          scratch := Cells.fill 0 c.scratch e.1 ((List.range e.2.1).map (fun j => Config.freeByte (s.fresh * 2 ^ 64 + e.1 + j)))
          scratchPoison := Cells.clear c.scratchPoison (e.1 / 8) ((e.1 + e.2.1 - 1) / 8 + 1 - e.1 / 8) }
      let masked := if denied.isEmpty then s else s.updCore k.core (fun c => denied.foldl hide c)
      match startOp masked o with
      | .error rs => (.error rs, none)
      | .ok st =>
        let cut (x : ArrayWrite) : List ArrayWrite := match x with
          | .scratch off bytes => ((cardPieces k.header off bytes.length true).filter (·.2.2)).map (fun e =>
              .scratch e.1 ((bytes.drop (e.1 - off)).take e.2.1))
          | y => [y]
        let out := st.writes.flatMap (fun x => match x with
          | .scratch off bytes => ((cardPieces k.header off bytes.length true).filter (fun e => !e.2.2)).map (·.1)
          | _ => [])
        (.ok { st with state := if denied.isEmpty then st.state else s, writes := st.writes.flatMap cut },
          ((denied.map (·.1)) ++ out).head?)

/-- R324: CHAIN_FORMAT is recorded against the card of an operation, which goes on. -/
def noteOutside (s : State) (o : ArrayOp) (off : Option Nat) : State := match o.card, off with
  | some (cl, number, _), some a => updCard s cl number (fun c => { c with
      cause := c.cause.orElse (fun _ => some (.chainFormat, 2, BitVec.ofNat 64 a)) })
  | _, _ => s

/-! ### The sequencer's events -/

/-- The operation that runs on the arrays of a core: its own, or a pair operation of its partner (R243, R271). -/
def arrayBusy (s : State) (c : Nat) : Bool :=
  (s.core c).running.isSome || (match (s.core (partnerOf c)).running with
    | some r => isPair r.op.cap.instr
    | none => false)

/-- A pair operation stands at the head of a core's sequencer. -/
def pairAtHead (s : State) (c : Nat) : Bool := match (s.core c).queue with
  | [] => false
  | o :: _ => isPair o.cap.instr

/-- The operation that a core's sequencer may start. Of two pair operations that both may start, that of core 2k leads
(R271). -/
def startable (s : State) (c : Nat) : Option ArrayOp :=
  if arrayBusy s c then none
  else match (s.core c).queue with
    | [] => none
    | o :: _ =>
      if isPair o.cap.instr && ((s.core (partnerOf c)).running.isSome || (c % 2 == 1 && pairAtHead s (partnerOf c))) then none
      else some o

/-- A cause that arises outside the words of a wave, at the start of an operation or the completion of one: inside a
transaction it aborts that first (R219). -/
def takeAsync (s : State) (i : Nat) (r : Raise) (b : Bool) (pc word : W64) : State :=
  match s.wave i with
  | none => s
  | some w =>
    if w.tx.isSome && r.kind != .y then settleOrRetire (s.updWave i (fun w => w.abortTx 6 r.cause.code 0)) i
    else takeTrap s i r b pc word false true

/-- Drops the operations of a wave that has retired: it takes no trap (log 22). -/
def dropOps (s : State) (i : Nat) : State := (abandonOps s i).updWave i (fun w => { w with abandoned := [] })

/-- R283: the issuing wave takes the cause of an operation as kind P at its array word, a PAGE_NOT_PRESENT too. -/
def faultOp (s : State) (o : ArrayOp) (c : Nat) (r : Raise) : State :=
  match o.card with
  | some (cl, number, _) =>
    failCard (s.updCore c (fun k => { k with
      queue := k.queue.filter (fun x => x != o)
      running := match k.running with
        | some y => if y.op == o then none else some y
        | none => none })) cl number r
  | none => match s.wave o.wave with
    | none => s
    | some w =>
      if w.run.status == .retiring then dropOps s o.wave
      else
        takeAsync s o.wave { r with declined := true } o.cap.slotB o.cap.pc o.cap.word

/-- The restart of an operation after a residue error (R276). -/
def restartOp (s : State) (c : Nat) (r : Running) : Host.Outcome State Fault Refusal :=
  match startCardOp s r.op with
  | (.error rs, _) => match settleRaises rs with
    | some x => .next (faultOp s.nextFresh r.op c x)
    | none => .refused .notEnabled
  | (.ok st, _) => .next (st.state.nextFresh.updCore c (fun k => { k with
      running := some { op := r.op, writes := st.writes, follower := st.follower, attempts := r.attempts } }))

/-- ARRAY_OP_START: the head of a sequencer starts, or a restart whose record has got its entry (R190). A word that issues
afterwards issues in a later clock than the operation's own word (R243). -/
def execArrayOpStart (s : State) : Host.Outcome State Fault Refusal :=
  match s.target with
  | .core c => match (s.core c).running, startable s c with
    | some r, _ => if r.restart && (s.core c).held.all (fun e => e.kind != 7) then restartOp s c r else .refused .notEnabled
    | none, none => .refused .notEnabled
    | none, some o => match startCardOp s o with
      | (.error rs, _) => match settleRaises rs with
        | some r => .next (faultOp s.nextFresh o c r)
        | none => .refused .notEnabled
      | (.ok st, out) => .next ((noteOutside st.state o out).nextFresh.updCore c (fun k => { k with
          queue := k.queue.drop 1
          issued := List.range 4
          running := some { op := o, writes := st.writes, follower := st.follower, attempts := 0 } }))
  | _ => .refused .notEnabled

/-- The words behind an operation's window go on (R282). -/
def endOpWindow (w : Wave) (order : Nat) : Wave :=
  { w with windows := dropDone (w.windows.map (fun x => if x.ends == .op order then { x with done := true } else x)) }

/-- An operation of a wave ends: its register is written, in the save image too when the wave is evicted, and its window ends. -/
def endOp (s : State) (i : Nat) (dest : Option Nat) (v : W64) (order : Nat) : State :=
  match s.wave i with
  | none => s
  | some w =>
    let s1 := s.updWave i (fun w => endOpWindow (match dest with
      | some d => w.setS d v
      | none => w) order)
    match w.run.evicted, dest with
    | true, some d => if d = 0 then s1
      else privWrite s1 w.place.ctx (w.sys.priv.toNat + 0x180 + 8 * d) (leBytes 8 v.toNat)
    | _, _ => s1

/-- A finished operation commits (R272): its writes, the windows that wait for it, the next word of its card, and the frames
that it set free. -/
def commitOp (s : State) (c : Nat) (r : Running) (w : Wave) : State :=
  let i := r.op.wave
  let s1 := s.updCore c (fun k => { k with running := none })
  let s2 := r.writes.foldl (fun s x => applyWrite s i w x) s1
  let s3 := match r.op.card with
    | none => s2.updWave i (fun w => endOpWindow w r.op.cap.order)
    | some (cl, number, j) => match findCard s2 cl number with
      | some card => nextCardWord s2 cl card (j + 1)
      | none => s2
  settleFrames s3 c

/-- ARRAY_OP_COMMIT. -/
def execArrayOpCommit (s : State) : Host.Outcome State Fault Refusal :=
  match s.target with
  | .core c => match (s.core c).running with
    | none => .refused .notEnabled
    | some r => match s.wave r.op.wave with
      | none => .refused .notEnabled
      | some w => if r.restart then .refused .notEnabled else match settleRaises (r.writes.flatMap (commitRaises s r.op.wave w r.op.cap.lanes)) with
        | some x => .next (faultOp s.nextFresh r.op c x)
        | none => .next (commitOp s.nextFresh c r w)
  | _ => .refused .notEnabled

/-- The operations whose arithmetic the residues check (R276). -/
def residueChecked : Instr → Bool
  | .mma _ | .mbin _ _ | .mrec _ _ _ | .mbwd _ _ | .mepi _ _ _ _ _ => true
  | _ => false

/-- ARRAY_RESIDUE_ERROR (R276): the operation restarts from the beginning, and its core writes ARRAY_REPLAY with the
attempt. While that record finds no entry, the operation waits (R190). -/
def execArrayResidueError (s : State) : Host.Outcome State Fault Refusal :=
  match s.target with
  | .core c => match (s.core c).running with
    | none => .refused .notEnabled
    | some r =>
      if 3 ≤ r.attempts || r.restart || !residueChecked r.op.cap.instr then .refused .notEnabled
      else
        let s1 := recordOf s r.op.wave 7 .noCause (r.attempts + 1) 0
        let r1 := { r with attempts := r.attempts + 1 }
        if (s.core c).eventRoom then restartOp s1 c r1
        else .next (s1.updCore c (fun k => { k with running := some { r1 with writes := [], restart := true } }))
  | _ => .refused .notEnabled

/-- ARRAY_UNCORRECTABLE (R276): the third restart has failed too. -/
def execArrayUncorrectable (s : State) : Host.Outcome State Fault Refusal :=
  match s.target with
  | .core c => match (s.core c).running with
    | some r =>
      if r.attempts = 3 && !r.restart then
        .next (faultOp s r.op c { cause := .arrayUncorrectable, lanes := r.op.cap.lanes })
      else .refused .notEnabled
    | none => .refused .notEnabled
  | _ => .refused .notEnabled

end Sys2Proof.Machine
end

