-- ==== Sys2Proof/Machine/Copy.lean ====
section
/-! DEFINITION. The copy engine (08 R187, R191, R192, 09 R222-R235): ring entries and what they move, posting, binding,
COPY_ENTRY_START, COPY_COMPLETION, tokens, WAITTK, TKINT, user interrupts and UIRET. -/

namespace Sys2Proof.Machine

/-! ### Entries (R222, R223) -/

/-- The fields of an entry. -/
structure CopyCmd where
  gaddr : W64
  addr2 : W64
  stride : Int
  ioff : Nat
  soff : Nat
  len : Nat
  rows : Nat
  fmt : Nat
  flags : Nat
  op : Nat
  deriving DecidableEq, Repr

def copyCmd (ws : List W64) : CopyCmd :=
  let a := ws.getD 2 0
  let b := (ws.getD 3 0).toNat
  { gaddr := ws.getD 0 0, addr2 := ws.getD 1 0, stride := (a.extractLsb' 32 32).toInt, ioff := bitsOf a.toNat 50 32
    soff := bitsOf a.toNat 18 0, len := bitsOf b 59 40, rows := bitsOf b 39 24, fmt := bitsOf b 19 16
    flags := bitsOf b 15 8, op := bitsOf b 7 0 }

namespace CopyCmd

def gathers (c : CopyCmd) : Bool := c.op == 2 || c.op == 3
def packs (c : CopyCmd) : Bool := c.op == 4 || c.op == 5
/-- The formats with a scale array. -/
def scaled (c : CopyCmd) : Bool := c.packs && decide (c.fmt ≤ 2)
def token (c : CopyCmd) : Nat := c.flags % 8
def countsRows (c : CopyCmd) : Bool := c.flags.testBit 3
def interrupts (c : CopyCmd) : Bool := c.flags.testBit 4
/-- Whether the command writes global memory. -/
def out (c : CopyCmd) : Bool := match c.op with
  | 1 => c.flags.testBit 5
  | 3 | 5 => true
  | _ => false
/-- The element width of a format in bits (R223). -/
def width (c : CopyCmd) : Nat := [8, 8, 8, 8, 8, 8, 16, 16, 32, 1].getD c.fmt 8
/-- The bytes of a canonical row, and its padded length (R247). -/
def rowBytes (c : CopyCmd) : Nat := c.len * c.width / 8
def rowStep (c : CopyCmd) : Nat := 128 * ((c.rowBytes + 127) / 128)
def stripStep (c : CopyCmd) : Nat := if c.scaled then 8 * ((c.len + 255) / 256) else 0

/-- The scratchpad ranges that an entry names. -/
def places (c : CopyCmd) : List (Nat × Nat) :=
  if c.op == 1 then [(c.soff, c.rows * c.len)]
  else if c.gathers then [(c.soff, c.rows * c.len * 2 ^ c.fmt), (c.ioff, 4 * (c.rows * c.len))]
  else [(c.soff, c.rows * (c.rowStep + c.stripStep))]

end CopyCmd

/-- An invalid entry (R223). -/
def entryBad (ws : List W64) : Bool :=
  let c := copyCmd ws
  let a := (ws.getD 2 0).toNat
  let b := (ws.getD 3 0).toNat
  let fmtOk := match c.op with
    | 1 => c.fmt == 0
    | 2 | 3 => decide (c.fmt ≤ 3)
    | 4 | 5 => decide (c.fmt ≤ 9)
    | _ => false
  bitsOf b 63 60 != 0 || bitsOf b 23 20 != 0 || bitsOf c.flags 7 6 != 0 || bitsOf a 31 19 != 0
    || (c.gathers && bitsOf a 63 51 != 0) || !fmtOk || c.len == 0 || c.rows == 0
    || (c.scaled && c.len % 32 != 0) || (c.packs && c.fmt == 9 && c.len % 8 != 0)
    || (!c.scaled && c.addr2 != 0) || (c.flags.testBit 5 && c.op != 1)

/-! ### What an entry moves (R224) -/

/-- A run of units at consecutive global and scratchpad addresses. A unit is what is written or left out as a whole: `per`
elements in `unit` global bytes and `spUnit` scratchpad bytes. -/
structure Span where
  va : W64
  unit : Nat
  count : Nat
  elem0 : Nat
  per : Nat
  sp : Nat
  spUnit : Nat
  out : Bool
  q4 : Bool := false
  /-- Further scratchpad bytes that a unit reads: the first offset, the bytes of each unit. -/
  also : Option (Nat × Nat) := none
  /-- ELEM_RANGE: the element lies beyond BOUND (R228). -/
  deny : Bool := false
  deriving DecidableEq, Repr

/-- The global address of a row. -/
def rowAddr (base : W64) (r : Nat) (step : Int) : W64 := base + BitVec.ofInt 64 (r * step)

/-- The index of element `i` (R224). -/
def copyIndex (c : CopyCmd) (core : Core) (i : Nat) : Nat := leNat (core.spRead (c.ioff + 4 * i) 4)

/-- The spans of an entry, in ascending element order. -/
def spansOf (core : Core) (c : CopyCmd) (bound : W64) : List Span :=
  if c.op == 1 then
    (List.range c.rows).map (fun r =>
      { va := rowAddr c.gaddr r c.stride, unit := 1, count := c.len, elem0 := r * c.len, per := 1
        sp := c.soff + r * c.len, spUnit := 1, out := c.out })
  else if c.gathers then
    let e := 2 ^ c.fmt
    (List.range (c.rows * c.len)).map (fun i =>
      let idx := copyIndex c core i
      { va := c.gaddr + BitVec.ofNat 64 (idx * e), unit := e, count := 1, elem0 := i, per := 1
        sp := c.soff + i * e, spUnit := e, out := c.out, also := some (c.ioff + 4 * i, 4)
        deny := bound != 0 && decide (bound.toNat < idx * e + e) })
  else
    let q4 := c.fmt == 0
    let unit := if q4 then 16 else if c.fmt == 9 then 1 else c.width / 8
    let per := if q4 then 32 else if c.fmt == 9 then 8 else 1
    let groups := c.len / 32
    let strips := c.soff + c.rows * c.rowStep
    (List.range c.rows).flatMap (fun r =>
      let strip := strips + r * c.stripStep
      ({ va := rowAddr c.gaddr r c.stride, unit := unit, count := c.len / per, elem0 := r * c.len, per := per
         sp := c.soff + r * c.rowStep, spUnit := if q4 then 32 else unit, out := c.out, q4 := q4
         also := if q4 && c.out then some (strip, 1) else none } : Span)
      :: (if c.scaled then
        [{ va := rowAddr c.addr2 r groups, unit := 1, count := groups, elem0 := r * c.len, per := 32
           sp := strip, spUnit := 1, out := c.out }]
        else []))

/-- R34: a Q4 group in E4M3 bytes, and the slots of markers that carry no outlier. -/
def expandQ4 (slots : List Nat) : Nat → Nat → List Byte × List Nat
  | 0, _ => ([], [])
  | n + 1, i =>
    if 32 ≤ i then ([], [])
    else
      let x := slots.getD i 0
      if x ≠ 8 then
        let r := expandQ4 slots n (i + 1)
        (BitVec.ofNat 8 (toF8 Fmt.e4m3 rmRNE false (ofInt (if x < 8 then (x : Int) else (x : Int) - 16))).1 :: r.1, r.2)
      else if i ≤ 29 then
        let r := expandQ4 slots n (i + 3)
        (BitVec.ofNat 8 (slots.getD (i + 1) 0 * 16 + slots.getD (i + 2) 0) :: 0 :: 0 :: r.1, r.2)
      else
        let r := expandQ4 slots n (i + 1)
        (0 :: r.1, i :: r.2)

/-- R224, R35: 32 E4M3 bytes and their scale as the 16 bytes of a Q4 group, with Q4THR = 7. -/
def packQ4 (bytes : List Byte) (scale : Byte) : List Byte :=
  let slots := if scale = 0xFF then List.replicate 32 0
    else (encodeQ4 7 (bytes.map (fun b => Fmt.e4m3.decode b.toNat)) 32 0).1
  (List.range 16).map (fun j => BitVec.ofNat 8 (slots.getD (2 * j) 0 + 16 * slots.getD (2 * j + 1) 0))

/-! ### Element faults (R228, R324, R409) -/

/-- What limits the accesses of a job card (R324, R177); a ring entry has been checked at its post. -/
structure Limits where
  /-- Regions in global memory: first byte, length, whether they may be read and written. -/
  regions : Option (List (Nat × Nat × Bool × Bool)) := none
  /-- Ranges of the scratchpad. -/
  ranges : Option (List (Nat × Nat)) := none
  deriving DecidableEq, Repr

/-- Numbers in rising order. -/
def insertNat (x : Nat) : List Nat → List Nat
  | [] => [x]
  | y :: ys => if x < y then x :: y :: ys else if x = y then y :: ys else y :: insertNat x ys

/-- A global range cut where regions begin and end, with whether each piece lies in a region that permits the access. -/
def Limits.pieces (l : Limits) (va n : Nat) (write : Bool) : List (Nat × Nat × Bool) := match l.regions with
  | none => [(va, n, true)]
  | some rs =>
    let cuts := (rs.flatMap (fun r => [r.1, r.1 + r.2.1])).filter (fun c => decide (va < c) && decide (c < va + n))
    let marks := cuts.foldl (fun m c => insertNat c m) [va, va + n]
    (List.zipWith (fun a b => (a, b - a)) marks (marks.drop 1)).map (fun e =>
      (e.1, e.2, rs.any (fun r => decide (r.1 ≤ e.1) && decide (e.1 + e.2 ≤ r.1 + r.2.1)
        && (if write then r.2.2.2 else r.2.2.1))))
def Limits.global (l : Limits) (va n : Nat) (write : Bool) : Bool := (l.pieces va n write).all (·.2.2)
def Limits.scratch (l : Limits) (off n : Nat) : Bool := match l.ranges with
  | none => true
  | some rs => reaches rs off n

/-- The causes of `n` units of a span from unit `k` on. -/
def unitRaises (s : State) (core : Nat) (g : Agent) (l : Limits) (x : Span) (k n : Nat) : List Raise :=
  let va := (x.va + BitVec.ofNat 64 (k * x.unit)).toNat
  let off := x.sp + k * x.spUnit
  let c := s.core core
  let raise (b : Bool) (c : Cause) : List Raise := if b then [{ cause := c }] else []
  if x.deny then [{ cause := .elemRange }]
  else
    (if l.global va (n * x.unit) x.out then rangeRaises s g (if x.out then .write else .read) va (n * x.unit)
      else [{ cause := .chainFormat }])
    ++ raise (!l.scratch off (n * x.spUnit)) .scratchRange
    ++ raise ((x.out && (c.spPoison off (n * x.spUnit)).isSome) || (match x.also with
      | some (a, m) => (c.spPoison (a + k * m) (n * m)).isSome
      | none => false)) .poisonConsumed

/-- A faulting unit: its first element, its cause, its global address. -/
abbrev UnitFault := Nat × Cause × W64

/-- The faulting units of a span, none when the whole span is clean. -/
def spanFaults (s : State) (core : Nat) (g : Agent) (l : Limits) (declined : List (Nat × Bool)) (x : Span) : List UnitFault :=
  if declined.isEmpty && (unitRaises s core g l x 0 x.count).isEmpty then []
  else (List.range x.count).filterMap (fun k =>
    let a := x.va + BitVec.ofNat 64 (k * x.unit)
    let cause := match declined.find? (fun d => d.1 == a.toNat) with
      | some (_, limit) => some (if limit then Cause.replayLimit else Cause.pageNotPresent)
      | none => (settleRaises (unitRaises s core g l x k 1)).map (fun (r : Raise) => r.cause)
    cause.map (fun c => (x.elem0 + k * x.per, c, a)))

/-! ### Moving -/

/-- A read of a long range by an engine, with its effect on transactions and caches. -/
def takeRange (s : State) (g : Agent) (va n : Nat) : State × List Byte :=
  (chunks va n).foldl (fun (acc : State × List Byte) c =>
    let r := readParts acc.1 g (partsOf acc.1 g .read c.1 c.2)
    (r.1, acc.2 ++ r.2)) (s, [])

/-- Moves `n` units of a span from unit `k` on; answers the groups that met a marker without an outlier. -/
def moveUnits (s : State) (core : Nat) (g : Agent) (x : Span) (k n : Nat) : State × List (Nat × Nat) :=
  let va := (x.va + BitVec.ofNat 64 (k * x.unit)).toNat
  let off := x.sp + k * x.spUnit
  if x.out then
    let raw := (s.core core).spRead off (n * x.spUnit)
    let data := if x.q4 then
        let scales := (s.core core).spRead (((x.also).map (·.1)).getD 0 + k) n
        ((List.range n).map (fun j => packQ4 ((raw.drop (32 * j)).take 32) (scales.getD j 0))).flatten
      else raw
    (rangeWrite s g va data, [])
  else
    let r := takeRange s g va (n * x.unit)
    if x.q4 then
      let groups := (List.range n).map (fun j => expandQ4 (nibbles ((r.2.drop (16 * j)).take 16)) 32 0)
      (r.1.updCore core (fun c => c.spWrite off (groups.map (·.1)).flatten),
        (groups.mapIdx (fun j e => e.2.map (fun i => (k + j, i)))).flatten)
    else (r.1.updCore core (fun c => c.spWrite off r.2), [])

/-- Moves a span but for its faulting units. -/
def moveSpan (s : State) (core : Nat) (g : Agent) (x : Span) (bad : List UnitFault) : State × List (Nat × Nat) :=
  if bad.isEmpty then moveUnits s core g x 0 x.count
  else
    ((List.range x.count).filter (fun k => !bad.any (fun f => f.1 == x.elem0 + k * x.per))).foldl
      (fun (acc : State × List (Nat × Nat)) k =>
        let r := moveUnits acc.1 core g x k 1
        (r.1, acc.2 ++ r.2)) (s, [])

def lowestFault (fs : List UnitFault) : Option UnitFault :=
  fs.foldl (fun (m : Option UnitFault) f => match m with
    | none => some f
    | some x => if f.1 < x.1 || (f.1 == x.1 && f.2.1.code < x.2.1.code) then some f else some x) none

/-- What a service of a command answers: its progress when it waits, or what it moved. -/
inductive Served where
  | held (x : Serving)
  | moved (t : State) (fault : Option UnitFault) (escape : Bool)
  deriving Repr

/-- R228, R409: the first element whose page is not present is serviced; its 17th fault is recorded as REPLAY_LIMIT. Without
such an element the command moves everything that does not fault. A marker in slot 30 or 31 is written as +0
(R34) and records OUTLIER_ESCAPE as well, though R228 leaves a faulting element unwritten (the model's choice, log 89). -/
def serveCopy (s : State) (core : Nat) (g : Agent) (ws : List W64) (bound : W64) (oete : Bool) (l : Limits)
    (sv : Serving) : Served :=
  let spans := (spansOf (s.core core) (copyCmd ws) bound).map (fun x => (x, spanFaults s core g l sv.declined x))
  let faults := spans.flatMap (·.2)
  match lowestFault (faults.filter (fun f => f.2.1 == .pageNotPresent && !sv.declined.any (fun d => d.1 == f.2.2.toNat))) with
  | some f =>
    let a := f.2.2.toNat
    let n := if sv.addr = a then sv.faults else 0
    if 16 ≤ n then .held { addr := 0, faults := 0, waiting := false, declined := (a, true) :: sv.declined }
    else .held { addr := a, faults := n + 1, waiting := true, declined := sv.declined }
  | none =>
    let r := spans.foldl (fun (acc : State × List UnitFault × Bool) e =>
      let m := moveSpan acc.1 core g e.1 e.2
      let marks := m.2.map (fun p => (e.1.elem0 + 32 * p.1 + p.2, Cause.outlierEscape,
        e.1.va + BitVec.ofNat 64 (16 * p.1 + p.2 / 2)))
      (m.1, acc.2.1 ++ (if oete then marks else []), acc.2.2 || !marks.isEmpty)) (s, faults, false)
    .moved r.1 (lowestFault r.2.1) r.2.2

/-! ### Rings and posting (R191, R225-R227) -/

/-- The header of a ring at an offset (R191): its SIZE when it holds for a key. -/
def ringSize (c : Core) (base : Nat) (key : W64) : Option Nat :=
  if base % 32 ≠ 0 ∨ 2 ^ 19 < base + 32 then none
  else
    let h := c.spRead base 32
    let size := fieldAt h 12 2
    if isPow2 size 16 1024 && decide (base + 32 + 32 * size ≤ 2 ^ 19) && fieldAt h 16 8 == key.toNat then some size
    else none

/-- The ring bound to the key of a wave on its core. -/
def ringOf (s : State) (w : Wave) : Option Ring := ((s.core w.place.core).ringsOf w.place.ctx w.sys.gkey).head?

def updRing (c : Core) (ctx : Nat) (key : W64) (f : Ring → Ring) : Core :=
  { c with rings := c.rings.map (fun r => if r.bound && r.ctx == ctx && r.key == key then f r else r) }

/-- The causes of a post (R227). `ok`: the register left bits [19:0] zero (R225). The model's own choices (log 88): such a
register raises RING_FORMAT with DETAIL 5, that of an invalid entry; an entry that is not valid records no SCRATCH_RANGE,
NOT_MEMBER or UIVEC_UNSET, while a missing ring records its RING_FORMAT beside them; a range as a whole must lie in one range
that the wave may reach, so that one which spans two adjacent ones raises SCRATCH_RANGE. -/
def postRaises (s : State) (w : Wave) (i : Nat) (lanes : W32) (ws : List W64) (ok : Bool) : List Raise :=
  let c := copyCmd ws
  let reach := scratchRanges s i
  (match ringOf s w with
    | none => raiseIf lanes true .ringFormat 4
    | some r => raiseIf lanes ((ringSize (s.core w.place.core) r.base w.sys.gkey).isNone) .ringFormat 1
        ++ poisonIf lanes ((s.core w.place.core).spPoison r.base 32).isSome)
    ++ (if entryBad ws || !ok then raiseIf lanes true .ringFormat 5
      else (c.places).flatMap (fun p => reachRaises reach lanes p.1 p.2)
        ++ raiseIf lanes (c.countsRows && (s.groupOf w).isNone) .notMember 0
        ++ raiseIf lanes (c.interrupts && w.sys.uivec == 0) .uivecUnset 0)

/-- The post of an entry: it is written, its token counted, TAIL moved on. The engine serves the words captured here, with the
SIZE of the bind: later changes of SIZE or of the entry's bytes in the scratchpad are not seen (the model's choice, log 88). -/
def postEntry (s : State) (i : Nat) (w : Wave) (r : Ring) (ws : List W64) : State :=
  let core := s.core w.place.core
  let tail := leNat (core.spRead r.base 4) % r.size
  let c := copyCmd ws
  let e : CopyEntry := { words := ws, bound := w.sys.bound, wave := i, oete := w.sys.fpctl.getLsbD 9, order := s.ticket
                         index := tail }
  let s1 := s.updCore w.place.core (fun k =>
    (updRing k w.place.ctx w.sys.gkey (fun r => { r with entries := r.entries ++ [e] })).spWrite (r.base + 32 + 32 * tail)
      (ws.flatMap (fun x => leBytes 8 x.toNat)))
  let s2 := s1.updCore w.place.core (fun k => k.spWrite r.base (leBytes 4 ((tail + 1) % r.size)))
  (s2.updWave i (fun w => w.setToken c.token (w.token c.token + 1))).nextTicket

/-- A posting word (R227): it holds while the ring or the token is full. -/
def postWord (p : Pred) (la : BitVec 4) (i : Instr) (s : State) (f : Wave → List W64 × Bool) :
    Host.Outcome State Fault Refusal :=
  let u := Instr.uses s.ir i
  onceWord p s (fun w =>
    let x := f w
    let rs := postRaises s w s.cur (w.active s.slotB p) x.1 x.2
    if !rs.isEmpty then .done s rs
    else match ringOf s w with
      | none => .done s []
      | some r =>
        let tok := (copyCmd x.1).token
        if r.size - 1 ≤ r.entries.length then .wait (.ringRoom w.place.core r.base) s
        else if 63 ≤ w.token tok then .wait (.tokenRoom tok) s
        else .done ((postEntry s s.cur w r x.1).updWave s.cur (fun w => holdWrites s w la u [])) [])

/-- The entry of a copy post (R225). -/
def postedWords (o : CopyOp) (op fmt : Nat) (out : Bool) (w : Wave) : List W64 × Bool :=
  let ws := w.getSs o.sa.toNat 4
  let flags := o.tok.toNat + (if o.rows then 8 else 0) + (if o.int then 16 else 0) + (if out then 32 else 0)
  let last := (ws.getD 3 0).toNat
  (ws.take 3 ++ [BitVec.ofNat 64 (last / 2 ^ 20 * 2 ^ 20 + fmt * 2 ^ 16 + flags * 2 ^ 8 + op)], last % 2 ^ 20 == 0)

def execCpy (o : CopyOp) (out : Bool) (s : State) : Host.Outcome State Fault Refusal :=
  postWord o.p o.la (.cpy o out) s (postedWords o 1 0 out)
def execCgath (o : CopyOp) (fmt : BitVec 4) (s : State) : Host.Outcome State Fault Refusal :=
  postWord o.p o.la (.cgath o fmt) s (postedWords o 2 fmt.toNat false)
def execCscat (o : CopyOp) (fmt : BitVec 4) (s : State) : Host.Outcome State Fault Refusal :=
  postWord o.p o.la (.cscat o fmt) s (postedWords o 3 fmt.toNat false)
def execCexp (o : CopyOp) (fmt : BitVec 4) (s : State) : Host.Outcome State Fault Refusal :=
  postWord o.p o.la (.cexp o fmt) s (postedWords o 4 fmt.toNat false)
def execCpack (o : CopyOp) (fmt : BitVec 4) (s : State) : Host.Outcome State Fault Refusal :=
  postWord o.p o.la (.cpack o fmt) s (postedWords o 5 fmt.toNat false)
/-- CPOST posts its registers verbatim (R226). -/
def execCpost (p : Pred) (la : BitVec 4) (sa : SReg) (s : State) : Host.Outcome State Fault Refusal :=
  postWord p la (.cpost p la sa) s (fun w => (w.getSs sa.toNat 4, true))

/-- CPOST.bind (R226). A bad header records RING_FORMAT alone, and not SCRATCH_RANGE for bytes out of reach beside it (the
model's choice, log 88). -/
def execCpostBind (p : Pred) (la : BitVec 4) (sa : SReg) (s : State) : Host.Outcome State Fault Refusal :=
  let u := Instr.uses s.ir (.cpostBind p la sa)
  onceWord p s (fun w =>
    let lanes := w.active s.slotB p
    let core := s.core w.place.core
    let base := (w.getS sa.toNat).toNat
    match ringSize core base w.sys.gkey with
    | none => raiseActive s w p .ringFormat 1
    | some size =>
      let old := ringOf s w
      let busy := match old with
        | some r => !r.entries.isEmpty
        | none => false
      let rs := reachRaises (scratchRanges s s.cur) lanes base (32 + 32 * size)
        ++ poisonIf lanes (core.spPoison base 32).isSome
        ++ raiseIf lanes busy .ringFormat 2
        ++ raiseIf lanes (old.isNone && decide (64 ≤ (core.rings.filter (·.bound)).length)) .ringFormat 3
      let r : Ring := { base := base, size := size, ctx := w.place.ctx, key := w.sys.gkey }
      .done ((s.updCore w.place.core (fun k =>
        if old.isSome then updRing k w.place.ctx w.sys.gkey (fun _ => r) else { k with rings := k.rings ++ [r] })).updWave s.cur
          (fun w => holdWrites s w la u [])) rs)

/-! ### Service (R192) -/

/-- The entry of a ring that may start: not more than 8 are in flight, and the earlier entries have started. -/
def Ring.startable (r : Ring) : Option CopyEntry :=
  if 8 ≤ (r.entries.filter (·.started)).length then none
  else match r.entries.find? (fun e => !e.started) with
    | some e => if e.serving.waiting then none else some e
    | none => none

/-- The ring that the engine serves next: the rings in turn, from `turn` on. -/
def nextRing (c : Core) : Option Nat :=
  let n := c.rings.length
  ((List.range n).map (fun k => (c.turn + k) % n)).find? (fun k => match c.rings[k]? with
    | some r => r.startable.isSome
    | none => false)

/-- Changes the first entry of ring `k` that has not started. -/
def updFirst (c : Core) (k : Nat) (f : CopyEntry → CopyEntry) : Core :=
  { c with rings := updAt c.rings k (fun r =>
      let (a, b) := r.entries.span (·.started)
      { r with entries := a ++ updAt b 0 f }) }

/-- COPY_ENTRY_START (R192, R224, R228). -/
def execCopyEntryStart (s : State) : Host.Outcome State Fault Refusal :=
  match s.target with
  | .ring core k => match (s.core core).rings[k]? with
    | none => .refused .notEnabled
    | some r => match r.startable with
      | none => .refused .notEnabled
      | some e => match s.wave e.wave with
        | none => .refused .notEnabled
        | some w =>
          let s1 := s.updCore core (fun c => { c.spWrite (r.base + 4) (leBytes 4 ((e.index + 1) % r.size)) with turn := k + 1 })
          match serveCopy s1 core (engineAgent w) e.words e.bound e.oete {} e.serving with
          | .held x => .next (s1.nextFresh.updCore core (fun c => updFirst c k (fun e => { e with serving := x })))
          | .moved t fault escape => .next (t.nextFresh.updCore core (fun c => updFirst c k (fun e =>
              { e with started := true, fault := fault, escape := escape })))
  | _ => .refused .notEnabled

/-! ### Completion (R229, R233) -/

/-- A user interrupt is requested for a wave (R233, R53). -/
def requestInterrupt (armer : Option Nat) (s : State) (i : Nat) : State :=
  s.updWave i (fun w =>
    if w.run.status == .retiring || w.run.status == .gone then w
    else { w with intr := { w.intr with requests := w.intr.requests ++ [armer] } })

/-- Whether every token in a mask is clear. -/
def tokensClear (w : Wave) (mask : Nat) : Bool := (List.range 8).all (fun k => !mask.testBit k || w.token k == 0)

/-- R233: the armed interrupt of a wave fires when its tokens are clear. Under .g it is for the group to which the wave
belonged at the arming. -/
def fireInterrupt (s : State) (i : Nat) : State :=
  match s.wave i with
  | none => s
  | some w => match w.intr.armed with
    | none => s
    | some a =>
      if !tokensClear w a.mask then s
      else
        let s1 := s.updWave i (fun w => { w with intr := { w.intr with armed := none } })
        match a.group with
        | some key => match s.findGroup w.place.cluster w.place.ctx key with
          | some g => (g.members.map (·.wave)).foldl (requestInterrupt (some i)) s1
          | none => s1
        | none => requestInterrupt (some i) s1 i

/-- R187, R53, R231: a command that named a token completes. -/
def lowerToken (s : State) (i tok : Nat) : State :=
  match s.wave i with
  | none => s
  | some w =>
    if w.run.status == .retiring || w.run.status == .gone then s
    else
      let n := w.token tok - 1
      let s1 := s.updWave i (fun w => w.setToken tok n)
      let s2 := if w.run.evicted then privWrite s1 w.place.ctx (w.sys.priv.toNat + 0x80 + 88 + tok) (leBytes 1 n) else s1
      fireInterrupt s2 i

/-- R229, R318: one row is counted, and the waiters of GBAR.rows are served. -/
def countRows : Nat → State → Nat → Nat → W64 → State
  | 0, s, _, _, _ => s
  | n + 1, s, cl, ctx, key =>
    match s.findGroup cl ctx key with
    | none => s
    | some g =>
      if g.rowWait.isEmpty then s.updGroup cl ctx key (fun g => { g with rows := min (2 ^ 32 - 1) (g.rows + n + 1) })
      else
        let s1 := s.updGroup cl ctx key (fun g => { g with rows := min (2 ^ 32 - 1) (g.rows + 1) })
        countRows n (serveRows 64 s1 cl ctx key) cl ctx key

/-- A fault that an engine recorded reaches the wave at its wait (R230); none reaches a retired wave. -/
def noteFault (s : State) (i : Nat) (f : EngineFault) : State :=
  s.updWave i (fun w =>
    if w.run.status == .retiring || w.run.status == .gone then w else { w with faults := w.faults ++ [f] })

/-- The entry of a ring that completes next: the first one, when it has started. -/
def Ring.completing (r : Ring) : Option CopyEntry :=
  match r.entries with
  | e :: _ => if e.started then some e else none
  | [] => none

/-- The steps of R229 for an entry of ring `k`. -/
def completeEntry (s : State) (core k : Nat) (r : Ring) (e : CopyEntry) : State :=
  let c := copyCmd e.words
  let done := (r.done + 1) % 2 ^ 32
  let s1 := s.updCore core (fun x =>
    let y := x.spWrite (r.base + 8) (leBytes 4 done)
    let rings := updAt y.rings k (fun r => { r with entries := r.entries.drop 1, done := done })
    { y with rings := rings.filter (fun r => r.bound || !r.entries.isEmpty) })
  let s2 := if c.countsRows && r.bound && r.key != 0 then countRows c.rows s1 (clusterOf core) r.ctx r.key else s1
  let num := ((s2.wave e.wave).map (·.place.num)).getD 0
  let rec_ : EventRec := match e.fault with
    | some f => { kind := 2, wave := num, token := c.token, cause := f.2.1, data := f.1, addr := f.2.2, who := e.wave }
    | none => { kind := 1, wave := num, token := c.token, cause := .noCause, data := c.rows, addr := c.gaddr, who := e.wave }
  let s3 := s2.updCore core (fun x => x.record rec_)
  let s4 := match e.fault with
    | some f => noteFault s3 e.wave { order := e.order, token := c.token, cause := f.2.1, detail := 0, addr := f.2.2 }
    | none => s3
  let s5 := if e.escape then s4.updWave e.wave (fun w => w.orFlags flagOE) else s4
  let s6 := lowerToken s5 e.wave c.token
  let s7 := if c.interrupts then requestInterrupt none s6 e.wave else s6
  settleEvicted s7 e.wave

/-- COPY_COMPLETION (R229); it waits for an entry of the event queue (R190). -/
def execCopyCompletion (s : State) : Host.Outcome State Fault Refusal :=
  match s.target with
  | .ring core k => match (s.core core).rings[k]? with
    | none => .refused .notEnabled
    | some r => match r.completing with
      | none => .refused .notEnabled
      | some e => if (s.core core).eventRoom then .next (completeEntry s core k r e) else .refused .notEnabled
  | _ => .refused .notEnabled

/-! ### WAITTK and TKINT (R230, R233) -/

/-- The fault that was posted first. -/
def firstPosted (fs : List EngineFault) : Option EngineFault :=
  fs.foldl (fun (m : Option EngineFault) f => match m with
    | none => some f
    | some x => if f.order < x.order then some f else some x) none

/-- WAITTK: it waits for its tokens and takes the faults of the commands that it observed. -/
def waitTokens (p : Pred) (s : State) (mask : Wave → Nat) : Host.Outcome State Fault Refusal :=
  onceWord p s (fun w =>
    let m := mask w % 256
    if !tokensClear w m then .wait (.tokens m) s
    else
      let seen (f : EngineFault) : Bool := m.testBit f.token
      let s1 := s.updWave s.cur (fun w => { w with faults := w.faults.filter (fun f => !seen f) })
      .done s1 (match firstPosted (w.faults.filter seen) with
        | some f => [{ cause := f.cause, lanes := 0, detail := f.detail, addr := f.addr, eng := true }]
        | none => []))

def execWaittk (s : State) : Host.Outcome State Fault Refusal :=
  waitTokens (wordPred s.ir) s (fun _ => s.ir.toNat % 256)
def execWaittkReg (p : Pred) (sa : SReg) (s : State) : Host.Outcome State Fault Refusal :=
  waitTokens p s (fun w => (w.getS sa.toNat).toNat % 256)

/-- R233: the interrupts that a wave armed and that are not delivered yet are gone. -/
def withdrawRequests (s : State) (i : Nat) : State :=
  { s with waves := s.waves.map (fun w => { w with intr := { w.intr with requests := w.intr.requests.filter (· != some i) } }) }

/-- TKINT: it arms an interrupt in place of any undelivered one of the wave; it fires at once when its tokens are clear. -/
def armInterrupt (p : Pred) (group : Bool) (s : State) (mask : Wave → Nat) : Host.Outcome State Fault Refusal :=
  onceWord p s (fun w =>
    let lanes := w.active s.slotB p
    let rs := raiseIf lanes (group && (s.groupOf w).isNone) .notMember 0 ++ raiseIf lanes (w.sys.uivec == 0) .uivecUnset 0
    let armed : Armed := { mask := mask w % 256, group := if group then some w.sys.gkey else none }
    .done (fireInterrupt ((withdrawRequests s s.cur).updWave s.cur (fun w => { w with intr := { w.intr with armed := some armed } }))
      s.cur) rs)

/-- The VAR bit of an FI word stands at bit 17. -/
def execTkint (s : State) : Host.Outcome State Fault Refusal :=
  armInterrupt (wordPred s.ir) (s.ir.getLsbD 17) s (fun _ => s.ir.toNat % 256)
def execTkintReg (p : Pred) (group : Bool) (sa : SReg) (s : State) : Host.Outcome State Fault Refusal :=
  armInterrupt p group s (fun w => (w.getS sa.toNat).toNat % 256)

/-! ### User interrupts (R234, R235) -/

/-- Whether an interrupt may be delivered: the wave is at a word boundary, in no handler and no transaction. -/
def deliverable (w : Wave) : Bool :=
  !w.intr.requests.isEmpty && !w.intr.inHandler && w.tx.isNone && w.run.status == .running && !w.run.evicted && !w.run.evicting
    && (w.slotA.valid || w.slotB.valid)

/-- A wave withdraws from what its slots wait for; an arrival at a barrier stands. -/
def withdrawWaits (s : State) (i : Nat) : State :=
  match s.wave i with
  | none => s
  | some w =>
    let rank := ((s.groupOf w).bind (fun g => g.memberOf i)).map (·.rank)
    s.updGroupOf w (fun g => { g with rowWait := g.rowWait.filter (fun e => some e.1 != rank) })

/-- The slots go into the interrupt state, and slot A runs at UIVEC, as it stands: no rule masks its low bits. DEDUCED
(log 85). -/
def enterInterrupt (s : State) (i : Nat) : State :=
  match s.wave i with
  | none => s
  | some w =>
    let s1 := (withdrawWaits s i).updWave i (fun w =>
      let x := (w.endWindows false).endWindows true
      { x with
        sync := []
        intr := { w.intr with requests := w.intr.requests.drop 1, inHandler := true, savedA := w.slotA, savedB := w.slotB
                              savedDepth := w.stack.length }
        slotA := Slot.running w.sys.uivec (~~~ w.exited) none
        slotB := Slot.empty })
    let s2 := recordOf s1 i 10 .noCause (w.sys.uivec.toNat % 2 ^ 32) 0
    settleFrames (settleGroup s2 w.place.cluster w.place.ctx w.sys.gkey) w.place.core

/-- USER_INTERRUPT_DELIVERY (R234). -/
def execUserInterruptDelivery (s : State) : Host.Outcome State Fault Refusal :=
  match s.target with
  | .wave i => match s.wave i with
    | none => .refused .notEnabled
    | some w =>
      if !deliverable w || !(s.core w.place.core).eventRoom then .refused .notEnabled
      else if w.sys.uivec = 0 then
        let b := if (w.slot w.run.lastSlotB).valid then w.run.lastSlotB else !w.run.lastSlotB
        let x := w.slot b
        let word := BitVec.ofNat 64 (leNat (privRead s w.place.ctx x.pc.toNat 8))
        let s1 := s.updWave i (fun w => { w with intr := { w.intr with requests := w.intr.requests.drop 1 } })
        .next (takeTrap s1 i { cause := .uivecUnset, lanes := w.active b (wordPred word) } b x.pc word false false)
      else .next (enterInterrupt s i)
  | _ => .refused .notEnabled

/-- A saved slot comes back: the lanes that have exited are gone, and a word that was blocked executes again. -/
def restoredSlot (x : Slot) (exited : W32) : Slot :=
  let y := keptWait { x with mask := x.mask &&& ~~~ exited }
  if y.mask = 0 then Slot.empty else y

/-- UIRET (R235). -/
def execUiret (s : State) : Host.Outcome State Fault Refusal :=
  onceWord (wordPred s.ir) s (fun w =>
    if !w.intr.inHandler then .done s []
    else if w.slotB.valid || w.stack.length != w.intr.savedDepth then raiseActive s w (wordPred s.ir) .illegalField 7
    else .placed (s.setWave s.cur ({ w.endWindows false with
      slotA := restoredSlot w.intr.savedA w.exited
      slotB := restoredSlot w.intr.savedB w.exited
      intr := { w.intr with inHandler := false, savedA := {}, savedB := {}, savedDepth := 0 } } : Wave)) [])

end Sys2Proof.Machine
end

