-- ==== Sys2Proof/Machine/GroupWords.lean ====
section
/-! DEFINITION. Groups, barriers, VSYNC, election and checkpoints as words (15_cluster_instructions R344-R360: opcodes
0x30B-0x30F and 0x314). -/

namespace Sys2Proof.Machine

/-! ### Joining and leaving (R346-R348) -/

/-- GJOIN; a wave that joins a halted group stops at its next word (R347). -/
def execGjoin (p : Pred) (d : SReg) (sa : SReg) (s : State) : Host.Outcome State Fault Refusal :=
  let o := onceWord p s (fun w =>
    let lanes := w.active s.slotB p
    let key := w.getS sa.toNat
    let old := s.findGroup w.place.cluster w.place.ctx key
    let full := decide (64 ≤ (s.cluster w.place.cluster).groups.length)
    let rs := raiseIf lanes (key == 0) .notMember 1 ++ raiseIf lanes (w.sys.gkey != 0) .groupFull 2
      ++ (match old with
        | none => raiseIf lanes full .groupLimit 0
        | some g => raiseIf lanes (g.freeRank == 32) .groupFull 1)
    let g := old.getD { key := key, ctx := w.place.ctx, members := [], all := {}, roles := List.replicate 8 {}, rows := 0
                        rowWait := [], halt := 0 }
    let rank := g.freeRank
    let me : Member := { rank := rank, wave := s.cur, role := w.sys.role.toNat, stopped := false }
    let s1 := if old.isSome then s
      else s.updCluster w.place.cluster (fun c => { c with groups := c.groups ++ [{ g with members := [me] }] })
    let s2 := if old.isSome then s1.updGroup w.place.cluster w.place.ctx key (fun g => { g with members := g.members ++ [me] })
      else s1
    let w1 := { w with sys := { w.sys with gkey := key } }
    .done (s2.setWave s.cur (w1.setS d.toNat (BitVec.ofNat 64 (rank + if old.isSome then 0 else 256)))) rs)
  match o with
  | .next t => .next (match t.wave s.cur, s.wave s.cur with
    | some w, some old =>
      if old.sys.gkey == 0 && w.run.status == .running && (match t.groupOf w with
          | some g => g.halt != 0
          | none => false) then stopMember t s.cur 0 else t
    | _, _ => t)
  | x => x

/-- Pair operations of a wave that are pending (R348). -/
def pairPending (s : State) (i : Nat) : Bool :=
  s.cores.any (fun c => c.queue.any (fun o => o.wave == i && isPair o.cap.instr) || (match c.running with
    | some r => r.op.wave == i && isPair r.op.cap.instr
    | none => false))

/-- GLEAVE (R348). -/
def execGleave (s : State) : Host.Outcome State Fault Refusal :=
  onceWord (wordPred s.ir) s (fun w =>
    if (s.groupOf w).isNone then raiseActive s w (wordPred s.ir) .notMember 0
    else if pairPending s s.cur then .wait .pairOps s
    else .done (releaseGroup (leaveGroup s s.cur) w.place.cluster w.place.ctx w.sys.gkey) [])

/-! ### Barriers (R350-R354) -/

/-- The barrier of a role, or the all-member one. -/
def Group.barrierOf (g : Group) (role : Option Nat) : Barrier := match role with
  | none => g.all
  | some r => g.roles.getD r {}

/-- The ranks that a generation requires when it opens (R319, R350). -/
def Group.requiredOf (g : Group) (role : Option Nat) : List Nat :=
  (g.members.filter (fun m => match role with
    | none => true
    | some r => m.role == r)).map (·.rank)

/-- An arrival of a rank. -/
def Group.arrive (g : Group) (role : Option Nat) (rank : Nat) : Group :=
  let b := (g.barrierOf role).arrive rank (g.requiredOf role)
  match role with
  | none => { g with all := b }
  | some r => { g with roles := updAt g.roles r (fun _ => b) }

def barrierWait (role : Option Nat) (gen : Nat) : WaitKind := match role with
  | none => .barrier gen
  | some r => .roleBarrier r gen

/-- The generation at which a slot has arrived already. -/
def arrivedGen (x : Slot) (role : Option Nat) : Option Nat := match x.wait with
  | some y => (match y.kind, role with
    | .barrier g, none => some g
    | .roleBarrier q g, some r => if q = r then some g else none
    | _, _ => none)
  | none => none

/-- GBAR and GBAR.role. A word that executes again after its generation has completed completes at once (R336); in a halted
group it neither arrives nor completes (R328). -/
def barrierWord (p : Pred) (s : State) (roleOf : Wave → Option Nat) : Host.Outcome State Fault Refusal :=
  onceWord p s (fun w =>
    match s.groupOf w with
    | none => raiseActive s w p .notMember 0
    | some g =>
      let role := roleOf w
      let gen := (g.barrierOf role).gen
      let passed := match arrivedGen (w.slot s.slotB) role with
        | some x => x != gen
        | none => false
      if passed then .done s []
      else if g.halt != 0 then .wait (barrierWait role gen) s
      else
        let rank := ((g.memberOf s.cur).map (·.rank)).getD 0
        let s1 := settleBarrier (s.updGroupOf w (fun g => g.arrive role rank)) w.place.cluster w.place.ctx w.sys.gkey role
        let now := ((s1.findGroup w.place.cluster w.place.ctx w.sys.gkey).map (fun g => (g.barrierOf role).gen)).getD gen
        if now = gen then .wait (barrierWait role gen) s1 else .done s1 [])

def execGbar (s : State) : Host.Outcome State Fault Refusal := barrierWord (wordPred s.ir) s (fun _ => none)
def execGbarRole (p : Pred) (sa : SReg) (s : State) : Host.Outcome State Fault Refusal :=
  barrierWord p s (fun w => some ((w.getS sa.toNat).toNat % 8))
def execGbarRoleI (p : Pred) (role : BitVec 3) (s : State) : Host.Outcome State Fault Refusal :=
  barrierWord p s (fun _ => some role.toNat)

/-- GBAR.rows (R352). -/
def rowsWord (p : Pred) (s : State) (count : Wave → Nat) : Host.Outcome State Fault Refusal :=
  onceWord p s (fun w =>
    match s.groupOf w with
    | none => raiseActive s w p .notMember 0
    | some g =>
      let n := count w
      if n = 0 then .done s []
      else if g.halt != 0 then .wait (.rows n) s
      else if g.rowWait.isEmpty && decide (n ≤ g.rows) then
        .done (s.updGroupOf w (fun g => { g with rows := g.rows - n })) []
      else
        let rank := ((g.memberOf s.cur).map (·.rank)).getD 0
        .wait (.rows n) (s.updGroupOf w (fun g => { g with rowWait := g.rowWait ++ [(rank, s.slotB, n)] })))

def execGbarRows (p : Pred) (sa : SReg) (s : State) : Host.Outcome State Fault Refusal :=
  rowsWord p s (fun w => (w.getS sa.toNat).toNat % 2 ^ 32)
def execGbarRowsI (p : Pred) (n : BitVec 17) (s : State) : Host.Outcome State Fault Refusal := rowsWord p s (fun _ => n.toNat)

/-! ### VSYNC (R355, R356) -/

/-- VSYNC: the lanes of active(S) begin to wait, and the waiting lanes are evaluated once. -/
def execVsync (p : Pred) (va : VReg) (s : State) : Host.Outcome State Fault Refusal :=
  onceWord p s (fun w =>
    let act := lanesOf (w.active s.slotB p)
    let w1 := { w with sync := act.foldl (fun m l => Cells.set none m l (some (w.getV va.toNat l))) w.sync }
    let s1 := s.setWave s.cur w1
    match evalSync w1 with
    | .mismatch lanes detail => raiseLanes s .syncMaskMismatch lanes detail 0
    | .waits => .wait .sync s1
    | .release lanes =>
      let w2 := dropSync w1 lanes
      let s2 := passSynced (s.setWave s.cur w2) s.cur
      if slotSyncs w2 s.slotB then .wait .sync s2 else .done s2 [])

/-! ### GELECT (R357) and CKPT (R358) -/

def electWord (p : Pred) (md : MReg) (s : State) (role : Wave → Nat) : Host.Outcome State Fault Refusal :=
  onceWord p s (fun w =>
    let act := w.active s.slotB p
    match s.groupOf w with
    | none => raiseActive s w p .notMember 0
    | some g => match g.elect (role w) with
      | none => raiseActive s w p .roleInvalid 0
      | some r =>
        let mine := ((g.memberOf s.cur).map (·.rank)) == some r
        let low := ((lanesOf act).map laneBit).headD 0
        doneWave s (w.setM md.toNat (if mine then low else 0)))

def execGelect (p : Pred) (md : MReg) (sa : SReg) (s : State) : Host.Outcome State Fault Refusal :=
  electWord p md s (fun w => (w.getS sa.toNat).toNat % 8)
def execGelectI (p : Pred) (md : MReg) (role : BitVec 3) (s : State) : Host.Outcome State Fault Refusal :=
  electWord p md s (fun _ => role.toNat)

/-- CKPT: a wave with a pre-emption request is evicted at the word, which executes again when it resumes. -/
def execCkpt (s : State) : Host.Outcome State Fault Refusal :=
  let leaves := match s.wave s.cur with
    | some w => w.run.preempt && w.active s.slotB (wordPred s.ir) != 0 && s.raised.isEmpty
    | none => false
  if leaves then .next (evictHere (s.updWave s.cur (fun w => { w with run := { w.run with lastSlotB := s.slotB } })) s.cur none)
  else onceWord (wordPred s.ir) s (fun _ => .done s [])

end Sys2Proof.Machine
end

