-- ==== Sys2Proof/Machine/Merge.lean ====
section
/-! DEFINITION. The Merge Unit (17_attention_merge R364-R377): the descriptor and its checks, matching and combination, the
map object, TMERGE and TUNMERGE, MERGE_COMPLETION, and what an abandoned operation leaves. An operation takes effect at
its completion, but for what it may have read and written before (R376, log 52). -/

namespace Sys2Proof.Machine

/-! ### Accesses within the regions of a card (R324) -/

/-- The causes of a range: those of its permitted pieces, and CHAIN_FORMAT for the others. -/
def limitRaises (s : State) (g : Agent) (l : Limits) (write : Bool) (va n : Nat) : List Raise :=
  if n = 0 then []
  else (l.pieces va n write).flatMap (fun e =>
    if e.2.2 then rangeRaises s g (if write then .write else .read) e.1 e.2.1
    else [{ cause := .chainFormat, detail := 2, addr := BitVec.ofNat 64 e.1 }])

/-- The causes that stop an operation: one outside the regions of its card only leaves that access out. -/
def stopping (rs : List Raise) : List Raise := rs.filter (fun r => r.cause != .chainFormat)

/-- A range's bytes: those outside the regions are free values. -/
def limitRead (s : State) (g : Agent) (l : Limits) (va n : Nat) : State × List Byte :=
  if n = 0 then (s, [])
  else (l.pieces va n false).foldl (fun (acc : State × List Byte) e =>
    if e.2.2 then
      let r := takeRange acc.1 g e.1 e.2.1
      (r.1, acc.2 ++ r.2)
    else (acc.1, acc.2 ++ (List.range e.2.1).map (fun k => Config.freeByte (s.fresh * 2 ^ 64 + e.1 + k)))) (s, [])

/-- Writes a range but for the bytes outside the regions. -/
def limitWrite (s : State) (g : Agent) (l : Limits) (va : Nat) (bs : List Byte) : State :=
  if bs.isEmpty then s
  else (l.pieces va bs.length true).foldl (fun s e =>
    if e.2.2 then rangeWrite s g e.1 ((bs.drop (e.1 - va)).take e.2.1) else s) s

/-! ### The descriptor (R365, R374) -/

structure MergeDesc where
  op : Nat
  flags : Nat
  res : Nat
  gen : Nat
  ntok : Nat
  r : Nat
  dk : Nat
  dx : Nat
  kaddr : Nat
  xaddr : Nat
  oaddr : Nat
  saddr : Nat
  osaddr : Nat
  map : Nat
  deriving DecidableEq, Repr

def mergeDesc (b : List Byte) : MergeDesc :=
  { op := fieldAt b 0 1, flags := fieldAt b 1 1, res := fieldAt b 2 2, gen := fieldAt b 4 4, ntok := fieldAt b 8 2
    r := fieldAt b 10 2, dk := fieldAt b 12 2, dx := fieldAt b 14 2, kaddr := fieldAt b 16 8, xaddr := fieldAt b 24 8
    oaddr := fieldAt b 32 8, saddr := fieldAt b 40 8, osaddr := fieldAt b 48 8, map := fieldAt b 56 8 }

namespace MergeDesc

def compose (d : MergeDesc) : Bool := d.flags.testBit 0
def sizes (d : MergeDesc) : Bool := d.flags.testBit 1
def sizeOut (d : MergeDesc) : Bool := d.flags.testBit 2
def nout (d : MergeDesc) : Nat := d.ntok - d.r

end MergeDesc

/-- The fields of a descriptor; `merge` for TMERGE. -/
def descRaises (d : MergeDesc) (merge : Bool) : List Raise :=
  let one (b : Bool) (detail : Nat) : List Raise := if b then [{ cause := .illegalField, detail := detail }] else []
  one (d.op != if merge then 1 else 2) 0x10
    ++ one (!(decide (1 ≤ d.ntok) && decide (d.ntok ≤ 1024) && decide (1 ≤ d.dx) && decide (d.dx ≤ 1024))
      || (merge && (decide (d.ntok / 2 < d.r) || d.dk == 0 || decide (256 < d.dk)))) 0x11
    ++ one (d.res != 0 || decide (8 ≤ d.flags)
      || (if merge then (!d.sizes && d.saddr != 0) || (!d.sizeOut && d.osaddr != 0)
          else d.flags != 0 || d.r != 0 || d.dk != 0 || d.kaddr != 0 || d.saddr != 0 || d.osaddr != 0)) 0x12

def alignRaises (d : MergeDesc) : List Raise :=
  ([(d.kaddr, 4), (d.xaddr, 4), (d.oaddr, 4), (d.saddr, 4), (d.osaddr, 4), (d.map, 16)].filter (fun e => e.1 % e.2 != 0)).map
    (fun e => { cause := .misaligned, addr := BitVec.ofNat 64 e.1 })

/-- Whether the first ranges meet one another or any of the others (R365). -/
def rangesMeet (outs ins : List (Nat × Nat)) : Bool :=
  (List.range outs.length).any (fun k => match outs[k]? with
    | none => false
    | some a => (outs.drop (k + 1)).any (fun b => overlap a.1 a.2 b.1 b.2) || ins.any (fun b => overlap a.1 a.2 b.1 b.2))

/-- The bytes of a map object (R370). -/
def mapBytes (nin nout : Nat) : Nat := 16 + (2 * nin + 2 * nout + 15) / 16 * 16

def halves (b : List Byte) (off n : Nat) : List Nat := (List.range n).map (fun k => fieldAt b (off + 2 * k) 2)

/-! ### Matching and combining (R366-R369) -/

/-- Products summed by the tree of R37. -/
def similarity (ka kb : List W32) : W32 :=
  let ps := List.zipWith mul32 ka kb
  let n := ((List.range 9).find? (fun k => decide (ps.length ≤ 2 ^ k))).getD 8
  let padded : List Entered := ps.map (fun x => some (x, 0)) ++ List.replicate (2 ^ n - ps.length) none
  (((treeOf (fun a b => (add32 a b, 0)) n padded).1).map (fun (e : W32 × W32) => e.1)).getD 0

/-- R366: the order of similarities, NaN least and the zeros equal. -/
def simOrder (x : W32) : Int :=
  let m := (x &&& 0x7FFF_FFFF).toNat
  if 0x7F80_0000 < m then -(2 ^ 40) else if x.getLsbD 31 then -(m : Int) else m

/-- best(a) and its score: the lowest b of the greatest similarity. -/
def bestOf (keys : List (List W32)) (n a : Nat) : Nat × Int :=
  let ka := keys.getD a []
  ((List.range (n / 2)).map (fun k => (2 * k + 1, simOrder (similarity ka (keys.getD (2 * k + 1) []))))).foldl
    (fun (m : Nat × Int) e => if m.1 = 0 ∨ m.2 < e.2 then e else m) (0, 0)

/-- The `r` tokens of the greatest scores, ties to the lowest, out of (a, best, score). -/
def mergedAway : Nat → List (Nat × Nat × Int) → List (Nat × Nat × Int)
  | 0, _ => []
  | r + 1, xs =>
    match xs with
    | [] => []
    | x :: rest =>
      let top := rest.foldl (fun m e => if m.2.2 < e.2.2 then e else m) x
      top :: mergedAway r (xs.filter (fun e => e.1 != top.1))

/-- R368: the rows and the sizes after the merges, in ascending order of a. -/
def combine (n : Nat) (away : List (Nat × Nat × Int)) (rows : List (List W32)) (sizes : List W32) :
    List (List W32) × List W32 :=
  ((List.range n).filterMap (fun a => away.find? (fun e => e.1 == a))).foldl (fun (acc : List (List W32) × List W32) e =>
    let sa := acc.2.getD e.1 0
    let sb := acc.2.getD e.2.1 0
    let den := add32 sa sb
    let xa := acc.1.getD e.1 []
    (updAt acc.1 e.2.1 (fun xb => List.zipWith (fun p q => div32 (add32 (mul32 sa p) (mul32 sb q)) den) xa xb),
      updAt acc.2 e.2.1 (fun _ => den))) (rows, sizes)

/-- What a merge gives: its output rows and sizes, DEST and SRC of this layer. -/
structure Merged where
  rows : List (List W32)
  sizes : List W32
  dest : List Nat
  src : List Nat
  deriving DecidableEq, Repr

def mergeTokens (n r : Nat) (keys rows : List (List W32)) (sizes : List W32) : Merged :=
  let scored := if r = 0 then [] else (List.range ((n + 1) / 2)).map (fun k => (2 * k, bestOf keys n (2 * k)))
  let away := mergedAway r scored
  let out := combine n away rows sizes
  let gone (t : Nat) : Bool := away.any (fun e => e.1 == t)
  let kept := (List.range n).filter (fun t => !gone t)
  let place (t : Nat) : Nat := (kept.filter (fun k => decide (k < t))).length
  { rows := kept.map (fun t => out.1.getD t []), sizes := kept.map (fun t => out.2.getD t 0)
    dest := (List.range n).map (fun t => place (match away.find? (fun e => e.1 == t) with
      | some e => e.2.1
      | none => t))
    src := kept }

/-! ### Running an operation (R373, R374) -/

/-- What an operation does: the causes that stop it, else its state after its reads and its writes in order; the writes
before the map stand first. `outside`: an access outside the regions of a card was left out. -/
structure MergeRun where
  stop : List Raise := []
  state : State
  outputs : List (Nat × List Byte) := []
  map : List (Nat × List Byte) := []
  result : Nat := 0
  outside : Bool := false
  /-- POISON_CONSUMED among the rows, which step 3 reads: outputs may have been written (R374). -/
  late : Bool := false
  deriving Repr

def rowsOf (dx : Nat) (b : List Byte) : List (List W32) := partsBy dx (wordsOf b)

/-- The descriptor at an address, or its causes. -/
def readDesc (s : State) (g : Agent) (l : Limits) (va : Nat) : List Raise × State × MergeDesc :=
  let rs := (if va % 64 = 0 then [] else [({ cause := .misaligned, addr := BitVec.ofNat 64 va } : Raise)])
    ++ limitRaises s g l false va 64
  if (stopping rs).all (fun x => x.cause == .misaligned) then
    let r := limitRead s g l va 64
    (rs, r.1, mergeDesc r.2)
  else (rs, s, mergeDesc [])

/-- TMERGE of a descriptor. The header of the prior map is checked before the rest of that map is sized by it (R371). -/
def runMerge (s : State) (g : Agent) (l : Limits) (d : MergeDesc) (before : List Raise) : MergeRun :=
  let n := d.ntok
  let hdrRaises := if d.compose then limitRaises s g l false d.map 16 else []
  let hdr := if d.compose && (stopping hdrRaises).isEmpty then (limitRead s g l d.map 16).2 else []
  let stale (c : Bool) (k : Nat) : List Raise := if c then [{ cause := .mergeMapStale, detail := k }] else []
  let nin := if d.compose then fieldAt hdr 4 2 else n
  let prior := fieldAt hdr 6 2
  let bad := if d.compose then stale (fieldAt hdr 0 4 != (d.gen + 2 ^ 32 - 1) % 2 ^ 32) 4 ++ stale (prior != n) 5
      ++ stale (nin == 0 || decide (1024 < nin)) 6
    else []
  let known := !d.compose || (!hdr.isEmpty && bad.isEmpty)
  let read := if d.compose then (if known then mapBytes nin prior else 16) else 0
  let size := if known then max (mapBytes nin d.nout) read else 16
  let outs := [(d.oaddr, d.nout * d.dx * 4), (d.map, size)] ++ (if d.sizeOut then [(d.osaddr, d.nout * 4)] else [])
  let keyed := [(d.kaddr, n * d.dk * 4)] ++ (if d.sizes then [(d.saddr, n * 4)] else [])
  let fields := descRaises d true
    ++ (if rangesMeet outs (keyed ++ [(d.xaddr, n * d.dx * 4)]) then [{ cause := .illegalField, detail := 0x13 }] else [])
  if !fields.isEmpty then { stop := fields, state := s }
  else
    let early := before ++ alignRaises d ++ keyed.flatMap (fun e => limitRaises s g l false e.1 e.2)
      ++ hdrRaises ++ (if d.compose then limitRaises s g l false d.map read else [])
      ++ outs.flatMap (fun e => limitRaises s g l true e.1 e.2)
    let rowRs := limitRaises s g l false d.xaddr (n * d.dx * 4)
    let rs := early ++ rowRs.filter (fun r => r.cause != .poisonConsumed)
    if !(stopping rs ++ bad).isEmpty then { stop := stopping rs ++ bad, state := s }
    else
      let k := limitRead s g l d.kaddr (n * d.dk * 4)
      let z := if d.sizes then limitRead k.1 g l d.saddr (n * 4) else (k.1, [])
      let m := if d.compose then limitRead z.1 g l d.map read else (z.1, [])
      let pdest := halves m.2 16 nin
      let psrc := halves m.2 (16 + 2 * nin) prior
      let old := if d.compose then stale (pdest.any (fun x => decide (n ≤ x)) || psrc.any (fun x => decide (nin ≤ x))) 6
        else []
      if !old.isEmpty then { stop := old, state := s }
      else
        let x := limitRead m.1 g l d.xaddr (n * d.dx * 4)
        let r := mergeTokens n d.r (rowsOf d.dk k.2) (rowsOf d.dx x.2)
          (if d.sizes then wordsOf z.2 else List.replicate n 0x3F80_0000)
        let dest := if d.compose then pdest.map (fun i => r.dest.getD i 0) else r.dest
        let src := if d.compose then r.src.map (fun j => psrc.getD j 0) else r.src
        let nin1 := if d.compose then nin else n
        let body := (dest ++ src).flatMap (leBytes 2)
        { stop := rowRs.filter (fun r => r.cause == .poisonConsumed)
          late := rowRs.any (fun r => r.cause == .poisonConsumed)
          outside := (rs ++ rowRs).any (fun r => r.cause == .chainFormat)
          state := x.1
          outputs := (d.oaddr, (r.rows.map wordsImage).flatten) :: (if d.sizeOut then [(d.osaddr, wordsImage r.sizes)] else [])
          map := [(d.map + 16, padTo 16 body), (d.map, leBytes 4 d.gen ++ leBytes 2 nin1 ++ leBytes 2 d.nout ++ List.replicate 8 0)]
          result := d.nout }

/-- TUNMERGE of a descriptor. The map header is checked before the map and the merged rows are sized by it, and only the
merged rows that some DEST names are read (R373). -/
def runUnmerge (s : State) (g : Agent) (l : Limits) (d : MergeDesc) (before : List Raise) : MergeRun :=
  let n := d.ntok
  let hdrRaises := limitRaises s g l false d.map 16
  let hdr := if (stopping hdrRaises).isEmpty then (limitRead s g l d.map 16).2 else []
  let stale (c : Bool) (k : Nat) : List Raise := if c then [{ cause := .mergeMapStale, detail := k }] else []
  let bad := stale (fieldAt hdr 0 4 != d.gen) 1 ++ stale (fieldAt hdr 4 2 != n) 2
  let known := !hdr.isEmpty && bad.isEmpty
  let nout := if known then fieldAt hdr 6 2 else 0
  let size := if known then mapBytes n nout else 16
  let fields := descRaises d false
    ++ (if rangesMeet [(d.oaddr, n * d.dx * 4)] [(d.xaddr, nout * d.dx * 4), (d.map, size)] then
      [{ cause := .illegalField, detail := 0x13 }] else [])
  if !fields.isEmpty then { stop := fields, state := s }
  else
    let rs := before ++ alignRaises d ++ hdrRaises ++ limitRaises s g l false d.map size
      ++ limitRaises s g l true d.oaddr (n * d.dx * 4)
    if !(stopping rs ++ bad).isEmpty then { stop := stopping rs ++ bad, state := s }
    else
      let m := limitRead s g l d.map size
      let dest := halves m.2 16 n
      let rows := dest.map (fun k => d.xaddr + 4 * d.dx * k)
      let rowRs := rows.flatMap (fun a => limitRaises s g l false a (4 * d.dx))
      let old := stale (dest.any (fun x => decide (nout ≤ x))) 3
        ++ (stopping rowRs).filter (fun r => r.cause != .poisonConsumed)
      if !old.isEmpty then { stop := old, state := s }
      else
        let x := rows.foldl (fun (acc : State × List Byte) a =>
          let r := limitRead acc.1 g l a (4 * d.dx)
          (r.1, acc.2 ++ r.2)) (m.1, [])
        { stop := rowRs.filter (fun r => r.cause == .poisonConsumed)
          late := rowRs.any (fun r => r.cause == .poisonConsumed)
          outside := (rs ++ rowRs).any (fun r => r.cause == .chainFormat)
          state := x.1
          outputs := [(d.oaddr, x.2)] }

/-- An operation of the Merge Unit: the descriptor's address, its OP. -/
def runMergeAt (s : State) (g : Agent) (l : Limits) (va : Nat) (merge : Bool) : MergeRun :=
  let r := readDesc s g l va
  if (stopping r.1).any (fun x => x.cause != .misaligned) then { stop := stopping r.1, state := s }
  else if merge then runMerge r.2.1 g l r.2.2 r.1
  else runUnmerge r.2.1 g l r.2.2 r.1

/-- The ranges that an operation reads: its descriptor, its input arrays, its map. -/
def mergeReads (s : State) (g : Agent) (va : Nat) (merge : Bool) : List (Nat × Nat) :=
  let d := (readDesc s g {} va).2.2
  let hdr := (limitRead s g {} d.map 16).2
  let map := (d.map, mapBytes (fieldAt hdr 4 2) (fieldAt hdr 6 2))
  (va, 64) :: (if merge then [(d.kaddr, 4 * d.ntok * d.dk), (d.xaddr, 4 * d.ntok * d.dx)]
      ++ (if d.sizes then [(d.saddr, 4 * d.ntok)] else []) ++ (if d.compose then [map] else [])
    else [map, (d.xaddr, 4 * fieldAt hdr 6 2 * d.dx)])

/-- An operation of a wave that has read some bytes before: what it does, with these bytes as it read them. -/
def runSeen (s : State) (g : Agent) (va : Nat) (merge : Bool) (seen : List (Nat × Byte)) : MergeRun :=
  if seen.isEmpty then runMergeAt s g {} va merge
  else { runMergeAt (seen.foldl (fun t e => t.writePA e.1 [e.2]) s) g {} va merge with
    state := (runMergeAt s g {} va merge).state }

/-- The writes of an operation take effect in their order (R373). -/
def writeAll (s : State) (g : Agent) (l : Limits) (ws : List (Nat × List Byte)) : State :=
  ws.foldl (fun s e => limitWrite s g l e.1 e.2) s

/-- R375: each 4-byte element of the outputs is old or new, which one is free. -/
def tearOutputs (s : State) (g : Agent) (ws : List (Nat × List Byte)) : State :=
  (ws.foldl (fun s e => (List.range (e.2.length / 4)).foldl (fun s k =>
    if Config.pickAgent (s.fresh * 2 ^ 64 + (e.1 + 4 * k)) % 2 = 0 then s
    else rangeWrite s g (e.1 + 4 * k) ((e.2.drop (4 * k)).take 4)) s) s).nextFresh

/-! ### TMERGE and TUNMERGE (R372) -/

/-- A word of the Merge Unit: a wave holds at most one pending operation (R364). -/
def mergeWord (p : Pred) (la : BitVec 4) (i : Instr) (sa : SReg) (s : State) : Host.Outcome State Fault Refusal :=
  let u := Instr.uses s.ir i
  onceWord p s (fun w =>
    if (s.cluster w.place.cluster).mergeQueue.any (fun m => m.wave == s.cur && m.card.isNone) then .wait .mergeRoom s
    else
      let c : Captured := { instr := i, word := s.ir, pc := pcOf s w, slotB := s.slotB, lanes := w.active s.slotB p
                            scalars := [w.getS sa.toNat], vectors := [], order := w.run.issued }
      let s1 := s.updCluster w.place.cluster (fun k => { k with
        mergeQueue := k.mergeQueue ++ [{ wave := s.cur, cap := c, card := none }] })
      .done (s1.updWave s.cur (fun w => { w with windows := w.windows ++ opWindow c la.toNat u.reads })) [])

def execTmerge (p : Pred) (la : BitVec 4) (d : SReg) (sa : SReg) (s : State) : Host.Outcome State Fault Refusal :=
  mergeWord p la (.tmerge p la d sa) sa s
def execTunmerge (p : Pred) (la : BitVec 4) (sa : SReg) (s : State) : Host.Outcome State Fault Refusal :=
  mergeWord p la (.tunmerge p la sa) sa s

/-! ### MERGE_COMPLETION -/

/-- What limits the global accesses of a card. -/
def cardLimits (header : List Byte) : Limits :=
  { regions := some (((cardRegions header).filter (fun r => r.2.2 != 0)).map (fun r =>
      (r.1, r.2.1, r.2.2 % 2 == 1, decide (2 ≤ r.2.2)))) }

/-- A card's service waits on the Owl, or its 17th fault is recorded (R409): the cause to record. -/
def cardService (s : State) (cl : Nat) (k : Card) (r : Raise) : State :=
  if r.cause != .pageNotPresent then failCard s cl k.number r
  else
    let n := if k.serving.addr = r.addr.toNat then k.serving.faults else 0
    if (k.serving.declined).any (fun d => d.1 == r.addr.toNat) then failCard s cl k.number r
    else if 16 ≤ n then failCard s cl k.number { r with cause := .replayLimit }
    else updCard s cl k.number (fun c => { c with serving := { c.serving with
      addr := r.addr.toNat, faults := n + 1, waiting := true } })

/-- The operation that the Merge Unit of a cluster runs. -/
def mergeHead (s : State) (cl : Nat) : Option MergeOp := ((s.cluster cl).mergeQueue.filter (fun m => !m.torn)).head?

def dropMerge (s : State) (cl : Nat) : State :=
  s.updCluster cl (fun c => { c with mergeQueue := c.mergeQueue.drop 1 })

/-- The issuing wave takes the cause of its operation; a retired one drops it (log 22). -/
def faultMerge (s : State) (cl : Nat) (o : MergeOp) (r : Raise) : State :=
  match s.wave o.wave with
  | none => dropMerge s cl
  | some w =>
    if w.run.status == .retiring then dropMerge s cl
    else
      let pnp := r.cause == .pageNotPresent
      let n := if pnp && o.cap.faults < 16 then o.cap.faults + 1 else 0
      let s1 := s.updCluster cl (fun c => { c with
        mergeQueue := updAt c.mergeQueue 0 (fun m => { m with cap := { m.cap with faults := n } }) })
      let r1 := { r with cause := if pnp && decide (16 ≤ o.cap.faults) then Cause.replayLimit else r.cause, lanes := o.cap.lanes }
      takeAsync s1 o.wave r1 o.cap.slotB o.cap.pc o.cap.word

/-- The abandoned operation of a wave that took its own cause before any write is not torn. -/
def untear (s : State) (cl : Nat) : State :=
  s.updCluster cl (fun c => { c with mergeQueue := c.mergeQueue.filter (fun m => !m.torn) })

/-- The register that TMERGE writes. -/
def mergeDest : Instr → Option Nat
  | .tmerge _ _ d _ => some d.toNat
  | _ => none

/-- The last writes of an operation of a wave, its map among them, and its end (R373). -/
def endMerge (s : State) (cl : Nat) (o : MergeOp) (w : Wave) (ws : List (Nat × List Byte)) (result : Nat) : State :=
  endOp (dropMerge (writeAll s (engineAgent w) {} ws) cl).nextFresh o.wave (mergeDest o.cap.instr) (BitVec.ofNat 64 result)
    o.cap.order

/-- Completes an operation of a wave; one that writes its map already goes on with it, and reads nothing more. -/
def completeMerge (s : State) (cl : Nat) (o : MergeOp) (w : Wave) : State :=
  match o.rest with
  | some (ws, result) => endMerge s cl o w ws result
  | none =>
    let m := runSeen s (engineAgent w) (o.cap.scalars.headD 0).toNat (mergeDest o.cap.instr).isSome o.seen
    match settleRaises m.stop with
    | some r =>
      let s1 := faultMerge s.nextFresh cl o r
      if m.late then s1 else untear s1 cl
    | none => endMerge m.state cl o w (m.outputs ++ m.map) m.result

/-- Completes an operation of a merge card (R377); its descriptor stands at 0x40 of the card. An operation whose cause is
recorded against the card has ended. -/
def completeMergeCard (s : State) (cl : Nat) (w : Wave) (k : Card) : State :=
  let g := engineAgent w
  let l := cardLimits k.header
  let d := mergeDesc ((k.header.drop 0x40).take 64)
  let m := if d.op = 1 then runMerge s g l d [] else runUnmerge s g l d []
  match settleRaises m.stop with
  | some r =>
    let s1 := cardService s.nextFresh cl k r
    if (findCard s1 cl k.number).any (·.serving.waiting) then s1 else dropMerge s1 cl
  | none =>
    let s1 := (dropMerge (writeAll m.state g l (m.outputs ++ m.map)) cl).nextFresh
    if m.outside then failCard s1 cl k.number { cause := .chainFormat, detail := 2 }
    else updCard s1 cl k.number (fun c => { c with finished := true })

/-- MERGE_COMPLETION. -/
def execMergeCompletion (s : State) : Host.Outcome State Fault Refusal :=
  match s.target with
  | .cluster cl => match mergeHead s cl with
    | none => .refused .notEnabled
    | some o => match s.wave o.wave, o.card with
      | none, _ => .refused .notEnabled
      | some w, none => .next (completeMerge s cl o w)
      | some w, some n => match findCard s cl n with
        | none => .refused .notEnabled
        | some k => if k.serving.waiting then .refused .notEnabled else .next (completeMergeCard s cl w k)
  | _ => .refused .notEnabled

/-! ### What an abandoned operation leaves (R375) -/

/-- The outputs of torn operations hold a mixture; the step applies this after every word and event. -/
def settleTorn (s : State) : State :=
  (List.range s.clusters.length).foldl (fun s cl =>
    match (s.cluster cl).mergeQueue.find? (·.torn) with
    | none => s
    | some o =>
      let s1 := untear s cl
      match s1.wave o.wave with
      | none => s1
      | some w =>
        let g := engineAgent w
        let m := runMergeAt s1 g {} (o.cap.scalars.headD 0).toNat (mergeDest o.cap.instr).isSome
        if m.stop.isEmpty || m.late then tearOutputs s1 g m.outputs else s1) s

/-! ### An operation under way (R376) -/

/-- The 4-byte elements of some ranges that an operation reads early, as free choices, with their bytes now. -/
def readEarly (s : State) (g : Agent) (seen : List (Nat × Byte)) (rs : List (Nat × Nat)) : List (Nat × Byte) :=
  rs.flatMap (fun r => (List.range (r.2 / 4)).flatMap (fun k =>
    let va := r.1 + 4 * k
    if Config.pickAgent (s.fresh * 2 ^ 64 + va) % 2 = 0 then []
    else match (partOf s g .read va 4).page with
      | .error _ => []
      | .ok p => if seen.any (fun e => e.1 == p.pa) then [] else (s.readPA p.pa 4).mapIdx (fun j b => (p.pa + j, b))))

/-- The operation of a wave that its Merge Unit runs, one that meets no cause, may have got on with its work: some elements of
its inputs are read, some of its output elements are new. When all its outputs are written it may begin with the map, of which
some elements are new then; the header is written last (R373). The words in its window see that (R376); how far it has come, and
which elements, is free. -/
def advanceMerge (s : State) (cl : Nat) : State :=
  match mergeHead s cl with
  | none => s
  | some o => match s.wave o.wave, o.card with
    | some w, none =>
      let g := engineAgent w
      let va := (o.cap.scalars.headD 0).toNat
      let merge := (mergeDest o.cap.instr).isSome
      let change (s : State) (f : MergeOp → MergeOp) : State :=
        s.updCluster cl (fun c => { c with mergeQueue := updAt c.mergeQueue 0 f })
      let pick := Config.pickAgent (s.fresh * 2 ^ 64 + 2 ^ 63 + cl)
      if pick % 2 = 0 then s
      else match o.rest with
      | some (ws, _) => tearOutputs s g (ws.take 1)
      | none =>
        let m := runSeen s g va merge o.seen
        if !m.stop.isEmpty then s
        else if pick / 2 % 2 = 1 && !m.map.isEmpty then
          (change (writeAll m.state g {} m.outputs) (fun x => { x with rest := some (m.map, m.result) })).nextFresh
        else
          let seen := o.seen ++ readEarly s g o.seen (mergeReads s g va merge)
          tearOutputs (change s (fun x => { x with seen := seen })) g m.outputs
    | _, _ => s

def advanceMerges (s : State) : State := (List.range s.clusters.length).foldl advanceMerge s

end Sys2Proof.Machine
end

