-- ==== Sys2Proof/Machine/Tasks.lean ====
section
/-! DEFINITION. Tasks, pipelines and the page fork (19_die R384-R389, R393-R402, R406, R407, R411): SPAWN, SPAWN.pipe, QPUSH,
QPOP, TDONE, FORKPG and QUEUE_AUTO_CLOSE. The dispatch round stands in Dispatcher.lean. -/

namespace Sys2Proof.Machine

/-! ### Footprints and records (R384-R388) -/

/-- The fields of a footprint word (R385). -/
structure Footprint where
  pipe : Nat
  stage : Nat
  depth : Nat
  edges : Nat
  frames : Nat
  /-- In 4 KiB units. -/
  scratch : Nat
  /-- In register units of 64. -/
  units : Nat
  deriving DecidableEq, Repr

def footprint (x : W32) : Footprint :=
  let n := x.toNat
  { pipe := bitsOf n 31 30, stage := bitsOf n 29 27, depth := bitsOf n 26 23, edges := bitsOf n 22 19
    frames := bitsOf n 18 13, scratch := bitsOf n 12 5, units := bitsOf n 4 0 + 1 }

/-- A footprint field out of range, or reserved to the dispatcher (R394). -/
def Footprint.bad (f : Footprint) : Bool :=
  decide (8 < f.edges) || decide (32 < f.frames) || decide (128 < f.scratch) || f.pipe != 0 || f.stage != 0

/-- A placement byte that breaks R386: PIPED, or a size without a set. -/
def placementBad (p : Nat) : Bool := p.testBit 7 || (!p.testBit 6 && p % 32 != 0)

/-- The lookup of R388: the physical address by the first entry that is a leaf, V and LEAF checked alone. -/
def leafAt (s : State) (va table : Nat) : List (Nat × Nat × Bool × Bool) → Option Nat
  | [] => none
  | (lo, bits, _) :: rest =>
    let e := leNat (s.readPA (table + 16 * (va / 2 ^ lo % 2 ^ bits)) 16)
    let base := bitsOf e 51 12 * 4096
    if !e.testBit 0 then none
    else if e.testBit 1 then some (base + va % 2 ^ lo)
    else leafAt s va base rest

/-- R388: the die of a home address and its local stack, found by a lookup that checks V and LEAF alone. -/
def homeOf (s : State) (ctx : Nat) (home : Nat) (own : Nat) : Nat × Option Nat :=
  if home = 0 then (own, none)
  else match leafAt s home ((s.ctx ctx).root.toNat / 4096 * 4096) pageLevels with
    | some pa => if isHbm pa then (bitsOf pa 39 38, some (bitsOf pa 37 36)) else (own, none)
    | none => (own, none)

/-- An entry PC that is misaligned or too wide. -/
def entryRaises (lanes : W32) (x : W64) : List Raise :=
  if x.toNat % 8 ≠ 0 ∨ 2 ^ 56 ≤ x.toNat then [{ cause := .indirectTarget, lanes := lanes, detail := 1, addr := x }] else []

/-- The checks of a READY word (R394): its physical word, or its causes, a page that is not present as kind P. -/
def readyWord (s : State) (g : Agent) (lanes : W32) (x : W64) : Except (List Raise) Nat :=
  if x.toNat % 8 ≠ 0 then .error [{ cause := .misaligned, lanes := lanes, addr := x }]
  else match (partOf s g .read x.toNat 8).page with
    | .error c => .error [{ cause := c, lanes := lanes, addr := x, declined := true }]
    | .ok p => if p.tag then .ok p.pa else .error [{ cause := .tagNotEnabled, lanes := lanes, addr := x }]

/-- The fields of a record's 64 bytes. -/
def recordTask (s : State) (b : List Byte) (ctx depth own : Nat) (launch : W32) (ready : List Nat) : Nat × Task :=
  let h := homeOf s ctx (fieldAt b 0x10 8 % 2 ^ 56) own
  (h.1, { entry := BitVec.ofNat 64 (fieldAt b 0 8), args := BitVec.ofNat 64 (fieldAt b 8 8)
          home := BitVec.ofNat 64 (fieldAt b 0x10 8), foot := BitVec.ofNat 32 (fieldAt b 0x18 4), launch := launch
          ready := ready, isReady := ready.all (fun pa => s.mem.isFull pa), ctx := ctx, depth := depth, near := h.2
          passed := 0, reserving := [], number := s.ticket })

/-- The READY words of a record that are used. -/
def readyWords (s : State) (g : Agent) (lanes : W32) (b : List Byte) : List (Except (List Raise) Nat) :=
  ((List.range 4).map (fun k => BitVec.ofNat 64 (fieldAt b (0x20 + 8 * k) 8))).filterMap (fun (x : W64) =>
    if x = 0 then none else some (readyWord s g lanes x))

def okOnes (xs : List (Except (List Raise) Nat)) : List Nat := xs.filterMap (fun x => match x with
  | .ok n => some n
  | .error _ => none)
def errorOnes (xs : List (Except (List Raise) Nat)) : List Raise := xs.flatMap (fun x => match x with
  | .ok _ => []
  | .error rs => rs)

/-- The checks of a record but for the depth (R394). -/
def recordRaises (s : State) (g : Agent) (lanes : W32) (b : List Byte) : List Raise :=
  entryRaises lanes (BitVec.ofNat 64 (fieldAt b 0 8))
    ++ raiseIf lanes (footprint (BitVec.ofNat 32 (fieldAt b 0x18 4))).bad .footprintInvalid 3
    ++ raiseIf lanes (placementBad (fieldAt b 0x17 1)) .footprintInvalid 4
    ++ errorOnes (readyWords s g lanes b)

/-- A launch that has work has not drained (R396). -/
def noteLaunch (s : State) (ctx : Nat) (launch : W32) : State :=
  s.updCtx ctx (fun c => if c.launches.any (fun l => l.launch == launch) then c
    else { c with launches := c.launches ++ [{ launch := launch, killed := false }] })

/-- A record enters a die queue. -/
def enqueueTask (s : State) (die : Nat) (t : Task) : State :=
  (noteLaunch (s.updDie die (fun d => { d with queue := d.queue ++ [t] })) t.ctx t.launch).nextTicket

/-- The die queue of each die holds 4096 records (R388). -/
def queueFull (s : State) (die : Nat) : Bool := decide (4096 ≤ (s.die die).queue.length)

/-- SPAWN (R394). -/
def execSpawn (p : Pred) (la : BitVec 4) (sa : SReg) (s : State) : Host.Outcome State Fault Refusal :=
  let u := Instr.uses s.ir (.spawn p la sa)
  onceWord p s (fun w =>
    let lanes := w.active s.slotB p
    let g := waveAgent w s.cur
    let a := globalAccess s g 0 lanes .read (w.getS sa.toNat).toNat 64 64 false
    let depth := raiseIf lanes (w.place.depth == 8) .spawnDepth 0
    if !a.raises.isEmpty then .done s (a.raises ++ depth)
    else
      let r := readParts s g a.parts
      let rs := depth ++ recordRaises s g lanes r.2
      if !rs.isEmpty then .done s rs
      else
        let t := recordTask s r.2 w.place.ctx (w.place.depth + 1) (dieOf w.place.core) w.sys.launch
          (okOnes (readyWords s g lanes r.2))
        if queueFull s t.1 then .wait (.dieQueue t.1) s
        else .done ((enqueueTask r.1 t.1 t.2).updWave s.cur (fun w => holdWrites s w la u [])) [])

/-! ### Pipelines (R397-R399) -/

/-- A stage as its descriptor gives it. -/
structure StageDesc where
  entry : W64
  args : W64
  foot : W32
  maxt : Nat
  queue : W64
  deriving DecidableEq, Repr

def stageDesc (b : List Byte) (k : Nat) : StageDesc :=
  let o := 0x40 + 32 * k
  { entry := BitVec.ofNat 64 (fieldAt b o 8), args := BitVec.ofNat 64 (fieldAt b (o + 8) 8)
    foot := BitVec.ofNat 32 (fieldAt b (o + 16) 4), maxt := fieldAt b (o + 20) 4
    queue := BitVec.ofNat 64 (fieldAt b (o + 24) 8) }

/-- A queue of a descriptor image (R398), for its stage. -/
def queueOf (x : StageDesc) (b : List Byte) : PipeQueue :=
  { addr := x.queue, base := BitVec.ofNat 64 (fieldAt b 0 8), cap := fieldAt b 8 4, hwm := fieldAt b 12 4
    head := 0, tail := 0, closed := false, live := 0, entry := x.entry, args := x.args, foot := x.foot, maxt := x.maxt }

/-- A reserved or out-of-range field of a queue descriptor. -/
def queueFieldBad (b : List Byte) : Bool :=
  let cap := fieldAt b 8 4
  let hwm := fieldAt b 12 4
  fieldAt b 0 8 % 8 != 0 || !isPow2 cap 16 65536 || hwm == 0 || decide (cap < hwm) || decide (1 < fieldAt b 0x18 8)
    || fieldAt b 0x20 32 != 0

/-- HEAD, TAIL or CLOSED of a queue that is not registered. -/
def queueUsed (b : List Byte) : Bool := fieldAt b 0x10 8 != 0 || bitsOf (fieldAt b 0x18 8) 0 0 != 0

/-- A registered queue of a context. -/
def isRegistered (s : State) (ctx : Nat) (q : W64) : Bool :=
  s.dies.any (fun d => d.pipes.any (fun p => p.ctx == ctx && p.queues.any (fun x => x.addr == q)))

/-- The pipelines of a launch. -/
def pipesOf (s : State) (ctx : Nat) (launch : W32) : List Pipe :=
  s.dies.flatMap (fun d => d.pipes.filter (fun p => p.ctx == ctx && p.launch == launch))

/-- The next free index of a launch (R399). -/
def freeIndex (s : State) (ctx : Nat) (launch : W32) : Option Nat :=
  (List.range 4).find? (fun k => !(pipesOf s ctx launch).any (fun p => p.index == k))

/-- The fields of a pipeline descriptor's header and stages that are out of range. -/
def pipeFieldBad (b : List Byte) (n : Nat) : Bool :=
  n == 0 || decide (8 < n) || bitsOf (fieldAt b 0x08 8) 63 56 != 0 || fieldAt b 0x10 48 != 0
    || (List.range n).any (fun k =>
      let x := stageDesc b k
      x.maxt == 0 || decide (256 < x.maxt) || (footprint x.foot).depth != 0 || x.queue.toNat % 64 != 0)

/-- The checks of the stages and their queues; the images of the queues when they can be read. -/
def pipeRaises (s : State) (w : Wave) (lanes : W32) (b : List Byte) (n : Nat) : List Raise :=
  let g := waveAgent w s.cur
  let stages := (List.range n).map (stageDesc b)
  stages.flatMap (fun x =>
      entryRaises lanes x.entry ++ raiseIf lanes (footprint x.foot).bad .footprintInvalid 3
        ++ (if x.queue.toNat % 64 ≠ 0 then []
          else
            let a := globalAccess s g 0 lanes .read x.queue.toNat 64 64 false
            if !a.raises.isEmpty then a.raises
            else
              let q := (readParts s g a.parts).2
              let known := isRegistered s w.place.ctx x.queue
              raiseIf lanes (!known && queueFieldBad q) .queueFormat 1 ++ raiseIf lanes (known || queueUsed q) .queueFormat 2))
    ++ raiseIf lanes (pipeFieldBad b n || !(stages.map (·.queue)).Nodup) .queueFormat 1
    ++ raiseIf lanes (freeIndex s w.place.ctx w.sys.launch).isNone .queueFormat 3

/-- R398: a read of HEAD, TAIL and CLOSED of a registered queue returns free values. -/
def hideQueue (s : State) (ctx : Nat) (q : W64) : State :=
  privWrite s ctx (q.toNat + 0x10) ((List.range 16).map (fun k => Config.freeByte (s.fresh * 2 ^ 64 + (q.toNat + k))))

/-- SPAWN.pipe (R399). -/
def execSpawnPipe (p : Pred) (la : BitVec 4) (sa : SReg) (s : State) : Host.Outcome State Fault Refusal :=
  let u := Instr.uses s.ir (.spawnPipe p la sa)
  onceWord p s (fun w =>
    let lanes := w.active s.slotB p
    let g := waveAgent w s.cur
    let va := (w.getS sa.toNat).toNat
    let head := globalAccess s g 0 lanes .read va 64 64 false
    let depth := raiseIf lanes (w.place.depth == 8) .spawnDepth 0
    if !head.raises.isEmpty then .done s (head.raises ++ depth)
    else
      let h := readParts s g head.parts
      let n := fieldAt h.2 0 8
      if n = 0 ∨ 8 < n then .done s (depth ++ raiseIf lanes true .queueFormat 1)
      else
        let rest := globalAccess s g 0 lanes .read (va + 64) (32 * n) 32 false
        if !rest.raises.isEmpty then .done s (rest.raises ++ depth)
        else
          let t := readParts h.1 g rest.parts
          let b := h.2 ++ t.2
          let rs := depth ++ pipeRaises s w lanes b n
          if !rs.isEmpty then .done s rs
          else
            let ctx := w.place.ctx
            let home := BitVec.ofNat 64 (fieldAt b 8 8)
            let at_ := homeOf s ctx home.toNat (dieOf w.place.core)
            let queues := (List.range n).map (fun k =>
              let x := stageDesc b k
              queueOf x (readParts s g (partsOf s g .read x.queue.toNat 64)).2)
            let pipe : Pipe := { number := s.ticket, ctx := ctx, launch := w.sys.launch
                                 index := (freeIndex s ctx w.sys.launch).getD 0, home := home, depth := w.place.depth + 1
                                 near := at_.2, queues := queues }
            let s1 := queues.foldl (fun s q => hideQueue s ctx q.addr) t.1
            let s2 := noteLaunch (s1.updDie at_.1 (fun d => { d with pipes := d.pipes ++ [pipe] })) ctx w.sys.launch
            .done (s2.nextTicket.updWave s.cur (fun w => holdWrites s w la u [])) [])

/-! ### Queues (R401-R403) -/

/-- A registered queue: its die, its pipeline, its stage. -/
structure QueueAt where
  die : Nat
  pipe : Pipe
  k : Nat
  q : PipeQueue
  deriving DecidableEq, Repr

/-- The items in a queue. -/
def PipeQueue.items (q : PipeQueue) : Nat := (q.tail + 2 ^ 32 - q.head) % 2 ^ 32

/-- The queue at an address that is registered to a launch. -/
def findQueue (s : State) (ctx : Nat) (launch : W32) (addr : W64) : Option QueueAt :=
  (((List.range s.dies.length).flatMap (fun d => (s.die d).pipes.flatMap (fun p =>
    (p.queues.mapIdx (fun k q => ({ die := d, pipe := p, k := k, q := q } : QueueAt))))))).find?
      (fun x => x.pipe.ctx == ctx && x.pipe.launch == launch && x.q.addr == addr)

/-- The queue of a stage. -/
def queueAt (s : State) (die pipe k : Nat) : Option QueueAt :=
  ((s.die die).pipes.find? (fun p => p.number == pipe)).bind (fun p =>
    (p.queues[k]?).map (fun q => { die := die, pipe := p, k := k, q := q }))

def updQueue (s : State) (x : QueueAt) (f : PipeQueue → PipeQueue) : State :=
  s.updDie x.die (fun d => { d with pipes := d.pipes.map (fun p =>
    if p.number == x.pipe.number then { p with queues := updAt p.queues x.k f } else p) })

/-- The address of item `n` of a queue (R398). -/
def itemAddr (q : PipeQueue) (n : Nat) : Nat := (q.base.toNat + 8 * (n % q.cap)) % 2 ^ 64

/-- The access of a wave to an item. -/
def itemAccess (s : State) (w : Wave) (i : Nat) (lanes : W32) (need : Need) (q : PipeQueue) (n : Nat) : Access :=
  globalAccess s (waveAgent w i) 0 lanes need (itemAddr q n) 8 8 false

/-- Appends an item. -/
def putItem (s : State) (i : Nat) (w : Wave) (x : QueueAt) (v : W64) : State :=
  let a := itemAccess s w i 0 .write x.q x.q.tail
  updQueue (writeParts s (waveAgent w i) a.parts (leBytes 8 v.toNat)) x (fun q => { q with tail := (q.tail + 1) % 2 ^ 32 })

/-- Takes the oldest item. -/
def takeItem (s : State) (i : Nat) (w : Wave) (x : QueueAt) : State × W64 :=
  let a := itemAccess s w i 0 .read x.q x.q.head
  let r := readParts s (waveAgent w i) a.parts
  (updQueue r.1 x (fun q => { q with head := (q.head + 1) % 2 ^ 32 }), BitVec.ofNat 64 (leNat r.2))

/-- The resident waiters of a kind, in no order. -/
def waitersAt (s : State) (p : WaitKind → Bool) : List Waiter :=
  (List.range s.waves.length).flatMap (fun i => match s.wave i with
    | none => []
    | some w => (waitingAt w p).filterMap (fun b => (w.slot b).wait.map (fun x => ⟨i, b, x.ticket, false, x.word⟩)))

/-- A waiting word executes again. -/
def rouse (s : State) (x : Waiter) : State :=
  s.updWave x.wave (fun w => w.updSlot x.slotB (fun y => { y with wait := none }))

/-- Register numbers in the B field of a word: the scalar, and QPOP's mask register. -/
def wordB (ir : W64) : Nat := (ir.extractLsb' 10 6).toNat
def wordMd (ir : W64) : Nat := (ir.extractLsb' 10 4).toNat

/-- What a QPOP writes. -/
def popWrites (ir : W64) (v : W64) (m : W32) : List RegWrite := [.s (wordD ir) v, .m (wordMd ir) m]

/-- A waiting QPOP completes. -/
def servePop (s : State) (x : QueueAt) (y : Waiter) : State :=
  match s.wave y.wave with
  | none => s
  | some w =>
    let u := Use.waited y.word [.s (wordA y.word)] [.s (wordD y.word), .m (wordMd y.word)]
    let go (s : State) (v : W64) (m : W32) : State := passSlot s y.wave y.slotB (fun w =>
      w.openWindow y.slotB (wordLa y.word) u.writes u.reads (popWrites y.word v m))
    if x.q.items = 0 then go s 0 0
    else if !(itemAccess s w y.wave 0 .read x.q x.q.head).raises.isEmpty then rouse s y
    else
      let r := takeItem s y.wave w x
      go r.1 r.2 allLanes

/-- A waiting QPUSH completes. -/
def servePush (s : State) (x : QueueAt) (y : Waiter) : State :=
  match s.wave y.wave with
  | none => s
  | some w =>
    if !(itemAccess s w y.wave 0 .write x.q x.q.tail).raises.isEmpty then rouse s y
    else
      let u := Use.waited y.word [.s (wordA y.word), .s (wordB y.word)] []
      passSlot (putItem s y.wave w x (w.getS (wordB y.word))) y.wave y.slotB (fun w =>
        w.openWindow y.slotB (wordLa y.word) u.writes u.reads [])

def atItem (die pipe k : Nat) : WaitKind → Bool
  | .queueItem d p j _ => d == die && p == pipe && j == k
  | _ => false
def atRoom (die pipe k : Nat) : WaitKind → Bool
  | .queueRoom d p j _ => d == die && p == pipe && j == k
  | _ => false

/-- R403: the waiting pops and the waiting pushes of a queue are served in the order in which they began to wait. -/
def serveQueue : Nat → State → Nat → Nat → Nat → State
  | 0, s, _, _, _ => s
  | n + 1, s, die, pipe, k =>
    match queueAt s die pipe k with
    | none => s
    | some x =>
      let pops := firstWaiter (waitersAt s (atItem die pipe k))
      let pushes := firstWaiter (waitersAt s (atRoom die pipe k))
      match pops, decide (0 < x.q.items) || x.q.closed with
      | some y, true => serveQueue n (servePop s x y) die pipe k
      | _, _ => match pushes, decide (x.q.items < x.q.cap) || x.q.closed with
        | some y, true => serveQueue n (if x.q.closed then rouse s y else servePush s x y) die pipe k
        | _, _ => s

def settleQueue (s : State) (x : QueueAt) : State := serveQueue (4 * s.waves.length + 4) s x.die x.pipe.number x.k

/-- A push to a queue of a later stage comes from a task of the stage before it (R401). -/
def mayPush (w : Wave) (x : QueueAt) : Bool :=
  x.k == 0 || w.place.stage == some { die := x.die, pipe := x.pipe.number, stage := x.k - 1 }

/-- The causes of QPUSH and QPUSH.close (R401, R421). -/
def pushRaises (w : Wave) (lanes : W32) (x : Option QueueAt) : List Raise := match x with
  | none => raiseIf lanes true .queueFormat 4
  | some x => raiseIf lanes (!mayPush w x) .queueFormat 4 ++ raiseIf lanes x.q.closed .queueFormat 5

/-- QPUSH (R401). -/
def execQpush (p : Pred) (la : BitVec 4) (sa : SReg) (sb : SReg) (s : State) : Host.Outcome State Fault Refusal :=
  let u := Instr.uses s.ir (.qpush p la sa sb)
  onceWord p s (fun w =>
    let lanes := w.active s.slotB p
    let o := findQueue s w.place.ctx w.sys.launch (w.getS sa.toNat)
    let rs := pushRaises w lanes o
    match rs.isEmpty, o with
    | true, some x =>
      if x.q.cap ≤ x.q.items then .wait (.queueRoom x.die x.pipe.number x.k x.q.addr) s
      else
        let a := itemAccess s w s.cur lanes .write x.q x.q.tail
        if !a.raises.isEmpty then .done s a.raises
        else .done (settleQueue ((putItem s s.cur w x (w.getS sb.toNat)).updWave s.cur
          (fun w => holdWrites s w la u [])) x) []
    | _, _ => .done s rs)

/-- QPUSH.close (R401). -/
def execQpushClose (p : Pred) (la : BitVec 4) (sa : SReg) (s : State) : Host.Outcome State Fault Refusal :=
  let u := Instr.uses s.ir (.qpushClose p la sa)
  onceWord p s (fun w =>
    let o := findQueue s w.place.ctx w.sys.launch (w.getS sa.toNat)
    let rs := pushRaises w (w.active s.slotB p) o
    match rs.isEmpty, o with
    | true, some x => .done (settleQueue ((updQueue s x (fun q => { q with closed := true })).updWave s.cur
        (fun w => holdWrites s w la u [])) x) []
    | _, _ => .done s rs)

/-- QPOP (R402). -/
def execQpop (p : Pred) (la : BitVec 4) (d : SReg) (md : MReg) (sa : SReg) (s : State) : Host.Outcome State Fault Refusal :=
  let u := Instr.uses s.ir (.qpop p la d md sa)
  onceWord p s (fun w =>
    let lanes := w.active s.slotB p
    let write (s1 : State) (v : W64) (m : W32) : State :=
      s1.updWave s.cur (fun w => holdWrites s w la u [.s d.toNat v, .m md.toNat m])
    match findQueue s w.place.ctx w.sys.launch (w.getS sa.toNat) with
    | none => .done s (raiseIf lanes true .queueFormat 4)
    | some x =>
      if x.q.items = 0 then
        if x.q.closed then .done (write s 0 0) [] else .wait (.queueItem x.die x.pipe.number x.k x.q.addr) s
      else
        let a := itemAccess s w s.cur lanes .read x.q x.q.head
        if !a.raises.isEmpty then .done s a.raises
        else
          let r := takeItem s s.cur w x
          .done (settleQueue (write r.1 r.2 allLanes) x) [])

/-- Whether a queue closes by itself (R401): the one before it is closed and empty, and its stage has no live task. -/
def autoCloses (s : State) (x : QueueAt) : Bool :=
  !x.q.closed && decide (0 < x.k) && (match queueAt s x.die x.pipe.number (x.k - 1) with
    | some y => y.q.closed && y.q.items == 0 && y.q.live == 0
    | none => false)

/-- QUEUE_AUTO_CLOSE. -/
def execQueueAutoClose (s : State) : Host.Outcome State Fault Refusal :=
  match s.target with
  | .queue die pipe k => match queueAt s die pipe k with
    | none => .refused .notEnabled
    | some x =>
      if autoCloses s x then .next (settleQueue (updQueue s x (fun q => { q with closed := true })) x)
      else .refused .notEnabled
  | _ => .refused .notEnabled

/-! ### TDONE (R395) -/

/-- TDONE: every lane of both slots exits, and the wave retires. -/
def execTdone (s : State) : Host.Outcome State Fault Refusal :=
  onceWord (wordPred s.ir) s (fun w =>
    .placed (s.setWave s.cur { w with
      exited := allLanes, slotA := Slot.empty, slotB := Slot.empty, stack := [], sync := [] }) [])

/-! ### FORKPG (R411) -/

/-- What the walk for a destination finds: its L0 slot and the entry there, a cause, or a mapping above it. -/
inductive ForkSlot where
  | slot (pteAddr : Nat) (valid : Bool)
  | bad (c : Cause)
  deriving DecidableEq, Repr

/-- The L0 slot of an address, through the tables above it. -/
def slotFrom (s : State) (va : Nat) (table : Nat) : List (Nat × Nat × Bool × Bool) → ForkSlot
  | [] => .bad .pageNotPresent
  | (lo, bits, leafOk, leafMust) :: rest =>
    let pteAddr := table + 16 * (va / 2 ^ lo % 2 ^ bits)
    let e := leNat (s.readPA pteAddr 16)
    if leafMust then .slot pteAddr (e.testBit 0)
    else if !e.testBit 0 then .bad .pageNotPresent
    else if entryReserved e || (e.testBit 1 && !leafOk) then .bad .pageAttrReserved
    else if e.testBit 1 then .slot pteAddr true
    else slotFrom s va (bitsOf e 51 12 * 4096) rest

/-- A field of an entry, replaced. -/
def setBits (e hi lo x : Nat) : Nat := e - bitsOf e hi lo * 2 ^ lo + x % 2 ^ (hi + 1 - lo) * 2 ^ lo

/-- R411: an entry in memory. -/
def writeEntry (s : State) (pteAddr e : Nat) : State := s.writePA pteAddr (leBytes 16 e)

/-- Units of a set, copied from one place to another: what lies at the other place goes. -/
def copyUnits (src dst n : Nat) (m : NatSet) : NatSet :=
  (List.range n).foldl (fun m k => if m.has (src + k) then m.add (dst + k) else m) (Cells.clear m dst n)

/-- The copy of a 64 KiB page: bytes, full/empty bits and poison. -/
def copyPage (s : State) (src dst : Nat) : State :=
  let s1 := s.writePA dst (s.readPA src (2 ^ 16))
  { s1 with mem := { s1.mem with
      full := copyUnits (src / 8) (dst / 8) (2 ^ 13) s1.mem.full
      poison := copyUnits (src / 128) (dst / 128) (2 ^ 9) s1.mem.poison } }

/-- The fork pool of a context: the address of its header, and COUNT. -/
def poolCount (s : State) (ctx : Nat) : Nat :=
  let h := (s.ctx ctx).forkPool.toNat
  if h = 0 then 0 else leNat (privRead s ctx h 4)

/-- R411: the fork of a leaf at a slot. Answers sd, or that the pool is empty. -/
def forkPage (s : State) (g : Agent) (ctx : Nat) (src : Page) (slot : Nat) : Option (State × W64) :=
  let pAddr := if src.entry.testBit 127 then bitsOf src.entry 111 64 * 16 else src.pteAddr
  let pe := leNat (s.readPA pAddr 16)
  let refc := bitsOf pe 79 64
  if refc < 0xFFFF then
    let pe1 := setBits (setBits pe 79 64 (max refc 1 + 1)) 3 3 0
    let s1 := writeEntry s pAddr pe1
    let se := setBits (leNat (s1.readPA src.pteAddr 16)) 3 3 0
    let s2 := writeEntry s1 src.pteAddr se
    let de := setBits (setBits (setBits se 127 127 1) 111 64 (pAddr / 16)) 3 3 0
    some (writeEntry s2 slot de, 0)
  else
    let n := poolCount s ctx
    if n = 0 then none
    else
      let h := (s.ctx ctx).forkPool.toNat
      let q := leNat (privRead s ctx (h + 8 + 8 * (n - 1)) 8)
      let s1 := privWrite s ctx h (leBytes 4 (n - 1))
      let base := src.pa / 2 ^ 16 * 2 ^ 16
      let s2 := copyPage (touchTx s1 g base (2 ^ 16) false) base (q / 2 ^ 16 * 2 ^ 16)
      let de := setBits (setBits (setBits (setBits src.entry 51 12 (q / 4096)) 127 127 0) 111 64 1) 3 3 1
      some (writeEntry s2 slot de, 1)

/-- FORKPG (R411). -/
def execForkpg (p : Pred) (la : BitVec 4) (d : SReg) (a : SReg) (b : SReg) (s : State) : Host.Outcome State Fault Refusal :=
  let u := Instr.uses s.ir (.forkpg p la d a b)
  onceWord p s (fun w =>
    let lanes := w.active s.slotB p
    let ctx := w.place.ctx
    let sa := w.getS a.toNat
    let sb := w.getS b.toNat
    let src := if 2 ^ 56 ≤ sa.toNat then none
      else match walk s ctx sa.toNat with
        | .ok x => if x.size = 2 ^ 16 && x.user && !x.host then some x else none
        | .error _ => none
    let slot := if 2 ^ 56 ≤ sb.toNat then ForkSlot.bad .pageProtection
      else slotFrom s sb.toNat ((s.ctx ctx).root.toNat / 4096 * 4096) pageLevels
    let rs := (if src.isNone then [({ cause := .pageProtection, lanes := lanes, detail := 0x10, addr := sa } : Raise)] else [])
      ++ (match slot with
        | .bad c => [({ cause := c, lanes := lanes, addr := sb } : Raise)]
        | .slot _ true => [({ cause := .pageProtection, lanes := lanes, detail := 0x11, addr := sb } : Raise)]
        | .slot _ false => [])
    match src, slot with
    | some x, .slot at_ false => match forkPage s (engineAgent w) ctx x at_ with
      | none => .done s [{ cause := .forkNoPage, lanes := lanes }]
      | some (t, v) =>
        .done ((invalidate t (survives ctx (sa.toNat % 2 ^ 56) 0)).updWave s.cur (fun w => holdWrites s w la u [.s d.toNat v])) []
    | _, _ => .done s rs)

end Sys2Proof.Machine
end

