-- ==== Sys2Proof/Machine/Split.lean ====
section
/-! DEFINITION. Split weight products (19_die R413-R420): the descriptor and the parameter block, the product and its join
order, SWMV, SWMIG and SWAGE, SWMV_COMPLETION, AUTOMATIC_AGEING and SPLIT_INSTANT_ACT. A product takes effect in one step,
its completion (log 9). -/

namespace Sys2Proof.Machine

/-! ### Descriptors (R413, R414) -/

structure SplitDesc where
  gen : Nat
  res0 : Nat
  nrows : Nat
  ncols : Nat
  rowmap : Nat
  counters : Nat
  hot : Nat
  cold : Nat
  hotcap : Nat
  thrhot : Nat
  thrcold : Nat
  ageint : Nat
  agecnt : Nat
  res1 : Nat
  deriving DecidableEq, Repr

def splitDesc (b : List Byte) : SplitDesc :=
  { gen := fieldAt b 0 4, res0 := fieldAt b 4 4, nrows := fieldAt b 8 4, ncols := fieldAt b 12 4, rowmap := fieldAt b 0x10 8
    counters := fieldAt b 0x18 8, hot := fieldAt b 0x20 8, cold := fieldAt b 0x28 8, hotcap := fieldAt b 0x30 2
    thrhot := fieldAt b 0x32 1, thrcold := fieldAt b 0x33 1, ageint := fieldAt b 0x34 2, agecnt := fieldAt b 0x36 2
    res1 := fieldAt b 0x38 8 }

structure SplitBlock where
  desc : Nat
  x : Nat
  o : Nat
  nb : Nat
  nc : Nat
  col0 : Nat
  xstride : Nat
  ostride : Nat
  epi : Nat
  res : Nat
  deriving DecidableEq, Repr

def splitBlock (b : List Byte) : SplitBlock :=
  { desc := fieldAt b 0 8, x := fieldAt b 8 8, o := fieldAt b 0x10 8, nb := fieldAt b 0x18 2, nc := fieldAt b 0x1A 2
    col0 := fieldAt b 0x1C 4, xstride := fieldAt b 0x20 4, ostride := fieldAt b 0x24 4, epi := fieldAt b 0x28 8
    res := fieldAt b 0x30 16 }

/-- The addresses of the rows of activations and of outputs. -/
def SplitBlock.xRow (p : SplitBlock) (b : Nat) : Nat := (p.x + b * p.xstride) % 2 ^ 64
def SplitBlock.oRow (p : SplitBlock) (b : Nat) : Nat := (p.o + b * p.ostride) % 2 ^ 64
def SplitBlock.epen (p : SplitBlock) : Bool := p.epi.testBit 15
def SplitBlock.eps (p : SplitBlock) : Nat := bitsOf p.epi 14 12

/-- A cause of a split operation. -/
def splitRaise (b : Bool) (detail : Nat) : List Raise := if b then [{ cause := .splitDescriptor, detail := detail }] else []
def splitAlign (a align : Nat) : List Raise :=
  if a % align = 0 then [] else [{ cause := .misaligned, addr := BitVec.ofNat 64 a }]

def SplitDesc.raises (d : SplitDesc) : List Raise :=
  splitRaise (d.res0 != 0 || d.res1 != 0 || d.nrows == 0 || decide (2 ^ 24 < d.nrows) || d.ncols == 0 || d.ncols % 128 != 0
      || decide (65536 < d.ncols) || d.hot % 256 != 0 || d.cold % 256 != 0) 1
    ++ splitAlign d.rowmap 4

/-- Reserved and out-of-range fields of a block, but for the columns of the matrix. -/
def SplitBlock.raises (p : SplitBlock) : List Raise :=
  splitRaise (p.nb == 0 || decide (64 < p.nb) || p.nc == 0 || decide (128 < p.nc) || p.col0 % 128 != 0 || p.res != 0
    || p.epi / 2 ^ 16 != 0 || p.epi % 2 ^ 12 != 0) 4

/-- A row-map entry: HOT, SLOT. -/
def entryHot (e : W32) : Bool := e.getLsbD 31
def entrySlot (e : W32) : Nat := e.toNat % 2 ^ 16
def mapEntryBad (d : SplitDesc) (e : W32) : Bool :=
  bitsOf e.toNat 30 16 != 0 || (!entryHot e && entrySlot e != 0) || (entryHot e && decide (d.hotcap ≤ entrySlot e))

/-- Badger units and the fabric engine act for a wave outside every core and cluster (R418, R456). -/
def dieAgent (w : Wave) : Agent := { ctx := w.place.ctx, user := !w.sysMode, core := none, wave := none }

/-- The bytes at an address, with the causes of reading them. -/
def splitRead (s : State) (g : Agent) (need : Need) (va n : Nat) : List Raise × List Byte :=
  let rs := rangeRaises s g need va n
  (rs, if rs.isEmpty then rangeRead s g va n else [])

/-! ### The product (R415) -/

/-- A fired row: its number, its slot when it is hot, the address of its tile. -/
structure FiredRow where
  row : Nat
  slot : Option Nat
  addr : Nat
  deriving DecidableEq, Repr

/-- The BF16 codes of a byte list. -/
def halfCodes (b : List Byte) : List Nat := (partsBy 2 b).map leNat

/-- A BF16 code as FP32. -/
def bfWord (x : Nat) : W32 := BitVec.ofNat 32 (x * 2 ^ 16)

/-- Contiguous runs, the first (count mod p) one row longer. -/
def runsInto {α : Type} (p : Nat) (xs : List α) : List (List α) :=
  let q := xs.length / p
  let r := xs.length % p
  (List.range p).map (fun i => (xs.drop (i * q + min i r)).take (if i < r then q + 1 else q))

/-- S_s of one stack for one output: the parts of its pairs, joined in order. -/
def stackSum (rows : List (Nat × Nat)) : W32 :=
  let parts := (runsInto (min 24 rows.length) rows).map (fun run =>
    run.foldl (fun acc e => fma32 (bfWord e.1) (bfWord e.2) acc) 0)
  match parts with
  | [] => 0
  | p :: ps => ps.foldl add32 p

/-- j of one output: the hot element, then the stacks in ascending order (R269). -/
def joinCell (hot : List (Nat × Nat)) (byStack : List (List (Nat × Nat))) : W32 :=
  let h := if hot.isEmpty then 0
    else Contract.floatCell 4 256 (hot.map (fun e => Fmt.bf16.decode e.1)) (hot.map (fun e => Fmt.bf16.decode e.2)) 0
  byStack.foldl (fun j rows => add32 j (stackSum rows)) h

/-- What a product does: its causes, else its writes. -/
structure ProductOut where
  fired : List Nat
  outputs : List (Nat × List Byte)
  desc : SplitDesc
  descVa : Nat
  /-- An access outside the regions of a card was left out. -/
  outside : Bool
  deriving DecidableEq, Repr

/-- Rows in ascending slot order; equal slots keep their rows' order. -/
def insertBySlot (x : FiredRow) : List FiredRow → List FiredRow
  | [] => [x]
  | y :: ys => if x.slot.getD 0 < y.slot.getD 0 then x :: y :: ys else y :: insertBySlot x ys

/-- A product with its parameter block. `epi` is the epilogue slot's rule. -/
def runProduct (s : State) (w : Wave) (l : Limits) (block : List Byte) : Except (List Raise) ProductOut :=
  let g := dieAgent w
  let p := splitBlock block
  let early := p.raises ++ splitAlign p.desc 64
  if !early.isEmpty then .error early
  else
    let db := splitRead s g .both p.desc 64
    if !db.1.isEmpty then .error db.1
    else
      let d := splitDesc db.2
      let core := s.core w.place.core
      let fields := d.raises ++ splitRaise (decide (d.ncols < p.col0 + p.nc)) 4
        ++ (if p.epen then epiRaises core 0 (some p.eps) else [])
        ++ (List.range p.nb).flatMap (fun b => splitAlign (p.xRow b) 2 ++ splitAlign (p.oRow b) 4)
      if !fields.isEmpty then .error fields
      else
        let map := splitRead s g .read d.rowmap (4 * d.nrows)
        let bad := map.1 ++ (List.range p.nb).flatMap (fun b =>
          limitRaises s g l false (p.xRow b) (2 * d.nrows) ++ limitRaises s g l true (p.oRow b) (4 * p.nc))
        let entries := wordsOf map.2
        let stray := splitRaise (entries.any (mapEntryBad d)) 2
        if !(stopping bad ++ stray).isEmpty then .error (stopping bad ++ stray)
        else
          let xs := (List.range p.nb).map (fun b => halfCodes (limitRead s g l (p.xRow b) (2 * d.nrows)).2)
          let rows := (List.range d.nrows).filterMap (fun k =>
            if xs.any (fun x => x.getD k 0 % 2 ^ 15 != 0) then
              let e := entries.getD k 0
              let at_ (base r : Nat) : Nat := (base + 2 * (r * d.ncols + p.col0)) % 2 ^ 64
              some (if entryHot e then { row := k, slot := some (entrySlot e), addr := at_ d.hot (entrySlot e) }
                else ({ row := k, slot := none, addr := at_ d.cold k } : FiredRow))
            else none)
          let late := rows.flatMap (fun r => rangeRaises s g .read r.addr (2 * p.nc)
            ++ rangeRaises s g .both ((d.counters + r.row) % 2 ^ 64) 1)
          if !late.isEmpty then .error late
          else
            let tiles := rows.map (fun r => (r, halfCodes (rangeRead s g r.addr (2 * p.nc))))
            let stackOf (r : FiredRow) : Nat := match translate s g r.addr with
              | .ok q => bitsOf q.pa 39 36
              | .error _ => 0
            let tileOf (r : FiredRow) : List Nat := ((tiles.find? (fun t => t.1.row == r.row)).map (·.2)).getD []
            let hot := ((rows.filter (·.slot.isSome)).foldl (fun acc r => insertBySlot r acc) []).map (fun r => (r, tileOf r))
            let cold := tiles.filter (fun t => t.1.slot.isNone)
            let byStack := ((List.range 16).map (fun k => cold.filter (fun t => stackOf t.1 == k))).filter (fun ts => !ts.isEmpty)
            let cell (x : List Nat) (c : Nat) : W32 :=
              let pair (t : FiredRow × List Nat) : Nat × Nat := (x.getD t.1.row 0, t.2.getD c 0)
              joinCell (hot.map pair) (byStack.map (fun ts => ts.map pair))
            let out (j : W32) : W32 :=
              if p.epen then (runCell (epiSlot core p.eps).uops (epiSlot core p.eps).consts
                { l := 0, u := 0, d := 0, a := 0, b := 0, c := j }).h
              else j
            .ok { fired := rows.map (·.row)
                  outputs := xs.mapIdx (fun b x => (p.oRow b, wordsImage ((List.range p.nc).map (fun c => out (cell x c)))))
                  desc := d, descVa := p.desc, outside := bad.any (fun r => r.cause == .chainFormat) }

/-- Changes one byte (an atomic update). -/
def updByte (s : State) (g : Agent) (va : Nat) (f : Nat → Nat) : State :=
  rangeWrite s g va (leBytes 1 (f (leNat (rangeRead s g va 1))))

/-- The first three steps of R416. Answers whether automatic ageing is due. -/
def commitProduct (s : State) (g : Agent) (l : Limits) (r : ProductOut) : State × Bool :=
  let s1 := r.outputs.foldl (fun s e => limitWrite s g l e.1 e.2) s
  let s2 := r.fired.foldl (fun s k => updByte s g ((r.desc.counters + k) % 2 ^ 64) (fun n => min 255 (n + 1))) s1
  let n := (leNat (rangeRead s2 g (r.descVa + 0x36) 2) + 1) % 2 ^ 16
  (rangeWrite s2 g (r.descVa + 0x36) (leBytes 2 n), r.desc.ageint != 0 && n == r.desc.ageint)

/-! ### Operations in flight (R417, R419) -/

/-- SWMIG and SWAGE. -/
def SplitOp.instant (o : SplitOp) : Bool := match o.cap.instr with
  | .swmig .. | .swage .. => true
  | _ => false

/-- The register that an operation writes. -/
def SplitOp.dest (o : SplitOp) : Option Nat := match o.cap.instr with
  | .swmv _ _ d _ | .swmig _ _ d _ _ => some d.toNat
  | _ => none

/-- An operation that completed with a cause, which its wave has not taken yet. -/
def SplitOp.ended (o : SplitOp) : Bool := o.cause.isSome

/-- The physical address of a virtual one. -/
def physOf (s : State) (w : Wave) (va : Nat) : Option Nat :=
  if 2 ^ 56 ≤ va then none else match translate s (dieAgent w) va with
    | .ok p => some p.pa
    | .error _ => none

/-- The virtual address of an operation's descriptor, when it is known. -/
def SplitOp.descVa (o : SplitOp) : Option Nat :=
  if o.instant then some (o.cap.scalars.headD 0).toNat
  else if o.block.isEmpty then none
  else some (splitBlock o.block).desc

/-- The parameter block of a product: the captured one, or a fresh read. -/
def withBlock (s : State) (w : Wave) (o : SplitOp) : SplitOp :=
  let va := (o.cap.scalars.headD 0).toNat
  let o1 := if o.instant || !o.block.isEmpty || va % 64 != 0 then o
    else { o with block := (splitRead s (dieAgent w) .read va 64).2 }
  if o1.desc.isSome then o1 else { o1 with desc := o1.descVa.bind (physOf s w) }

def splitOpsOf (s : State) : List SplitOp := s.dies.flatMap (·.splitOps)
def findSplit (s : State) (n : Nat) : Option SplitOp := (splitOpsOf s).find? (fun o => o.number == n)
def updSplit (s : State) (n : Nat) (f : SplitOp → SplitOp) : State :=
  { s with dies := s.dies.map (fun d => { d with splitOps := d.splitOps.map (fun o => if o.number == n then f o else o) }) }
def dropSplit (s : State) (n : Nat) : State :=
  { s with dies := s.dies.map (fun d => { d with splitOps := d.splitOps.filter (fun o => o.number != n) }) }

/-- R419: a product waits for the instants before it, an automatic ageing that became due before it was posted among them; an
instant waits for every operation before it. -/
def mayAct (s : State) (o : SplitOp) : Bool :=
  o.desc.isNone || !(splitOpsOf s).any (fun x => x.number != o.number && x.desc == o.desc && !x.ended
    && (if o.instant then decide (x.number < o.number)
      else (x.instant && decide (x.number < o.number)) || (match x.ageDue with
        | some t => decide (t < o.number)
        | none => false)))

/-- Automatic ageing that became due at `due` is one step of the instants of its descriptor (R416, R419): it waits for the
products in flight that were posted before it and that no instant holds at their start. -/
def mayAge (s : State) (o : SplitOp) (due : Nat) : Bool :=
  !(splitOpsOf s).any (fun x => x.number != o.number && x.desc == o.desc && !x.instant && !x.ended && x.ageDue.isNone
    && decide (x.number < due) && mayAct s x)

/-- A frame of a core is free to be the working frame of a product (R181, R415): no wave owns it, and no operation that runs
writes it. -/
def workingFrame (s : State) (c : Nat) : Bool :=
  let shadows (k : Nat) : Nat := match (s.core k).running with
    | some r => (r.writes.filter (fun x => match x with
        | .frame i .. => (s.wave i).any (fun w => w.place.core == c)
        | _ => false)).length
    | none => 0
  decide ((ownedFrames s c).length + shadows c + shadows (partnerOf c) < 36)

/-- Whether the wave of an operation can take a cause of it now. -/
def takesCauses (w : Wave) : Bool := w.run.status == .running && !w.run.evicted

/-- Whether the completion of an operation may run. A product takes a working frame on each core of the pair (R415). -/
def splitEnabled (s : State) (o : SplitOp) : Bool :=
  o.ageDue.isNone && (match s.wave o.wave with
    | none => false
    | some w => (!o.ended || takesCauses w || w.run.status == .retiring)
        && (o.ended || mayAct s (withBlock s w o))
        && (o.ended || o.instant || (workingFrame s w.place.core && workingFrame s (partnerOf w.place.core)))
        && (match o.card with
          | some (cl, n) => (match findCard s cl n with
            | some k => !k.serving.waiting
            | none => false)
          | none => true))

/-! ### Posting (R417) -/

/-- Posts an operation on the die of its descriptor (R419). -/
def postSplit (s : State) (w : Wave) (o : SplitOp) : State :=
  let x := withBlock s w o
  let die := match x.desc with
    | some pa => bitsOf pa 39 38
    | none => dieOf w.place.core
  (s.updDie die (fun d => { d with splitOps := d.splitOps ++ [x] })).nextTicket

/-- A split word. -/
def splitWord (p : Pred) (la : BitVec 4) (i : Instr) (scalars : Wave → List W64) (s : State) : Host.Outcome State Fault Refusal :=
  let u := Instr.uses s.ir i
  onceWord p s (fun w =>
    let c : Captured := { instr := i, word := s.ir, pc := pcOf s w, slotB := s.slotB, lanes := w.active s.slotB p
                          scalars := scalars w, vectors := [], order := w.run.issued, faults := (w.slot s.slotB).faults }
    let o : SplitOp := { number := s.ticket, wave := s.cur, cap := c, card := none, block := [], desc := none, ageDue := none
                         gen := 0, cause := none }
    .done ((postSplit s w o).updWave s.cur (fun w => { w with windows := w.windows ++
      [{ slotB := s.slotB, left := la.toNat, done := false, dests := u.writes, srcs := u.reads, writes := []
         ends := .op w.run.issued }] })) [])

def execSwmv (p : Pred) (la : BitVec 4) (d : SReg) (sa : SReg) (s : State) : Host.Outcome State Fault Refusal :=
  splitWord p la (.swmv p la d sa) (fun w => [w.getS sa.toNat]) s
def execSwmig (p : Pred) (la : BitVec 4) (d : SReg) (sa : SReg) (sb : SReg) (s : State) : Host.Outcome State Fault Refusal :=
  splitWord p la (.swmig p la d sa sb) (fun w => [w.getS sa.toNat, w.getS sb.toNat]) s
def execSwage (p : Pred) (la : BitVec 4) (sa : SReg) (s : State) : Host.Outcome State Fault Refusal :=
  splitWord p la (.swage p la sa) (fun w => [w.getS sa.toNat]) s

/-! ### Completion -/

/-- An operation of a wave completes: its register is written, and its window ends. -/
def finishSplit (s : State) (o : SplitOp) (v : W64) : State :=
  endOp (dropSplit s o.number) o.wave o.dest v o.cap.order

/-- The wave takes the cause of an operation at its word (R417), which executes again on resume (R65). A transaction of the
wave aborts first (R219), but for a cause of kind Y. The faults of kind Y of an instant's word are counted over its
executions (R409). -/
def takeSplit (s : State) (o : SplitOp) (r : Raise) : State :=
  match s.wave o.wave with
  | none => dropSplit s o.number
  | some w =>
    if w.tx.isSome && r.kind != .y then
      settleOrRetire ((updSplit s o.number (fun x => { x with cause := some r })).updWave o.wave
        (fun w => w.abortTx 6 r.cause.code 0)) o.wave
    else
      takeTrap ((dropSplit s o.number).updWave o.wave (fun w => w.updSlot o.cap.slotB (fun x => { x with
          parked := false, faults := if r.kind == .y then o.cap.faults + 1 else 0 })))
        o.wave r o.cap.slotB o.cap.pc o.cap.word false false

/-- What the wave of an operation takes for a cause of it: that of a product is of kind P whatever it is (R417); a page that
is not present is of kind Y for an instant, and the 17th such fault of its word is REPLAY_LIMIT (R409). -/
def splitCause (o : SplitOp) (r : Raise) : Raise :=
  let x := { r with lanes := o.cap.lanes, declined := !o.instant }
  if o.instant && r.cause == .pageNotPresent && decide (16 ≤ o.cap.faults) then { x with cause := Cause.replayLimit } else x

/-- A cause ends an operation of a wave: the wave takes it at once, or when it runs again. -/
def faultSplit (s : State) (o : SplitOp) (r : Raise) : State :=
  match s.wave o.wave with
  | none => dropSplit s o.number
  | some w =>
    if w.run.status == .retiring || w.run.status == .gone then dropSplit s o.number
    else if takesCauses w then takeSplit s o (splitCause o r)
    else updSplit s o.number (fun x => { x with cause := some (splitCause o r) })

/-- The product of a wave or of a card completes. -/
def completeSplit (s : State) (o0 : SplitOp) (w : Wave) : State :=
  let o := withBlock s w o0
  let s0 := (updSplit s o.number (fun _ => { o with cause := none })).nextFresh
  let g := dieAgent w
  match o.card with
  | none =>
    let va := (o.cap.scalars.headD 0).toNat
    let early := splitAlign va 64 ++ (if o.block.isEmpty then rangeRaises s g .read va 64 else [])
    match settleRaises early with
    | some r => faultSplit s0 o r
    | none => match runProduct s w {} o.block with
      | .error rs => match settleRaises rs with
        | some r => faultSplit s0 o r
        | none => s0
      | .ok r =>
        let c := commitProduct s0 g {} r
        if c.2 then (updSplit c.1 o.number (fun x => { x with ageDue := some s.ticket, gen := r.desc.gen })).nextTicket
        else finishSplit c.1 o (BitVec.ofNat 64 r.desc.gen)
  | some (cl, n) => match findCard s cl n with
    | none => dropSplit s o.number
    | some k =>
      let l := cardLimits k.header
      match runProduct s w l o.block with
      | .error rs => match settleRaises rs with
        | some r =>
          let s1 := if r.cause == .pageNotPresent then s0 else dropSplit s0 o.number
          let s2 := cardService s1 cl k r
          if (findCard s2 cl n).any (·.finished) then dropSplit s2 o.number else s2
        | none => s0
      | .ok r =>
        let c := commitProduct s0 g l r
        let s1 := if r.outside then updCard c.1 cl n (fun c => { c with
            cause := c.cause.orElse (fun _ => some (.chainFormat, 2, 0)) })
          else c.1
        if c.2 then (updSplit s1 o.number (fun x => { x with ageDue := some s.ticket, gen := r.desc.gen })).nextTicket
        else updCard (dropSplit s1 o.number) cl n (fun c => { c with finished := true })

/-- SWMV_COMPLETION. -/
def execSwmvCompletion (s : State) : Host.Outcome State Fault Refusal :=
  match s.target with
  | .op n => match findSplit s n with
    | none => .refused .notEnabled
    | some o => match s.wave o.wave with
      | none => .refused .notEnabled
      | some w =>
        if o.instant || !splitEnabled s o then .refused .notEnabled
        else if o.ended then .next (match o.cause with
          | some r => if takesCauses w then takeSplit s o r else dropSplit s n
          | none => s)
        else .next (completeSplit s o w)
  | _ => .refused .notEnabled

/-- Halves every counter and clears AGECNT. -/
def ageCounters (s : State) (g : Agent) (d : SplitDesc) (descVa : Nat) : State :=
  let bs := rangeRead s g d.counters d.nrows
  rangeWrite (rangeWrite s g d.counters (bs.map (fun (b : Byte) => b >>> 1))) g (descVa + 0x36) (leBytes 2 0)

/-- AUTOMATIC_AGEING (R416): the instant that a product made due, and then its last step. It waits for the products that are
in flight before it (R419). The hardware's writes need a mapping alone. -/
def execAutomaticAgeing (s : State) : Host.Outcome State Fault Refusal :=
  match s.target with
  | .op n => match findSplit s n with
    | none => .refused .notEnabled
    | some o => match s.wave o.wave, o.ageDue with
      | some w, some due =>
        let g := dieAgent w
        let va := (splitBlock o.block).desc
        let d := splitDesc (rangeRead s g va 64)
        let s1 := ageCounters s g d va
        if !mayAge s o due then .refused .notEnabled
        else .next (match o.card with
          | none => finishSplit s1 o (BitVec.ofNat 64 o.gen)
          | some (cl, k) => updCard (dropSplit s1 n) cl k (fun c => { c with finished := true }))
      | _, _ => .refused .notEnabled
  | _ => .refused .notEnabled

/-! ### Instants (R420) -/

/-- Rows with their counters, in an order. -/
def insertRow (before : Nat × Nat → Nat × Nat → Bool) (x : Nat × Nat) : List (Nat × Nat) → List (Nat × Nat)
  | [] => [x]
  | y :: ys => if before x y then x :: y :: ys else y :: insertRow before x ys

/-- A promotion: the row, its slot, the row that leaves the slot. -/
structure Promotion where
  row : Nat
  slot : Nat
  out : Option Nat
  deriving DecidableEq, Repr

/-- The promotions of SWMIG: `free` and `out` are the free slots and the demotable rows with their slots. -/
def promotions : List Nat → List Nat → List (Nat × Nat) → Nat → List Promotion
  | _, _, _, 0 => []
  | [], _, _, _ => []
  | k :: ks, f :: fs, out, n + 1 => { row := k, slot := f, out := none } :: promotions ks fs out n
  | k :: ks, [], (d, sl) :: out, n + 1 => { row := k, slot := sl, out := some d } :: promotions ks [] out n
  | _ :: _, [], [], _ + 1 => []

/-- The descriptor of an instant, or its causes. -/
def instantDesc (s : State) (g : Agent) (va : Nat) : Except (List Raise) SplitDesc :=
  let early := splitAlign va 64
  if !early.isEmpty then .error early
  else
    let db := splitRead s g .both va 64
    let d := splitDesc db.2
    if !db.1.isEmpty then .error db.1
    else if !d.raises.isEmpty then .error d.raises
    else .ok d

/-- SWMIG. -/
def migrate (s : State) (g : Agent) (va n : Nat) : Except (List Raise) (State × W64) :=
  match instantDesc s g va with
  | .error rs => .error rs
  | .ok d =>
    let map := splitRead s g .both d.rowmap (4 * d.nrows)
    let cnt := splitRead s g .read d.counters d.nrows
    let es := wordsOf map.2
    let slots := (es.filter entryHot).map entrySlot
    let rs := map.1 ++ cnt.1
      ++ (if map.1.isEmpty then splitRaise (es.any (mapEntryBad d)) 2 ++ splitRaise (!slots.Nodup) 3 else [])
    if !rs.isEmpty then .error rs
    else
      let rows := (List.range d.nrows).map (fun k => (k, (cnt.2.getD k 0).toNat))
      let hotRow (e : Nat × Nat) : Bool := entryHot (es.getD e.1 0)
      let up := (rows.filter (fun e => !hotRow e && decide (d.thrhot ≤ e.2))).foldl
        (fun acc e => insertRow (fun x y => decide (y.2 < x.2)) e acc) []
      let down := (rows.filter (fun e => hotRow e && decide (e.2 ≤ d.thrcold))).foldl
        (fun acc e => insertRow (fun x y => decide (x.2 < y.2)) e acc) []
      let free := (List.range d.hotcap).filter (fun k => !slots.contains k)
      let ps := promotions (up.map (·.1)) free (down.map (fun e => (e.1, entrySlot (es.getD e.1 0)))) n
      let coldAt (k : Nat) : Nat := (d.cold + 2 * (k * d.ncols)) % 2 ^ 64
      let hotAt (k : Nat) : Nat := (d.hot + 2 * (k * d.ncols)) % 2 ^ 64
      let late := ps.flatMap (fun x => rangeRaises s g .read (coldAt x.row) (2 * d.ncols)
        ++ rangeRaises s g .write (hotAt x.slot) (2 * d.ncols))
      if !late.isEmpty then .error late
      else
        let s1 := ps.foldl (fun s x =>
          let s1 := rangeWrite s g (hotAt x.slot) (rangeRead s g (coldAt x.row) (2 * d.ncols))
          let s2 := match x.out with
            | some r => rangeWrite s1 g (d.rowmap + 4 * r) (leBytes 4 0)
            | none => s1
          rangeWrite s2 g (d.rowmap + 4 * x.row) (leBytes 4 (2 ^ 31 + x.slot))) s
        let s2 := rangeWrite s1 g va (leBytes 4 ((d.gen + 1) % 2 ^ 32))
        .ok (s2, BitVec.ofNat 64 (ps.length + (ps.filter (·.out.isSome)).length * 2 ^ 32))

/-- SWAGE. -/
def ageAll (s : State) (g : Agent) (va : Nat) : Except (List Raise) (State × W64) :=
  match instantDesc s g va with
  | .error rs => .error rs
  | .ok d =>
    let rs := rangeRaises s g .both d.counters d.nrows
    if !rs.isEmpty then .error rs else .ok (ageCounters s g d va, 0)

/-- SPLIT_INSTANT_ACT (R419, R420). -/
def execSplitInstantAct (s : State) : Host.Outcome State Fault Refusal :=
  match s.target with
  | .op n => match findSplit s n with
    | none => .refused .notEnabled
    | some o => match s.wave o.wave with
      | none => .refused .notEnabled
      | some w =>
        if !o.instant || !splitEnabled s o then .refused .notEnabled
        else if o.ended then .next (match o.cause with
          | some r => if takesCauses w then takeSplit s o r else dropSplit s n
          | none => s)
        else
          let s0 := (updSplit s n (fun x => { x with cause := none })).nextFresh
          let va := (o.cap.scalars.headD 0).toNat
          let run := match o.cap.instr with
            | .swmig .. => migrate s (dieAgent w) va ((o.cap.scalars.getD 1 0).toNat % 2 ^ 16)
            | _ => ageAll s (dieAgent w) va
          match run with
          | .error rs => match settleRaises rs with
            | some r => .next (faultSplit s0 o r)
            | none => .refused .notEnabled
          | .ok (t, v) => .next (finishSplit (updSplit t n (fun x => { x with cause := none })).nextFresh o v)
  | _ => .refused .notEnabled

end Sys2Proof.Machine
end

