-- ==== Sys2Proof/Machine/Fabric.lean ====
section
/-! DEFINITION. The fabric (22_fabric R445-R466): one-sided operations at their source and their target, collectives, aborts,
and the link events. A request travels as one packet; what goes to another node leaves through `Fabric.sent…`, and what
comes from one is an input. -/

namespace Sys2Proof.Machine

/-! ### Ranges with element faults -/

/-- A granule that faults: its offset, its cause, its virtual address. -/
abbrev GranuleFault := Nat × Cause × Nat

/-- What serving a range answers: it is held, or its faulting granules. -/
inductive RangeServed where
  | held (x : Serving)
  | ready (faults : List GranuleFault)
  deriving DecidableEq, Repr

/-- The faulting 8-byte granules of a range. -/
def granuleFaults (s : State) (g : Agent) (need : Need) (va n : Nat) (declined : List (Nat × Bool)) : List GranuleFault :=
  if declined.isEmpty && (rangeRaises s g need va n).isEmpty then []
  else (List.range ((n + 7) / 8)).filterMap (fun k =>
    let a := va + 8 * k
    match declined.find? (fun d => d.1 == a) with
    | some (_, limit) => some (8 * k, (if limit then Cause.replayLimit else Cause.pageNotPresent), a)
    | none => (settleRaises (rangeRaises s g need a (min 8 (n - 8 * k)))).map (fun r => (8 * k, r.cause, a)))

/-- R409: the first granule whose page is not present is serviced; the 17th such fault is REPLAY_LIMIT. -/
def serveRange (s : State) (g : Agent) (need : Need) (va n : Nat) (sv : Serving) : RangeServed :=
  let fs := granuleFaults s g need va n sv.declined
  match fs.find? (fun f => f.2.1 == .pageNotPresent && !sv.declined.any (fun d => d.1 == f.2.2)) with
  | none => .ready fs
  | some (_, _, a) =>
    let k := if sv.addr = a then sv.faults else 0
    if 16 ≤ k then .held { addr := 0, faults := 0, waiting := false, declined := (a, true) :: sv.declined }
    else .held { addr := a, faults := k + 1, waiting := true, declined := sv.declined }

/-- Serves a range until it waits or is ready: a 17th fault goes on at once. -/
def serveAgain : Nat → State → Agent → Need → Nat → Nat → Serving → RangeServed
  | 0, _, _, _, _, _, sv => .held sv
  | k + 1, s, g, need, va, n, sv => match serveRange s g need va n sv with
    | .held x => if x.waiting then .held x else serveAgain k s g need va n x
    | r => r

/-- Serves a range. -/
def serve (s : State) (g : Agent) (need : Need) (va n : Nat) (sv : Serving) : RangeServed :=
  serveAgain (n / 8 + 2) s g need va n sv

/-- Writes a range but for granules that fault or were not carried. -/
def writeBut (s : State) (g : Agent) (va : Nat) (bs : List Byte) (skip : List Nat) : State :=
  if skip.isEmpty then rangeWrite s g va bs
  else (List.range ((bs.length + 7) / 8)).foldl (fun s k =>
    if skip.contains (8 * k) then s else rangeWrite s g (va + 8 * k) ((bs.drop (8 * k)).take 8)) s

/-- Reads a range but for granules that fault. -/
def readBut (s : State) (g : Agent) (va n : Nat) (skip : List Nat) : List Byte :=
  if skip.isEmpty then rangeRead s g va n
  else ((List.range ((n + 7) / 8)).map (fun k =>
    let m := min 8 (n - 8 * k)
    if skip.contains (8 * k) then List.replicate m 0 else rangeRead s g (va + 8 * k) m)).flatten

/-! ### Nodes and routes (R448, R449) -/

/-- A node that packets can reach. -/
def hasRoute (s : State) (n : Nat) : Bool := n != 0xFFF && (n == s.fabric.node || Cells.get 0 s.fabric.routes n != 0)

def faNode (fa : W64) : Nat := bitsOf fa.toNat 63 52
/-- The fabric address of a byte of a window of this node. -/
def faOf (s : State) (p : FabPacket) (off : Nat) : W64 :=
  BitVec.ofNat 64 (s.fabric.node * 2 ^ 52 + p.win.toNat * 2 ^ 44 + off % 2 ^ 44)

/-- The job, then the route. -/
def reachFabric (s : State) (w : Wave) (lanes : W32) (fa : W64) : List Raise :=
  let bad (d : Nat) : List Raise := [{ cause := .fabricUnreachable, lanes := lanes, detail := d, addr := fa }]
  if (s.ctx w.place.ctx).job.isNone then bad 3 else if !hasRoute s (faNode fa) then bad 1 else []

/-! ### Commands at their source (R451-R456) -/

def findCmd (s : State) (n : Nat) : Option FabCmd := s.fabric.cmds.find? (fun c => c.number == n)
def updCmd (s : State) (n : Nat) (f : FabCmd → FabCmd) : State :=
  { s with fabric := { s.fabric with cmds := s.fabric.cmds.map (fun c => if c.number == n then f c else c) } }
def dropCmd (s : State) (n : Nat) : State :=
  { s with fabric := { s.fabric with cmds := s.fabric.cmds.filter (fun c => c.number != n) } }

/-- The packet of a command. -/
def packetOf (s : State) (c : FabCmd) (data : List Byte) (skip : List Nat) : FabPacket :=
  { src := BitVec.ofNat 12 s.fabric.node, seqNo := BitVec.ofNat 32 s.fabric.nextSeq, job := (s.ctx c.ctx).job.getD 0
    win := c.fa.extractLsb' 44 8, off := c.fa.extractLsb' 0 44
    sig := match c.op with
      | .signal op => op
      | _ => .add
    len := c.length, data := data, skip := skip, cmd := c.number }

/-- A packet leaves: to this node's engine, or to another node. -/
def launchPacket (s : State) (c : FabCmd) (p : FabPacket) : State :=
  let s1 := { s with fabric := { s.fabric with nextSeq := s.fabric.nextSeq + 1 } }
  let s2 := updCmd s1 c.number (fun c => { c with phase := 1 })
  let n := faNode c.fa
  if n = s.fabric.node then
    let a : Arrival := { number := s.ticket, op := c.op, packet := p, serving := {} }
    let s3 : State := { s2 with fabric := { s2.fabric with inbox := s2.fabric.inbox ++ [a] } }
    s3.nextTicket
  else { s2 with fabric := { s2.fabric with sent := s2.fabric.sent ++ [{ node := n, op := c.op, packet := p }] } }

/-- A posted command whose predecessors are done reads its local bytes and is sent. -/
def sendCmd (s : State) (n : Nat) : State :=
  match findCmd s n with
  | none => s
  | some c => match s.wave c.wave with
    | none => s
    | some w =>
      if c.phase != 0 || !c.after.isEmpty then s
      else match c.op with
        | .put =>
          let g := dieAgent w
          (match serve s g .read c.addr.toNat c.length c.serving with
          | .held x => updCmd s n (fun c => { c with serving := x })
          | .ready fs =>
            let skip := fs.map (·.1)
            let s1 := updCmd s n (fun c => { c with
              fault := (fs.head?).map (fun f => (f.2.1, 0, BitVec.ofNat 64 f.2.2)), serving := {} })
            (launchPacket s1 c (packetOf s1 c (readBut s g c.addr.toNat c.length skip) skip)).nextFresh)
        | .signal _ => launchPacket s c (packetOf s c (leBytes 8 c.value.toNat) [])
        | .get => launchPacket s c (packetOf s c [] [])

/-- Posts a command. -/
def postCmd (s : State) (c : FabCmd) : State :=
  let s1 : State := { s with fabric := { s.fabric with cmds := s.fabric.cmds ++ [c] } }
  sendCmd s1.nextTicket c.number

/-- The checks of the registers of XPUT and XGET.blk (R451). -/
def blockRaises (lanes : W32) (fa la n : W64) : List Raise :=
  raiseIf lanes (n.toNat < 8 || decide (2 ^ 24 < n.toNat)) .illegalField 3
    ++ ([fa, la].flatMap (fun (a : W64) => if a.toNat % 8 = 0 then []
      else [({ cause := .misaligned, lanes := lanes, addr := a } : Raise)]))
    ++ raiseIf lanes (n.toNat % 8 != 0) .misaligned 0

/-- A command of the current word. -/
def newCmd (s : State) (w : Wave) (op : FabOp) (fa addr : W64) (length : Nat) (value : W64) (token : Option Nat)
    (after : List Nat) : FabCmd :=
  { number := s.ticket, wave := s.cur, slotB := s.slotB, op := op, ctx := w.place.ctx, fa := fa, addr := addr
    length := length, value := value, token := token, after := after, phase := 0, reply := [], fault := none, serving := {} }

/-- XPUT (R452). -/
def execXput (p : Pred) (la : BitVec 4) (tok : Tok) (sa : SReg) (s : State) : Host.Outcome State Fault Refusal :=
  let u := Instr.uses s.ir (.xput p la tok sa)
  onceWord p s (fun w =>
    let lanes := w.active s.slotB p
    let r := w.getSs sa.toNat 3
    let n := r.getD 2 0
    let rs := blockRaises lanes (r.getD 0 0) (r.getD 1 0) n ++ reachFabric s w lanes (r.getD 0 0)
    if !rs.isEmpty then .done s rs
    else if 63 ≤ w.token tok.toNat then .wait (.tokenRoom tok.toNat) s
    else
      let s1 := s.updWave s.cur (fun w => (holdWrites s w la u []).setToken tok.toNat (w.token tok.toNat + 1))
      .done (postCmd s1 (newCmd s w .put (r.getD 0 0) (r.getD 1 0) n.toNat 0 (some tok.toNat) [])) [])

/-- XSIG (R454, R456): it follows the XPUTs and XSIGs of its wave. -/
def execXsig (p : Pred) (la : BitVec 4) (op : SigOp) (tok : Tok) (sa : SReg) (sb : SReg) (s : State) :
    Host.Outcome State Fault Refusal :=
  let u := Instr.uses s.ir (.xsig p la op tok sa sb)
  onceWord p s (fun w =>
    let lanes := w.active s.slotB p
    let fa := w.getS sa.toNat
    let rs := (if fa.toNat % 8 = 0 then [] else [({ cause := .misaligned, lanes := lanes, addr := fa } : Raise)])
      ++ reachFabric s w lanes fa
    if !rs.isEmpty then .done s rs
    else if 63 ≤ w.token tok.toNat then .wait (.tokenRoom tok.toNat) s
    else
      let before := (s.fabric.cmds.filter (fun c => c.wave == s.cur && c.op != .get)).map (·.number)
      let s1 := s.updWave s.cur (fun w => (holdWrites s w la u []).setToken tok.toNat (w.token tok.toNat + 1))
      .done (postCmd s1 (newCmd s w (.signal op) fa 0 8 (w.getS sb.toNat) (some tok.toNat) before)) [])

/-- XGET (R453): it posts its command and waits for the reply. -/
def execXgetB64 (p : Pred) (_la : BitVec 4) (_d : SReg) (sa : SReg) (s : State) : Host.Outcome State Fault Refusal :=
  onceWord p s (fun w =>
    let lanes := w.active s.slotB p
    let fa := w.getS sa.toNat
    let rs := (if fa.toNat % 8 = 0 then [] else [({ cause := .misaligned, lanes := lanes, addr := fa } : Raise)])
      ++ reachFabric s w lanes fa
    if !rs.isEmpty then .done s rs
    else .wait (.reply s.ticket fa) (postCmd s (newCmd s w .get fa 0 8 0 none [])))

def execXgetBlk (p : Pred) (_la : BitVec 4) (sa : SReg) (s : State) : Host.Outcome State Fault Refusal :=
  onceWord p s (fun w =>
    let lanes := w.active s.slotB p
    let r := w.getSs sa.toNat 3
    let n := r.getD 2 0
    let rs := blockRaises lanes (r.getD 0 0) (r.getD 1 0) n ++ reachFabric s w lanes (r.getD 0 0)
    if !rs.isEmpty then .done s rs
    else .wait (.reply s.ticket (r.getD 0 0))
      (postCmd s (newCmd s w .get (r.getD 0 0) (r.getD 1 0) n.toNat 0 none [])))

/-! ### Completion at the source -/

/-- A command is done: the XSIGs that followed it go on (R456), and an evicted wave settles (R231). -/
def closeCmd (s : State) (c : FabCmd) : State :=
  let s1 := dropCmd s c.number
  let loosen (x : FabCmd) : FabCmd := { x with after := x.after.filter (fun n => n != c.number) }
  let s2 : State := { s1 with fabric := { s1.fabric with cmds := s1.fabric.cmds.map loosen } }
  let s3 := (s2.fabric.cmds.filter (fun x => x.phase == 0 && !x.serving.waiting)).foldl (fun s x => sendCmd s x.number) s2
  settleEvicted s3 c.wave

/-- FABRIC_COMMAND_COMPLETION (R452, R454, R455): the token falls, a fault is attached for WAITTK. -/
def completeCmd (s : State) (c : FabCmd) : State :=
  let tok := c.token.getD 0
  let s1 := match c.fault with
    | some f => noteFault s c.wave { order := c.number, token := tok, cause := f.1, detail := f.2.1, addr := f.2.2 }
    | none => s
  closeCmd (lowerToken s1 c.wave tok) c

/-- A packet of another node has been applied: it is applied once (R446). -/
def noteApplied (s : State) (src : BitVec 12) (seqNo : BitVec 32) : State :=
  { s with fabric := { s.fabric with applied := (src.toNat, seqNo.toNat) :: s.fabric.applied } }

/-- A packet of this pair of source node and sequence number has been applied before. -/
def appliedBefore (s : State) (src : BitVec 12) (seqNo : BitVec 32) : Bool :=
  s.fabric.applied.contains (src.toNat, seqNo.toNat)

/-- The answer of another node reaches its command. -/
def takeReply (s : State) (r : FabReply) : State :=
  updCmd (noteApplied s r.src r.seqNo) r.cmd (fun c => { c with
    phase := 2, reply := r.data
    fault := c.fault.orElse (fun _ => r.fault.map (fun f => (Causes.ofCode f.1.toNat, f.2.toNat, r.addr))) })

/-- The command that an event of the source names: one that has been answered, or the answer of another node. -/
def answered (s : State) : Option (State × FabCmd) :=
  match s.target with
  | .op n => (findCmd s n).bind (fun c => if c.phase = 2 then some (s, c) else none)
  | .reply r => (findCmd s r.cmd).bind (fun c =>
      if c.phase = 1 && faNode c.fa != s.fabric.node then
        let s1 := takeReply s r
        (findCmd s1 r.cmd).map (fun c => (s1, c))
      else none)
  | _ => none

/-- An answer that arrives again is discarded (R446). -/
def answeredAgain (s : State) : Bool := match s.target with
  | .reply r => appliedBefore s r.src r.seqNo
  | _ => false

def execFabricCommandCompletion (s : State) : Host.Outcome State Fault Refusal :=
  if answeredAgain s then .next s
  else match answered s with
  | none => .refused .notEnabled
  | some (t, c) => if c.op == .get then .refused .notEnabled else .next (completeCmd t c)

/-- The slot that waits for a command's reply. -/
def replySlot (w : Wave) (n : Nat) : Option Bool :=
  (waitingAt w (fun k => match k with
    | .reply m _ => m == n
    | _ => false)).head?

/-- A cause found after the post is raised at the XGET word, as kind P (R453), for its active lanes (R469). -/
def raiseGet (s : State) (c : FabCmd) (b : Bool) (f : Cause × Nat × W64) : State :=
  match s.wave c.wave with
  | none => s
  | some w =>
    let x := w.slot b
    let ir := (x.wait.map (·.word)).getD 0
    takeTrap (dropCmd s c.number) c.wave { cause := f.1, detail := f.2.1, addr := f.2.2, lanes := w.active b (wordPred ir), declined := true }
      b x.pc ir false false

/-- The reply of an XGET is delivered; an abandoned XGET drops it, since its word executes again. -/
def deliverGet (s : State) (c : FabCmd) : State :=
  match s.wave c.wave with
  | none => dropCmd s c.number
  | some w => match replySlot w c.number with
    | none => closeCmd s c
    | some b =>
      let ir := (((w.slot b).wait).map (·.word)).getD 0
      let blk := ir.getLsbD 0
      match c.fault with
      | some f => raiseGet s c b f
      | none =>
        if blk then
          let g := dieAgent w
          match serve s g .write c.addr.toNat c.length c.serving with
          | .held x => updCmd s c.number (fun c => { c with serving := x })
          | .ready fs =>
            let s1 := (writeBut s g c.addr.toNat c.reply (fs.map (·.1))).nextFresh
            match fs with
            | f :: _ => raiseGet s1 c b (f.2.1, 0, BitVec.ofNat 64 f.2.2)
            | [] =>
              let u := Use.waited ir ((List.range 3).map (fun k => Reg.s (wordA ir + k))) []
              closeCmd (passSlot s1 c.wave b (fun w => w.openWindow b (wordLa ir) u.writes u.reads [])) c
        else
          let u := Use.waited ir [.s (wordA ir)] [.s (wordD ir)]
          closeCmd (passSlot s c.wave b (fun w =>
            w.openWindow b (wordLa ir) u.writes u.reads [.s (wordD ir) (BitVec.ofNat 64 (leNat c.reply))])) c

/-- XGET_REPLY. -/
def execXgetReply (s : State) : Host.Outcome State Fault Refusal :=
  if answeredAgain s then .next s
  else match answered s with
  | none => .refused .notEnabled
  | some (t, c) => if c.op == .get && !c.serving.waiting then .next (deliverGet t c) else .refused .notEnabled

/-- A packet that left with a sequence number leaves again with it: a request that has no answer yet, an answer, a
contribution or an abort. -/
def sendAgain (s : State) (n : Nat) : Option State :=
  let f := s.fabric
  match f.sent.find? (fun x => x.packet.seqNo.toNat == n), f.sentReply.find? (fun x => x.2.seqNo.toNat == n),
      f.sentColl.find? (fun x => x.2.seqNo.toNat == n), f.sentAbort.find? (fun x => x.2.seqNo.toNat == n) with
  | some x, _, _, _ => if (findCmd s x.packet.cmd).any (fun c => c.phase == 1) then
      some { s with fabric := { f with sent := f.sent ++ [x] } } else none
  | none, some x, _, _ => some { s with fabric := { f with sentReply := f.sentReply ++ [x] } }
  | none, none, some x, _ => some { s with fabric := { f with sentColl := f.sentColl ++ [x] } }
  | none, none, none, some x => some { s with fabric := { f with sentAbort := f.sentAbort ++ [x] } }
  | none, none, none, none => none

/-- ROUTE_FAILURE (R446): the lost packet of a sequence number is sent again. -/
def execRouteFailure (s : State) : Host.Outcome State Fault Refusal :=
  match s.target with
  | .op n => match sendAgain s n with
    | some t => .next t
    | none => .refused .notEnabled
  | _ => .refused .notEnabled

/-! ### Requests at their target (R450, R452-R454) -/

/-- The window that a packet names: its context and entry. -/
def windowFor (s : State) (p : FabPacket) : Option (Nat × FabWindow) :=
  ((List.range s.ctxs.length).find? (fun c => (s.ctx c).job == some p.job && (s.ctx c).live)).bind (fun c =>
    ((s.ctx c).windows.find? (fun x => x.num == p.win.toNat)).map (fun x => (c, x)))

/-- Checks 1 to 3 of R450. -/
def windowFault (s : State) (op : FabOp) (p : FabPacket) : Option (Cause × Nat × W64) :=
  match windowFor s p with
  | none => some (.fabricUnreachable, 2, faOf s p p.off.toNat)
  | some (_, x) =>
    let bit := match op with
      | .get => 0
      | .put => 1
      | .signal _ => 2
    if x.length < p.off.toNat + p.len then some (.pageProtection, 0x20, faOf s p p.off.toNat)
    else if !x.flags.testBit bit then some (.pageProtection, 0x21, faOf s p p.off.toNat)
    else none

def findArrival (s : State) (n : Nat) : Option Arrival := s.fabric.inbox.find? (fun a => a.number == n)
def dropArrival (s : State) (n : Nat) : State :=
  { s with fabric := { s.fabric with inbox := s.fabric.inbox.filter (fun a => a.number != n) } }
/-- A request whose page is not present waits (R450). -/
def holdArrival (s : State) (a : Arrival) (x : Serving) : State :=
  { s with fabric := { s.fabric with inbox := s.fabric.inbox.map (fun b => if b.number == a.number then { b with serving := x } else b) } }

/-- A signal at its word (R454). -/
def applySignal (s : State) (g : Agent) (p : FabPacket) (op : SigOp) (va : Nat) : State :=
  let parts := partsOf s g .both va 8
  let page := (parts.head?).bind (fun q => match q.page with
    | .ok x => some x
    | .error _ => none)
  let x := BitVec.ofNat 64 (leNat (p.data.take 8))
  let rs := partRaises 1 parts ++ mediumRaises s 1 (op == .add) parts
    ++ raiseIf 1 (op == .fill && (page.map (·.tag)) == some false) .tagNotEnabled 0
    ++ raiseIf 1 (op == .add && (page.map (·.host)) == some true) .atomicUnsupported 0
  match settleRaises rs, page with
  | some r, _ => answerPacket s p [] (some (r.cause, 0, faOf s p p.off.toNat))
  | none, none => s
  | none, some q =>
    match op with
    | .add =>
      let old := BitVec.ofNat 64 (leNat (rangeRead s g va 8))
      answerPacket (rangeWrite s g va (leBytes 8 (old + x).toNat)) p [] none
    | .set => answerPacket (rangeWrite s g va (leBytes 8 x.toNat)) p [] none
    | .fill =>
      let waits := s.mem.isFull q.pa || !(waitersOf s q.pa false).isEmpty || s.fabric.fills.any (fun e => e.2.2 / 8 == q.pa / 8)
      if waits then { s with fabric := { s.fabric with fills := s.fabric.fills ++ [(p, s.ticket, q.pa)] } }.nextTicket
      else answerPacket (setWordBit (s.writePA q.pa (leBytes 8 x.toNat)) q.pa true) p [] none

/-- A request at the target. -/
def applyArrival (s : State) (a : Arrival) : State :=
  let p := a.packet
  let fin (s : State) : State := noteApplied (dropArrival s a.number).nextFresh p.src p.seqNo
  match windowFault s a.op p, windowFor s p with
  | some f, _ => fin (answerPacket s p [] (some f))
  | none, none => s
  | none, some (c, x) =>
    let g : Agent := { ctx := c, user := true, core := none, wave := none }
    let va := x.base.toNat + p.off.toNat
    let need := match a.op with
      | .get => Need.read
      | .put => Need.write
      | .signal _ => Need.both
    match serve s g need va p.len a.serving with
    | .held y => holdArrival s a y
    | .ready fs0 =>
      let fs := fs0.filter (fun f => !p.skip.contains f.1)
      let fault := (fs.head?).map (fun f => (f.2.1, 0, faOf s p (p.off.toNat + f.1)))
      match a.op with
      | .put => fin (answerPacket (writeBut s g va p.data (p.skip ++ fs.map (·.1))) p [] fault)
      | .get => fin (answerPacket s p (if fs.isEmpty then rangeRead s g va p.len else []) fault)
      | .signal op =>
        if fs.any (fun f => f.2.1 == .pageNotPresent || f.2.1 == .replayLimit) then fin (answerPacket s p [] fault)
        else fin (applySignal s g p op va)

/-- The request that an event of the target names: one that waits here, or a packet of another node, which is applied at most
once (R446). -/
def targetEvent (s : State) (is : FabOp → Bool) (op : FabPacket → FabOp) : Host.Outcome State Fault Refusal :=
  match s.target with
  | .op n => match findArrival s n with
    | some a => if is a.op && !a.serving.waiting then .next (applyArrival s a) else .refused .notEnabled
    | none => .refused .notEnabled
  | .packet p =>
    if appliedBefore s p.src p.seqNo || s.fabric.inbox.any (fun a =>
        a.packet.src == p.src && a.packet.seqNo == p.seqNo) then .next s
    else
      let a : Arrival := { number := s.ticket, op := op p, packet := p, serving := {} }
      .next (applyArrival { s with fabric := { s.fabric with inbox := s.fabric.inbox ++ [a] } }.nextTicket a)
  | _ => .refused .notEnabled

def execFabricTargetWrite (s : State) : Host.Outcome State Fault Refusal :=
  targetEvent s (fun o => o == .put) (fun _ => .put)
def execFabricTargetRead (s : State) : Host.Outcome State Fault Refusal :=
  targetEvent s (fun o => o == .get) (fun _ => .get)
def execFabricTargetSignal (s : State) : Host.Outcome State Fault Refusal :=
  targetEvent s (fun o => o != .put && o != .get) (fun p => .signal p.sig)

/-! ### Collectives: posting (R457, R458, R463) -/

def updColl (s : State) (n : Nat) (f : Coll → Coll) : State :=
  { s with fabric := { s.fabric with colls := s.fabric.colls.map (fun c => if c.number == n then f c else c) } }
def findColl (s : State) (n : Nat) : Option Coll := s.fabric.colls.find? (fun c => c.number == n)

/-- R239, R461: a sequence number is ahead of another. -/
def seqAhead (a b : BitVec 32) : Bool := (a - b) != 0 && !(a - b).getLsbD 31

/-- The value kept for a job and an ID; one that is not ahead of it does not replace it (R461, R466). -/
def keptSeq (l : List (BitVec 16 × BitVec 32 × BitVec 32)) (job : BitVec 16) (id : BitVec 32) : Option (BitVec 32) :=
  (l.find? (fun e => e.1 == job && e.2.1 == id)).map (·.2.2)
def keepSeq (l : List (BitVec 16 × BitVec 32 × BitVec 32)) (job : BitVec 16) (id seq : BitVec 32) :
    List (BitVec 16 × BitVec 32 × BitVec 32) :=
  if (keptSeq l job id).any (fun x => !seqAhead seq x) then l
  else (job, id, seq) :: l.filter (fun e => !(e.1 == job && e.2.1 == id))

/-- The fields of a collective's descriptor. -/
def collOf (b : List Byte) (number wave ctx : Nat) (job : BitVec 16) : Coll :=
  { number := number, wave := wave, ctx := ctx, job := job, op := fieldAt b 0 1, typ := fieldAt b 1 1, nch := fieldAt b 2 1
    id := BitVec.ofNat 32 (fieldAt b 4 4), seq := BitVec.ofNat 32 (fieldAt b 8 4), rank := fieldAt b 12 2, nrank := fieldAt b 14 2
    count := fieldAt b 0x10 4, rcap := fieldAt b 0x14 4, team := [], send := BitVec.ofNat 64 (fieldAt b 0x20 8)
    recv := BitVec.ofNat 64 (fieldAt b 0x28 8), counts := BitVec.ofNat 64 (fieldAt b 0x30 8), parts := []
    contributed := false, finished := false, cause := none, serving := {} }

namespace Coll

/-- The bytes of an element or record (R460). -/
def elem (c : Coll) : Nat := if c.op = 5 then 4 * (2 + c.nch) else 4

/-- A field of the descriptor out of range. -/
def fieldBad (c : Coll) (b : List Byte) : Bool :=
  c.op == 0 || decide (5 < c.op) || decide (1 < c.typ) || (decide (3 ≤ c.op) && c.typ != 0)
    || (if c.op = 5 then c.nch == 0 || decide (8 < c.nch) else c.nch != 0)
    || fieldAt b 3 1 != 0 || fieldAt b 0x38 8 != 0
    || c.nrank == 0 || decide (1024 < c.nrank) || decide (c.nrank ≤ c.rank)
    || decide (2 ^ 24 < c.count) || (c.op == 4 && c.count != 0) || (c.op == 2 && c.count % c.nrank != 0)
    || (c.op != 4 && (c.rcap != 0 || c.counts != 0))

/-- The bytes that the rank writes at RECV; `sent` are those it reads at SEND. -/
def recvBytes (c : Coll) : Nat := match c.op with
  | 2 => c.count / c.nrank * 4
  | 3 => c.nrank * c.count * 4
  | 4 => 64 * c.rcap
  | _ => c.count * c.elem

end Coll

/-- The 64-byte blocks of a contribution. -/
def blocksOf (level index : Nat) (ranks : List Nat) (bs : List Byte) : List CollPart :=
  ((List.range ((bs.length + 63) / 64)).map (fun k =>
    { level := level, index := index, block := k, ranks := ranks, data := (bs.drop (64 * k)).take 64 }))

/-- The packet of a part, with its source node and its sequence number. -/
def Coll.packet (c : Coll) (node n : Nat) (p : CollPart) : CollPacket :=
  { src := BitVec.ofNat 12 node, seqNo := BitVec.ofNat 32 n
    job := c.job, id := c.id, seq := c.seq, level := p.level, index := p.index, block := p.block, ranks := p.ranks, data := p.data }

/-- The team's other nodes. -/
def Coll.others (s : State) (c : Coll) : List Nat := (c.team.eraseDups).filter (fun n => n != s.fabric.node)

/-- The bytes of RECV of a collective that ends before its completion are free values (R466). -/
def forgetRecv (s : State) (c : Coll) : State :=
  match s.wave c.wave with
  | none => s
  | some w =>
    let g := dieAgent w
    let va := c.recv.toNat
    let fs := granuleFaults s g .write va c.recvBytes []
    (writeBut s g va ((List.range c.recvBytes).map (fun k => Config.freeByte (s.fresh * 2 ^ 64 + (va + k)))) (fs.map (·.1))).nextFresh

/-- A collective ends here with a cause; its node keeps the SEQ when it was aborted. -/
def endColl (s : State) (c : Coll) (f : Cause × Nat × W64) : State :=
  settleEvicted (updColl s c.number (fun c => { c with finished := true, parts := [], cause := some f })) c.wave

/-- R463, R466: this node aborts a collective for the other ranks. -/
def abortOthers (s : State) (c : Coll) (detail : Nat) : State :=
  let f := s.fabric
  let out := (Coll.others s c).mapIdx (fun k n => (n, ({ src := BitVec.ofNat 12 f.node, seqNo := BitVec.ofNat 32 (f.nextSeq + k)
                                                         job := c.job, id := c.id, seq := c.seq
                                                         detail := BitVec.ofNat 8 detail } : CollAbort)))
  { s with fabric := { f with
    aborted := keepSeq f.aborted c.job c.id c.seq, nextSeq := f.nextSeq + out.length, sentAbort := f.sentAbort ++ out } }

/-- The ranges that a rank's contribution reads: the counts of OP 4, then SEND. -/
def sendCounts (s : State) (g : Agent) (c : Coll) : List Nat := (wordsOf (rangeRead s g c.counts.toNat (4 * c.nrank))).map (·.toNat)

/-- The engine reads the contribution of this rank and sends it. A fault ends the collective here, with its RECV undefined
(R466), and aborts it elsewhere. -/
def contribute (s : State) (n : Nat) : State :=
  match findColl s n with
  | none => s
  | some c => match s.wave c.wave with
    | none => s
    | some w =>
      if c.contributed || c.finished then s
      else
        let g := dieAgent w
        let head := if c.op = 4 then serve s g .read c.counts.toNat (4 * c.nrank) c.serving else .ready []
        let fail (f : GranuleFault) : State := endColl (forgetRecv (abortOthers s c 2) c) c (f.2.1, 0, BitVec.ofNat 64 f.2.2)
        match head with
        | .held x => updColl s n (fun c => { c with serving := x })
        | .ready (f :: _) => fail f
        | .ready [] =>
          let cs := if c.op = 4 then sendCounts s g c else []
          let len := if c.op = 4 then 64 * cs.sum else c.count * c.elem
          match serve s g .read c.send.toNat len c.serving with
          | .held x => updColl s n (fun c => { c with serving := x })
          | .ready (f :: _) => fail f
          | .ready [] =>
            let data := rangeRead s g c.send.toNat len
            let toRank (j : Nat) : List CollPart :=
              if c.op = 4 then
                let at_ := (cs.take j).sum
                { level := 1, index := c.rank, block := 0, ranks := [c.rank], data := leBytes 4 (cs.getD j 0) }
                  :: blocksOf 0 c.rank [c.rank] ((data.drop (64 * at_)).take (64 * cs.getD j 0))
              else blocksOf 0 c.rank [c.rank] data
            let parts := (List.range c.nrank).flatMap (fun j =>
              if j = c.rank then [] else (toRank j).map (fun p => (c.team.getD j 0, p)))
            let f := s.fabric
            let out := parts.mapIdx (fun k e => (e.1, c.packet f.node (f.nextSeq + k) e.2))
            updColl { s with fabric := { f with
              nextSeq := f.nextSeq + out.length, sentColl := f.sentColl ++ out } } n (fun c => { c with
              parts := c.parts ++ toRank c.rank, contributed := true, serving := {} })

/-- A packet joins a collective unless its ranks are all held for its block (R461). -/
def addPart (c : Coll) (p : CollPacket) : Coll :=
  let held := (c.parts.filter (fun x => x.level == p.level && x.index == p.index && x.block == p.block)).flatMap (·.ranks)
  if p.ranks.all (fun r => held.contains r) then c
  else { c with parts := c.parts ++ [{ level := p.level, index := p.index, block := p.block, ranks := p.ranks, data := p.data }] }

/-- The checks of XCOLL once its descriptor has been read. The team is none when it could not be read; its nodes are checked
after the job (R448). -/
def collRaises (s : State) (w : Wave) (lanes : W32) (c : Coll) (b : List Byte) (read : Option (List W64)) : List Raise :=
  let at_ (a align : Nat) : List Raise :=
    if a % align = 0 then [] else [{ cause := .misaligned, lanes := lanes, addr := BitVec.ofNat 64 a }]
  let g := dieAgent w
  let n := if c.op = 4 then
      (if (rangeRaises s g .read c.counts.toNat (4 * c.nrank)).isEmpty then 64 * (sendCounts s g c).sum else 0)
    else c.count * 4
  let meets := (c.op == 2 || c.op == 3 || c.op == 4) && overlap c.send.toNat n c.recv.toNat c.recvBytes
  let team := read.getD []
  let nodes := team.map (fun x => x.toNat % 2 ^ 12)
  at_ (fieldAt b 0x18 8) 8 ++ at_ c.send.toNat 64 ++ at_ c.recv.toNat 64 ++ at_ c.counts.toNat 4
    ++ raiseIf lanes (c.fieldBad b || meets || team.any (fun x => decide (2 ^ 12 ≤ x.toNat))) .illegalField 0x10
    ++ raiseIf lanes (read.isSome && (s.ctx w.place.ctx).job.isSome
        && (nodes.getD c.rank 0xFFF != s.fabric.node || nodes.any (fun n => !hasRoute s n))) .illegalField 0x11
    ++ raiseIf lanes (s.fabric.colls.any (fun x => x.ctx == c.ctx && x.id == c.id && !x.finished)) .illegalField 0x12

/-- XCOLL. -/
def execXcoll (p : Pred) (la : BitVec 4) (sa : SReg) (s : State) : Host.Outcome State Fault Refusal :=
  let u := Instr.uses s.ir (.xcoll p la sa)
  onceWord p s (fun w =>
    let lanes := w.active s.slotB p
    let g := waveAgent w s.cur
    let a := globalAccess s g 0 lanes .read (w.getS sa.toNat).toNat 64 64 false
    let job := (s.ctx w.place.ctx).job
    let jobless := raiseIf lanes job.isNone .fabricUnreachable 3
    if 16 ≤ (s.fabric.colls.filter (fun c => c.wave == s.cur && !c.finished)).length then .wait .collRoom s
    else if !a.raises.isEmpty then .done s (a.raises ++ jobless)
    else
      let r := readParts s g a.parts
      let c := collOf r.2 s.ticket s.cur w.place.ctx (job.getD 0)
      let va := fieldAt r.2 0x18 8
      let tooMany := c.nrank == 0 || decide (1024 < c.nrank)
      let teamRaises := if tooMany then []
        else (rangeRaises s g .read va (8 * c.nrank)).map (fun (x : Raise) => { x with lanes := lanes })
      let read := if tooMany || !teamRaises.isEmpty then none
        else some ((partsBy 8 (rangeRead s g va (8 * c.nrank))).map (fun b => BitVec.ofNat 64 (leNat b)))
      let team := read.getD []
      let rs := jobless ++ teamRaises ++ collRaises s w lanes c r.2 read
      if !rs.isEmpty then .done s rs
      else
        let old := keptSeq s.fabric.aborted c.job c.id
        let dead := match old with
          | some x => !seqAhead c.seq x
          | none => false
        let mine (q : CollPacket) : Bool := q.job == c.job && q.id == c.id && q.seq == c.seq
        let c1 := (s.fabric.early.filter mine).foldl addPart { c with team := team.map (fun x => x.toNat % 2 ^ 12) }
        let s1 := (r.1.updWave s.cur (fun w => holdWrites s w la u [])).nextTicket
        let s2 := { s1 with fabric := { s1.fabric with
          colls := s1.fabric.colls ++ [if dead then { c1 with parts := [], finished := true, cause := some (.collectiveAborted, 3, 0) } else c1]
          early := s1.fabric.early.filter (fun q => !mine q) } }
        .done (if dead then s2 else contribute s2 c.number) [])

/-- XWAIT (R462). -/
def execXwait (p : Pred) (sa : SReg) (s : State) : Host.Outcome State Fault Refusal :=
  onceWord p s (fun w =>
    let lanes := w.active s.slotB p
    let id := (w.getS sa.toNat).setWidth 32
    let mine (c : Coll) : Bool := c.wave == s.cur && c.id == id
    if (s.ctx w.place.ctx).job.isNone then .done s (raiseIf lanes true .fabricUnreachable 3)
    else if s.fabric.colls.any (fun c => mine c && !c.finished) then .wait (.coll id.toNat) s
    else
      let s1 := { s with fabric := { s.fabric with colls := s.fabric.colls.filter (fun c => !mine c) } }
      .done s1 (match ((s.fabric.colls.filter mine).filterMap (·.cause)).head? with
        | some f => [{ cause := f.1, lanes := 0, detail := f.2.1, addr := f.2.2, eng := true }]
        | none => []))

/-! ### Collectives: the tree and the result (R459, R460, R464) -/

namespace Coll

/-- Bytes of a tree node, out of parts that hold exactly the ranks of the node. -/
def direct (c : Coll) (level index off n : Nat) : Option (List Byte) :=
  let want := (List.range (2 ^ level)).map (· + index * 2 ^ level) |>.filter (fun r => decide (r < c.nrank))
  let blocks := (List.range ((off + n - 1) / 64 + 1 - off / 64)).map (· + off / 64)
  let holds (p : CollPart) : Bool :=
    if c.op = 4 then p.level == level && p.index == index
    else want.all (fun r => p.ranks.contains r) && p.ranks.all (fun r => want.contains r)
  let got := blocks.map (fun k => (c.parts.find? (fun p => p.block == k && holds p)).map (·.data))
  if got.all (·.isSome) then some (((got.filterMap (fun x => x)).flatten.drop (off % 64)).take n) else none

/-- One combination (R459). -/
def combine (c : Coll) (l r : List Byte) : List Byte :=
  let lw := wordsOf l
  let rw_ := wordsOf r
  if c.op = 5 then
    let m := mergePartials (lw.getD 0 0) (lw.getD 1 0) (rw_.getD 0 0) (rw_.getD 1 0) (lw.drop 2) (rw_.drop 2)
    wordsImage (m.1 :: m.2.1 :: m.2.2)
  else wordsImage (List.zipWith (fun a b => if c.typ = 0 then add32 a b else a + b) lw rw_)

/-- Element `k` at a tree node. -/
def node (c : Coll) : Nat → Nat → Nat → Option (List Byte)
  | 0, index, k => c.direct 0 index (k * c.elem) c.elem
  | level + 1, index, k =>
    match c.direct (level + 1) index (k * c.elem) c.elem with
    | some b => some b
    | none =>
      let l := c.node level (2 * index) k
      if c.nrank ≤ (2 * index + 1) * 2 ^ level then l
      else match l, c.node level (2 * index + 1) k with
        | some a, some b => some (c.combine a b)
        | _, _ => none

/-- The levels of the tree. -/
def levels (c : Coll) : Nat := ((List.range 11).find? (fun k => decide (c.nrank ≤ 2 ^ k))).getD 10

/-- Consecutive elements of the tree result. -/
def tree (c : Coll) (first n : Nat) : Option (List Byte) :=
  let es := (List.range n).map (fun k => c.node c.levels 0 (first + k))
  if es.all (·.isSome) then some ((es.filterMap (fun x => x)).flatten) else none

/-- The count of granules that a source sends (OP 4). -/
def sourceCount (c : Coll) (q : Nat) : Option Nat :=
  (c.parts.find? (fun p => p.level == 1 && p.index == q)).map (fun p => leNat (p.data.take 4))

/-- The writes of a rank's result, when everything that they need has arrived, and whether granules lie beyond RCAP. -/
def result (c : Coll) : Option (List (Nat × List Byte) × Bool) :=
  let recv := c.recv.toNat
  match c.op with
  | 2 =>
    let n := c.count / c.nrank
    (c.tree (c.rank * n) n).map (fun b => ([(recv, b)], false))
  | 3 =>
    let all := (List.range c.nrank).map (fun q => if c.count = 0 then some [] else c.direct 0 q 0 (4 * c.count))
    if all.all (·.isSome) then some ([(recv, (all.filterMap (fun x => x)).flatten)], false) else none
  | 4 =>
    let counts := (List.range c.nrank).map c.sourceCount
    if !counts.all (·.isSome) then none
    else
      let ns := counts.filterMap (fun x => x)
      let from_ := ns.mapIdx (fun q n => if n = 0 then some [] else c.direct 0 q 0 (64 * n))
      if !from_.all (·.isSome) then none
      else
        let whole := (from_.filterMap (fun x => x)).flatten
        some ([(recv, whole.take (64 * c.rcap)), (c.counts.toNat + 4 * c.nrank, (ns.map (leBytes 4)).flatten)],
          decide (c.rcap < ns.sum))
  | _ => (c.tree 0 c.count).map (fun b => ([(recv, b)], false))

end Coll

/-- Serves the writes of a result in order: held, or the faults of each. -/
def serveWrites (s : State) (g : Agent) (sv : Serving) : List (Nat × List Byte) → Except Serving (List (List GranuleFault))
  | [] => .ok []
  | (va, bs) :: rest => match serve s g .write va bs.length sv with
    | .held x => .error x
    | .ready fs => match serveWrites s g sv rest with
      | .error x => .error x
      | .ok more => .ok (fs :: more)

/-- Whether a collective may complete. -/
def collReady (c : Coll) : Bool := c.contributed && !c.finished && !c.serving.waiting && c.result.isSome

/-- COLLECTIVE_COMPLETION (R460, R463). -/
def execCollectiveCompletion (s : State) : Host.Outcome State Fault Refusal :=
  match s.target with
  | .op n => match findColl s n with
    | none => .refused .notEnabled
    | some c => match s.wave c.wave, c.result with
      | some w, some (ws, beyond) =>
        if !collReady c then .refused .notEnabled
        else
          let g := dieAgent w
          match serveWrites s g c.serving ws with
          | .error x => .next (updColl s n (fun c => { c with serving := x })).nextFresh
          | .ok fs =>
            let s1 := (List.zip ws fs).foldl (fun s e => writeBut s g e.1.1 e.1.2 (e.2.map (·.1))) s
            let first := ((fs.flatten).head?).map (fun f => (f.2.1, 0, BitVec.ofNat 64 f.2.2))
            let tooLong : Option (Cause × Nat × W64) := if beyond then some (.elemRange, 0, c.recv + BitVec.ofNat 64 (64 * c.rcap)) else none
            let cause := first.orElse (fun _ => tooLong)
            let close (x : Coll) : Coll := if x.number == n then { x with finished := true, parts := [], cause := cause } else x
            let s2 : State := { s1 with fabric := { s1.fabric with
              latest := keepSeq s1.fabric.latest c.job c.id c.seq
              colls := (s1.fabric.colls.map close).filter (fun x => !(x.finished && x.cause.isNone)) } }
            .next (settleEvicted s2.nextFresh c.wave)
      | _, _ => .refused .notEnabled
  | _ => .refused .notEnabled

/-- COLLECTIVE_PACKET (R461): one that arrives again is discarded (R446). -/
def execCollectivePacket (s0 : State) : Host.Outcome State Fault Refusal :=
  match s0.target with
  | .coll p =>
    let s := noteApplied s0 p.src p.seqNo
    let stale (l : List (BitVec 16 × BitVec 32 × BitVec 32)) : Bool := match keptSeq l p.job p.id with
      | some x => !seqAhead p.seq x
      | none => false
    if appliedBefore s0 p.src p.seqNo then .next s0
    else if stale s.fabric.latest || stale s.fabric.aborted || !s.ctxs.any (fun c => c.job == some p.job) then .next s
    else match s.fabric.colls.find? (fun c => c.job == p.job && c.id == p.id && c.seq == p.seq && !c.finished) with
      | some c => .next (updColl s c.number (fun c => addPart c p))
      | none => .next { s with fabric := { s.fabric with early := s.fabric.early ++ [p] } }
  | _ => .refused .notEnabled

/-- The abort of a job's ID and SEQ at this node. -/
def abortColl (s : State) (job : BitVec 16) (id seq : BitVec 32) (detail : Nat) : State :=
  let s1 := { s with fabric := { s.fabric with
    aborted := keepSeq s.fabric.aborted job id seq
    early := s.fabric.early.filter (fun q => !(q.job == job && q.id == id && !seqAhead q.seq seq)) } }
  match s1.fabric.colls.find? (fun c => c.job == job && c.id == id && c.seq == seq && !c.finished) with
  | some c => endColl (forgetRecv s1 c) c (.collectiveAborted, detail, 0)
  | none => s1

/-- COLLECTIVE_ABORT (R466): one that arrives again is discarded (R446). -/
def execCollectiveAbort (s : State) : Host.Outcome State Fault Refusal :=
  match s.target with
  | .collAbort a =>
    if appliedBefore s a.src a.seqNo then .next s
    else .next (abortColl (noteApplied s a.src a.seqNo) a.job a.id a.seq a.detail.toNat)
  | _ => .refused .notEnabled

/-! ### Links (R446, R447) -/

def updPort (s : State) (n : Nat) (f : FabPort → FabPort) : State :=
  { s with fabric := { s.fabric with ports := updAt s.fabric.ports n f } }

/-- FLIT_CRC_FAIL: the flit is sent again and counted. -/
def execFlitCrcFail (s : State) : Host.Outcome State Fault Refusal :=
  match s.target with
  | .port n => if n < 32 then .next (updPort s n (fun p => { p with crcRetry := min 0xFFFF (p.crcRetry + 1) })) else .refused .notEnabled
  | _ => .refused .notEnabled

/-- LANE_FAILURE: the spare lane is used first; then the port narrows to 3 and to 2 lanes. -/
def execLaneFailure (s : State) : Host.Outcome State Fault Refusal :=
  match s.target with
  | .port n => match s.fabric.ports[n]? with
    | none => .refused .notEnabled
    | some p =>
      if !p.spared then .next (updPort s n (fun p => { p with spared := true }))
      else if p.width < 2 then .next (updPort s n (fun p => { p with width := p.width + 1 }))
      else .refused .notEnabled
  | _ => .refused .notEnabled

/-- LINK_TRAINED. -/
def execLinkTrained (s : State) : Host.Outcome State Fault Refusal :=
  match s.target with
  | .link n node port =>
    if n < 32 then .next (updPort s n (fun p => { p with up := true, peerNode := node.toNat, peerPort := port.toNat }))
    else .refused .notEnabled
  | _ => .refused .notEnabled

end Sys2Proof.Machine
end

