-- ==== Sys2Proof/Machine/Cards.lean ====
section
/-! DEFINITION. Job cards and chains (09_memory_instructions R236-R240, 12 R306, R307, 14 R322-R324, 17 R377, 19 R421): CHAIN,
CHWAIT, CARD_START and CARD_COMPLETION. -/

namespace Sys2Proof.Machine

/-! ### Fields and regions -/

def cardKind (header : List Byte) : Nat := fieldAt header 7 1
def cardSeq (header : List Byte) : Nat := fieldAt header 8 4
def cardWord (header : List Byte) : Nat := fieldAt header 0x10 8
def cardFull (header : List Byte) : Bool := (fieldAt header 0x0C 4).testBit 10

/-- The ring entry of a copy card. -/
def cardEntry (header : List Byte) : List W64 := (List.range 4).map (fun k => BitVec.ofNat 64 (fieldAt header (0x40 + 8 * k) 8))

/-- A range that a card names: in the scratchpad of its core, or in global memory of its context; whether it is read and
written (R307, R322). -/
structure CardRange where
  scratch : Bool
  lo : Nat
  len : Nat
  reads : Bool
  writes : Bool
  deriving DecidableEq, Repr

def cardRanges (header : List Byte) : List CardRange :=
  let named := ((cardRegions header).filter (fun r => r.2.2 != 0)).map (fun r =>
    { scratch := cardKind header == 2, lo := r.1, len := r.2.1, reads := r.2.2 % 2 == 1, writes := decide (2 ≤ r.2.2) })
  if cardKind header = 1 then
    let c := copyCmd (cardEntry header)
    named ++ (c.places.take 1).map (fun p => { scratch := true, lo := p.1, len := p.2, reads := c.out, writes := !c.out })
  else named

/-- R322, R323: two ranges in one space overlap and one of them is written. -/
def rangesConflict (a b : CardRange) : Bool :=
  a.scratch == b.scratch && overlap a.lo a.len b.lo b.len && (a.writes || b.writes)

/-- R323: an earlier card must complete first. -/
def cardsConflict (a b : Card) : Bool :=
  (cardRanges a.header).any (fun x => (cardRanges b.header).any (fun y => rangesConflict x y
    && (if x.scratch then a.core == b.core else a.ctx == b.ctx)))

/-! ### CHAIN (R238) -/

def findChain (s : State) (cl ctx : Nat) (desc : W64) : Option Chain :=
  (s.cluster cl).chains.find? (fun c => c.ctx == ctx && c.desc == desc)

/-- The part of a chain that each cluster's engine holds: the waves that append to it may run in several clusters. -/
def chainParts (s : State) (ctx : Nat) (desc : W64) : List Chain :=
  s.clusters.flatMap (fun c => c.chains.filter (fun x => x.ctx == ctx && x.desc == desc))

/-- Changes each part of a chain. -/
def mapChain (s : State) (ctx : Nat) (desc : W64) (f : Chain → Chain) : State :=
  { s with clusters := s.clusters.map (fun k => { k with
      chains := k.chains.map (fun x => if x.ctx == ctx && x.desc == desc then f x else x) }) }

/-- Puts a numbered thing in its place in a chain: CHAIN numbers the cards in the order of their TAIL updates. -/
def inChainOrder {α : Type} (num : α → Nat) (x : α) : List α → List α
  | [] => [x]
  | y :: ys => if num x < num y then x :: y :: ys else y :: inChainOrder num x ys

/-- The SEQ of the last card of a chain: as the engine holds it, else as that card in memory holds it. -/
def lastSeqOf (s : State) (w : Wave) (desc : W64) (tail : Nat) : Nat :=
  match findChain s w.place.cluster w.place.ctx desc with
  | some c => c.lastSeq
  | none => match engineRead s (engineAgent w) (tail + 8) 4 with
    | .ok b => leNat b
    | .error _ => 0

/-- Puts a card behind the others of its chain. -/
def joinChain (c : Cluster) (ctx : Nat) (desc : W64) (card : ChainCard) : Cluster :=
  if c.chains.any (fun x => x.ctx == ctx && x.desc == desc) then
    { c with chains := c.chains.map (fun x => if x.ctx == ctx && x.desc == desc then
        { x with lastSeq := card.seq, cards := x.cards ++ [card] } else x) }
  else { c with chains := c.chains ++ [{ ctx := ctx, desc := desc, lastSeq := card.seq, cards := [card], causes := [] }] }

/-- Hands a card to the dependence engine of its cluster. -/
def handOver (s : State) (w : Wave) (desc : W64) (addr : W64) (header : List Byte) (late : Bool) : State :=
  let k : Card := { addr := addr, wave := s.cur, ctx := w.place.ctx, core := w.place.core, chain := desc, header := header
                    bound := w.sys.bound, oete := w.oete, late := late, deps := [], number := s.ticket, order := s.ticket }
  (s.updCluster w.place.cluster (fun c =>
    joinChain { c with cards := c.cards ++ [{ k with deps := (c.cards.filter (fun x => cardsConflict x k)).map (·.number) }] }
      w.place.ctx desc { number := s.ticket, seq := cardSeq header, completed := false, cause := none })).nextTicket

/-- CHAIN. -/
def execChain (p : Pred) (la : BitVec 4) (sa : SReg) (sb : SReg) (s : State) : Host.Outcome State Fault Refusal :=
  let u := Instr.uses s.ir (.chain p la sa sb)
  onceWord p s (fun w =>
    let lanes := w.active s.slotB p
    let g := waveAgent w s.cur
    let desc := w.getS sa.toNat
    let addr := w.getS sb.toNat
    let d := globalAccess s g 0 lanes .both desc.toNat 16 64 false
    let c := globalAccess s g 0 lanes .read addr.toNat 128 128 false
    let rs := d.raises ++ c.raises
    if rs.any (fun r => r.cause == .misaligned) then .done s rs
    else if 64 ≤ (s.cluster w.place.cluster).cards.length then .wait .cards s
    else if !rs.isEmpty then .done s rs
    else
      let head := readParts s g d.parts
      let tail := fieldAt head.2 0 8
      let prev := if tail = 0 then fieldAt head.2 8 4 else lastSeqOf s w desc tail
      let t := globalAccess s g 0 lanes .write tail 7 1 false
      if tail ≠ 0 ∧ !t.raises.isEmpty then .done s t.raises
      else
        let s1 := if tail = 0 then mapChain head.1 w.place.ctx desc (fun c => { c with causes := [] }) else writeParts head.1 g t.parts (leBytes 7 addr.toNat)
        let s2 := writeParts s1 g (partsOf s1 g .write desc.toNat 8) (leBytes 8 addr.toNat)
        let r := readParts s2 g c.parts
        let late := !seqAhead (BitVec.ofNat 32 (cardSeq r.2)) (BitVec.ofNat 32 prev)
        .done ((handOver r.1 w desc addr r.2 late).updWave s.cur (fun w => holdWrites s w la u [])) [])

/-! ### CHWAIT (R240) -/

/-- Whether DONE has reached a sequence number. -/
def chainReached (done seq : Nat) : Bool := decide ((done + 2 ^ 32 - seq % 2 ^ 32) % 2 ^ 32 < 2 ^ 31)

/-- CHWAIT: it takes the earliest cause, in chain order, of the cards that it observed: those that DONE has passed since the
chain began, in whichever cluster they ran (log 54). -/
def execChwait (p : Pred) (sa : SReg) (sb : SReg) (s : State) : Host.Outcome State Fault Refusal :=
  onceWord p s (fun w =>
    let g := waveAgent w s.cur
    let desc := w.getS sa.toNat
    let a := globalAccess s g 0 (w.active s.slotB p) .read desc.toNat 16 64 false
    if !a.raises.isEmpty then .done s a.raises
    else
      let r := readParts s g a.parts
      let seq := (w.getS sb.toNat).toNat % 2 ^ 32
      if !chainReached (fieldAt r.2 8 4) seq then .wait (.chain desc seq) s
      else
        let causes := ((chainParts s w.place.ctx desc).flatMap (·.causes)).foldl
          (fun acc x => inChainOrder (fun (y : Nat × Cause × Nat × W64) => y.1) x acc) []
        .done r.1 ((causes.take 1).map (fun x =>
          { cause := x.2.1, lanes := 0, detail := x.2.2.1, addr := x.2.2.2, eng := true })))

/-! ### CARD_START (R239, R306, R323) -/

/-- A word of an array card that may run (R306). -/
def cardWordOk (x : W64) : Bool :=
  x.toNat / 2 ^ 43 % 2 ^ 9 == 0 && (match decodeWord false x with
    | .error _ => false
    | .ok i => (match i with
        | .tld .. | .tst .. | .tzero .. | .mma .. | .mbin .. | .mrec .. | .mbwd .. | .mepi .. | .azero .. | .amov .. => true
        | _ => false) && (Instr.uses x i).reads.all (fun r => match r with
          | .s n => decide (n ≤ 3)
          | _ => true))

/-- A card that is not run (R239). -/
def cardInvalid (s : State) (k : Card) (w : Wave) : Bool :=
  let h := k.header
  let untagged := match walk s k.ctx (cardWord h) with
    | .ok p => !p.tag
    | .error _ => false
  decide (cardKind h = 0) || decide (5 < cardKind h) || fieldAt h 0x0C 4 / 2 ^ 11 != 0 || k.late
    || (cardRegions h).any (fun r => (r.2.2 == 0) != (r.2.1 == 0))
    || (cardFull h && untagged) || cardWord h % 8 != 0
    || (cardKind h == 1 && (entryBad (cardEntry h) || fieldAt h 0x60 32 != 0))
    || (cardKind h == 2 && ((cardWords h).any (fun e => !cardWordOk e.2)
      || (cardRegions h).any (fun r => decide (2 ^ 19 < r.1 + r.2.1))))
    || w.run.status == .gone

/-- The capture of a card that runs outside a sequencer. -/
def cardCapture : Captured :=
  { instr := .cardStart, word := 0, pc := 0, slotB := false, lanes := 0, scalars := [], vectors := [], order := 0 }

/-- Whether a card may start: the cards that it follows have completed (R323). -/
def cardReady (s : State) (cl : Nat) (k : Card) : Bool :=
  !k.started && !k.finished && !k.serving.waiting && k.deps.all (fun n => (findCard s cl n).isNone)

/-- A copy card runs as an entry of a ring does (R236, R324). -/
def startCopyCard (s : State) (cl : Nat) (k : Card) (w : Wave) : State :=
  let l := { cardLimits k.header with ranges := some (scratchRanges s k.wave) }
  match serveCopy s k.core (engineAgent w) (cardEntry k.header) k.bound k.oete l k.serving with
  | .held x => updCard s.nextFresh cl k.number (fun c => { c with serving := x })
  | .moved t fault escape =>
    let s1 := if escape then t.updWave k.wave (fun w => w.orFlags flagOE) else t
    updCard s1.nextFresh cl k.number (fun c => { c with
      started := true, finished := true
      cause := fault.map (fun f => (f.2.1, if f.2.1 = .chainFormat then 2 else 0, f.2.2)) })

/-- A fabric card: no rule gives its parameters, so what it leaves in the regions that it may write is free (log 45). -/
def runFabricCard (s : State) (cl : Nat) (k : Card) (w : Wave) : State :=
  let g := engineAgent w
  let s1 := ((cardRegions k.header).filter (fun r => decide (2 ≤ r.2.2))).foldl (fun s r =>
    if (rangeRaises s g .write r.1 r.2.1).isEmpty then
      rangeWrite s g r.1 ((List.range r.2.1).map (fun j => Config.freeByte (s.fresh * 2 ^ 64 + r.1 + j)))
    else s) s
  updCard s1.nextFresh cl k.number (fun c => { c with started := true, finished := true })

/-- CARD_START. -/
def execCardStart (s : State) : Host.Outcome State Fault Refusal :=
  match s.target with
  | .card cl n => match findCard s cl n with
    | none => .refused .notEnabled
    | some k => match s.wave k.wave with
      | none => .refused .notEnabled
      | some w =>
        if !cardReady s cl k then .refused .notEnabled
        else if cardInvalid s k w then .next (failCard s cl n { cause := .chainFormat })
        else
          let s1 := updCard s cl n (fun c => { c with started := true })
          .next (match cardKind k.header with
            | 1 => startCopyCard s cl k w
            | 2 => nextCardWord s1 cl k 0
            | 3 => s1.updCluster cl (fun c => { c with
                mergeQueue := c.mergeQueue ++ [{ wave := k.wave, cap := cardCapture, card := some n }] })
            | 4 => postSplit s1 w { number := s.ticket, wave := k.wave, cap := cardCapture, card := some (cl, n)
                                    block := k.header.drop 0x40, desc := none, ageDue := none, gen := 0, cause := none }
            | _ => runFabricCard s cl k w)
  | _ => .refused .notEnabled

/-! ### CARD_COMPLETION (R239) -/

/-- The causes of the completion's own writes: SEQ at the completion word, DONE in the descriptor. -/
def completionRaises (s : State) (g : Agent) (k : Card) : List Raise :=
  rangeRaises s g .write (cardWord k.header) 8 ++ rangeRaises s g .write (k.chain.toNat + 8) 4

/-- A write by the engine that meets no cause. -/
def engineWrite (s : State) (g : Agent) (va : Nat) (bs : List Byte) : State :=
  if (rangeRaises s g .write va bs.length).isEmpty then rangeWrite s g va bs else s

/-- DONE advances past the completed cards at the head of a chain, whose causes CHWAIT reports. -/
def advanceChain (s : State) (g : Agent) (ctx : Nat) (desc : W64) : State :=
  let cards := ((chainParts s ctx desc).flatMap (·.cards)).foldl (fun acc x => inChainOrder (·.number) x acc) []
  let passed := cards.takeWhile (·.completed)
  let behind (x : ChainCard) : Bool := passed.any (fun y => y.number == x.number)
  match passed.getLast? with
  | none => s
  | some y => mapChain (engineWrite s g (desc.toNat + 8) (leBytes 4 y.seq)) ctx desc (fun x => { x with
      cards := x.cards.filter (fun c => !behind c)
      causes := x.causes ++ (x.cards.filter behind).filterMap (fun c => c.cause.map (fun r => (c.number, r))) })

/-- The steps of a completion. -/
def completeCard (s : State) (cl : Nat) (k : Card) (w : Wave) : State :=
  let g := engineAgent w
  let va := cardWord k.header
  let s1 := engineWrite s g va (leBytes 8 (cardSeq k.header))
  let s2 := match cardFull k.header, (partOf s1 g .write va 8).page with
    | true, .ok p => if p.tag then setWordBit s1 p.pa true else s1
    | _, _ => s1
  let mark (c : ChainCard) : ChainCard := if c.number == k.number then { c with completed := true, cause := k.cause } else c
  let s3 := s2.updCluster cl (fun c => { c with
    cards := c.cards.filter (fun x => x.number != k.number)
    chains := c.chains.map (fun x => { x with cards := x.cards.map mark }) })
  let s4 := advanceChain s3 g k.ctx k.chain
  let s5 := s4.updCore k.core (fun c => c.record { kind := 3, wave := w.place.num, token := 0, cause := .noCause
                                                   data := cardSeq k.header, addr := BitVec.ofNat 64 va, who := k.wave })
  settleFrames (settleEvicted s5.nextFresh k.wave) k.core

/-- CARD_COMPLETION: it waits for an entry of the event queue (R190). A page that is not present is serviced first (R409). -/
def execCardCompletion (s : State) : Host.Outcome State Fault Refusal :=
  match s.target with
  | .card cl n => match findCard s cl n with
    | none => .refused .notEnabled
    | some k => match s.wave k.wave with
      | none => .refused .notEnabled
      | some w =>
        if !k.finished || k.serving.waiting || !(s.core k.core).eventRoom then .refused .notEnabled
        else match settleRaises ((completionRaises s (engineAgent w) k).filter (fun r =>
            !(k.serving.declined.any (fun d => d.1 == r.addr.toNat)))) with
          | none => .next (completeCard s cl k w)
          | some r =>
            let s1 := cardService s.nextFresh cl k r
            match findCard s1 cl n with
            | none => .next s1
            | some k1 => .next (if k1.serving.waiting then s1 else completeCard s1 cl k1 w)
  | _ => .refused .notEnabled

end Sys2Proof.Machine
end

