-- ==== Sys2Proof/Machine/Dispatcher.lean ====
section
/-! DEFINITION. The dispatcher (08_core R181-R186, 14 R336, 19_die R388-R392, R400): when a waiting word or an evicted wave may
go on, what fits a core, how a wave starts and comes back, DISPATCH_ROUND, RECORD_RESERVING and WAVE_RELEASE. -/

namespace Sys2Proof.Machine

/-! ### Conditions of waiting words (R46, R336) -/

/-- DONE of a chain, as memory holds it. -/
def chainDone (s : State) (ctx : Nat) (desc : W64) : Nat := leNat (privRead s ctx (desc.toNat + 8) 4)

/-- Whether a serialised transaction keeps a wave waiting (R220). -/
def txHolds (s : State) (i : Nat) (w : Wave) : Option Bool → Bool
  | some cluster => beginHeld s i w cluster
  | none => accessHeld s i w

/-- Whether what a word waits for holds. A resident slot at a barrier, at GBAR.rows, at VSYNC, at a full/empty word, at a
queue or at the reply of an XGET goes on where that is satisfied; its condition here serves evicted waves. -/
def waitHolds (s : State) (i : Nat) (w : Wave) : WaitKind → Bool
  | .tokenRoom tk => decide (w.token tk < 63)
  | .ringRoom core ring => (s.core core).rings.all (fun r => r.base != ring || decide (r.entries.length < r.size - 1))
  | .tokens mask => tokensClear w mask
  | .chain desc seq => chainReached (chainDone s w.place.ctx desc) seq
  | .wordFull pa _ _ => s.mem.isFull pa
  | .wordEmpty pa _ => !s.mem.isFull pa
  | .barrier gen => (match s.groupOf w with
    | none => true
    | some g => g.all.gen != gen)
  | .roleBarrier role gen => (match s.groupOf w with
    | none => true
    | some g => (g.barrierOf (some role)).gen != gen)
  | .rows n => (match s.groupOf w with
    | none => true
    | some g => decide (n ≤ g.rows))
  | .sync => true
  | .frames n => decide (n ≤ w.place.frameHold) ||
    (match oldestRequest (frameRequests s w.place.core) with
      | some r => r.wave == i && decide (n + w.saved.frames.length ≤ freeFrames s w.place.core)
      | none => true)
  | .arrayRoom => decide (arrayPending s i < 4)
  | .arrayDrain => arrayPending s i == 0
  | .engines upto => !postedBefore s i upto
  | .queueRoom die pipe k _ => (match queueAt s die pipe k with
    | some x => x.q.closed || decide (x.q.items < x.q.cap)
    | none => true)
  | .queueItem die pipe k _ => (match queueAt s die pipe k with
    | some x => x.q.closed || x.q.items != 0
    | none => true)
  | .dieQueue die => !queueFull s die
  | .cards => decide ((s.cluster w.place.cluster).cards.length < 64)
  | .pairOps => !pairPending s i
  | .mergeRoom => !(s.cluster w.place.cluster).mergeQueue.any (fun m => m.wave == i && m.card.isNone)
  | .reply cmd _ => (findCmd s cmd).isNone
  | .coll id => !s.fabric.colls.any (fun c => c.wave == i && c.id.toNat == id && !c.finished)
  | .collRoom => decide ((s.fabric.colls.filter (fun c => c.wave == i && !c.finished)).length < 16)
  | .txTurn begins => !txHolds s i w begins

/-- A resident slot at one of these points goes on in the step that satisfies it. -/
def servedWhere : WaitKind → Bool
  | .rows _ | .sync | .wordFull _ _ _ | .wordEmpty _ _ | .queueRoom _ _ _ _ | .queueItem _ _ _ _ | .reply _ _ | .frames _ => true
  | _ => false

/-! ### What fits a core (R183, R184) -/

/-- What a task or an evicted wave asks of a core. `window`: the base of a window that it keeps. -/
structure Ask where
  units : Nat
  scratch : Nat
  frames : Nat
  edges : Nat
  window : Option Nat := none
  deriving DecidableEq, Repr

/-- What a core holds: waves and units of its partitions, windows, owned frames, bound edges, wave numbers. -/
structure Room where
  usable : Bool
  parts : List (Nat × Nat)
  windows : List (Nat × Nat)
  frames : Nat
  edges : Nat
  nums : List Nat
  deriving DecidableEq, Repr

/-- Where a task goes on a core. -/
structure Spot where
  part : Nat
  base : Nat
  num : Nat
  deriving DecidableEq, Repr

namespace Room

/-- The partitions that fit: waves, number. -/
def fitting (r : Room) (units : Nat) : List (Nat × Nat) :=
  (r.parts.mapIdx (fun k e => (e, k))).filterMap (fun x =>
    if x.1.1 < 16 && x.1.2 + units ≤ 32 then some (x.1.1, x.2) else none)

/-- The partition with the fewest waves, the lowest on a tie. -/
def partition (r : Room) (units : Nat) : Option Nat :=
  ((r.fitting units).foldl (fun (m : Option (Nat × Nat)) e => match m with
    | none => some e
    | some x => if e.1 < x.1 then some e else some x) none).map (·.2)

/-- The lowest base with a free run of a length. -/
def base (r : Room) (len : Nat) : Option Nat :=
  if len = 0 then some 0
  else ((List.range 128).map (· * 4096)).find? (fun b =>
    decide (b + len ≤ 2 ^ 19) && !r.windows.any (fun w => overlap b len w.1 w.2))

/-- The place of a task, with the room that it leaves. -/
def place (r : Room) (a : Ask) : Option (Spot × Room) :=
  let num := ((List.range 64).find? (fun n => !r.nums.contains n)).getD 63
  let at_ := match a.window with
    | some b => some b
    | none => r.base a.scratch
  match r.usable && decide (r.frames + a.frames ≤ 32) && decide (r.edges + a.edges ≤ 8), r.partition a.units, at_ with
  | true, some p, some b =>
    some ({ part := p, base := b, num := num },
      { r with
        parts := updAt r.parts p (fun e => (e.1 + 1, e.2 + a.units))
        windows := if a.scratch = 0 then r.windows else r.windows ++ [(b, a.scratch)]
        frames := r.frames + a.frames, edges := r.edges + a.edges, nums := r.nums ++ [num] })
  | _, _, _ => none

/-- Places several tasks on one core, in order. -/
def placeAll (r : Room) : List Ask → Option (List Spot)
  | [] => some []
  | a :: rest => match r.place a with
    | none => none
    | some x => (placeAll x.2 rest).map (x.1 :: ·)

def waves (r : Room) : Nat := (r.parts.map (·.1)).sum
def freeUnits (r : Room) : Nat := (r.parts.map (fun e => 32 - e.2)).sum

end Room

/-- Whether a wave occupies its window (R186, R231). -/
def holdsWindow (s : State) (i : Nat) (w : Wave) : Bool :=
  w.run.status != .gone && w.place.scratchLen != 0 && (!w.run.evicted || w.run.windowKept || hasCommands s i)

/-- The room of a core. -/
def roomOf (s : State) (c : Nat) : Room :=
  let here := ((List.range s.waves.length).filterMap (fun i => (s.wave i).map (fun w => (i, w)))).filter (fun e =>
    e.2.place.core == c && e.2.run.status != .gone)
  let resident := (here.filter (fun e => !e.2.run.evicted)).map (·.2)
  { usable := !(s.core c).fenced && !(s.core c).draining
    parts := (List.range 4).map (fun p =>
      let ws := resident.filter (fun w => w.place.part == p)
      (ws.length, (ws.map (fun w => w.place.regs / 64)).sum))
    windows := (here.filter (fun e => holdsWindow s e.1 e.2)).map (fun e => (e.2.place.scratchBase, e.2.place.scratchLen))
    frames := (ownedFrames s c).length + heldFrames s c
    edges := (here.map (fun e => (e.2.place.edgeMap.filter (·.isSome)).length)).sum
    nums := resident.map (fun w => w.place.num) }

/-- The cores of a cluster. -/
def coresOf (cl : Nat) : List Nat := (List.range 8).map (· + 8 * cl)

/-- The clusters of a die in the order of a home: the near ones first (R388, R390). -/
def clusterOrder (die : Nat) (near : Option Nat) : List Nat :=
  let all := (List.range 8).map (· + 8 * die)
  match near with
  | none => all
  | some k => [8 * die + 2 * k, 8 * die + 2 * k + 1] ++ all.filter (fun c => c != 8 * die + 2 * k && c != 8 * die + 2 * k + 1)

/-- Of some cores, the one that fits and has the fewest waves, the lowest on a tie (R390). -/
def chooseCore (s : State) (cores : List Nat) (a : Ask) : Option (Nat × Spot) :=
  (cores.foldl (fun (m : Option (Nat × Nat × Spot)) c =>
    let r := roomOf s c
    match r.place a with
    | none => m
    | some x => match m with
      | none => some (r.waves, c, x.1)
      | some y => if r.waves < y.1 then some (r.waves, c, x.1) else m) none).map (·.2)

/-- The first cluster with a core that fits, and that core. -/
def firstCore (s : State) (cls : List Nat) (barred : Nat → Bool) (a : Ask) : Option (Nat × Spot) :=
  cls.findSome? (fun cl => chooseCore s ((coresOf cl).filter (fun c => !barred c)) a)

/-! ### A wave starts (R44, R178, R181, R182, R184) -/

/-- What a wave starts with. -/
structure StartInfo where
  entry : W64
  args : W64
  home : W64
  foot : W32
  launch : W32
  ctx : Nat
  depth : Nat
  stage : Option StageId
  deriving DecidableEq, Repr

def askOf (foot : W32) : Ask :=
  let f := footprint foot
  { units := f.units, scratch := 4096 * f.scratch, frames := f.frames, edges := f.edges }

/-- The window descriptor (R178). -/
def windowDescriptor (base len : Nat) : Nat := if len = 0 then 0 else len * 2 ^ 32 + base

/-- The edge registers of a core that no wave binds. -/
def freeEdges (s : State) (c : Nat) : List Nat :=
  let bound := (residents s c).flatMap (fun w => w.place.edgeMap.filterMap id)
  (List.range 8).filter (fun e => !bound.contains e)

/-- Writes an edge register. -/
def putEdge (c : Core) (p : Nat) (vals : List W32) (len : Nat) (base : W32) : Core :=
  { c with store := { c.store with
      edges := Cells.fill 0 c.store.edges (129 * p) (vals.take 129)
      edgeLen := Cells.set 0 c.store.edgeLen p len
      edgeBase := Cells.set 0 c.store.edgeBase p base
      edgePoison := Cells.clear c.store.edgePoison (68 * p) 68 } }

/-- Binds an entry of a wave to the lowest free edge register, with contents. -/
def bindEdge (s : State) (i e : Nat) (vals : List W32) (len : Nat) (base : W32) : State :=
  match s.wave i with
  | none => s
  | some w =>
    let p := (freeEdges s w.place.core).headD 7
    (s.updCore w.place.core (fun c => putEdge c p vals len base)).updWave i (fun w =>
      { w with place := { w.place with edgeMap := w.place.edgeMap.set e (some p) } })

/-- Binds e0 to e(n-1) at the dispatch; what they hold is free (log 21). -/
def grantEdges (s : State) (i n : Nat) : State :=
  ((List.range n).foldl (fun s e => bindEdge s i e
    ((List.range 129).map (fun k => Config.freeWord (s.fresh * 2 ^ 40 + 2 ^ 32 + (e * 256 + k))))
    ((Config.freeWord (s.fresh * 2 ^ 40 + 2 ^ 33 + e)).toNat % 130)
    (Config.freeWord (s.fresh * 2 ^ 40 + 2 ^ 34 + e))) s).nextFresh

/-- A new wave. -/
def freshWave (x : StartInfo) (c : Nat) (p : Spot) (age : Nat) (priv : W64) : Wave :=
  let a := askOf x.foot
  { place := { ctx := x.ctx, cluster := clusterOf c, core := c, part := p.part, num := p.num, age := age, frameAge := age
               regs := 64 * a.units, scratchBase := p.base, scratchLen := a.scratch, frameMap := List.replicate 32 none
               edgeMap := List.replicate 8 none, depth := x.depth, stage := x.stage }
    s := Cells.set 0 (Cells.set 0 [] 1 x.args) 2 x.home
    slotA := Slot.running x.entry allLanes none
    sys := { priv := priv, launch := x.launch } }

/-- A wave starts on a core. -/
def startWave (s : State) (x : StartInfo) (c : Nat) (p : Spot) (age : Nat) : State :=
  let i := s.waves.length
  let a := askOf x.foot
  let priv : W64 := (Config.privatePage s.ticket).setWidth 64 <<< 12
  let s1 : State := { s with waves := s.waves ++ [freshWave x c p age priv] }
  let s2 := grantEdges (grantFrames s1 i a.frames) i a.edges
  (privWrite s2 x.ctx (priv.toNat + 0x80) (leBytes 8 (windowDescriptor p.base a.scratch))).nextTicket

/-! ### An evicted wave comes back (R186, R274, R279, R333, R336) -/

/-- Whether an evicted wave may be dispatched again. -/
def wakeable (s : State) (i : Nat) (w : Wave) : Bool :=
  w.run.evicted && w.run.status == .running && w.run.wakeStored && !hasCommands s i && !splitRuns s i && !writesMap s i
    && (match w.run.wake with
      | none => true
      | some k => waitHolds s i w k)

/-- What an evicted wave asks: its footprint with the frames that it owned, and at ACALLOC its request too (R279). -/
def askAgain (w : Wave) : Ask :=
  { units := w.place.regs / 64, scratch := w.place.scratchLen
    frames := w.saved.frames.length + (match w.run.wake with
      | some (.frames n) => n
      | _ => 0)
    edges := w.saved.edges.length
    window := if w.run.windowKept then some w.place.scratchBase else none }

/-- Gives a saved frame back to its map entry. -/
def restoreFrame (s : State) (i : Nat) (e : Nat × List W32) : State :=
  match s.wave i with
  | none => s
  | some w =>
    let p := shadowFrame s w.place.core
    (s.updCore w.place.core (fun c => { c with store := { c.store with
        frames := Cells.fill 0 c.store.frames (4096 * p) e.2
        framePoison := Cells.clear c.store.framePoison (2048 * p) 2048 } })).updWave i (fun w =>
      { w with place := { w.place with frameMap := w.place.frameMap.set e.1 (some p) } })

/-- Gives a saved tile register back. -/
def restoreTile (c : Core) (e : Nat × List Byte × List Byte × W32) : Core :=
  { c with store := { c.store with
      tiles := Cells.fill 0 c.store.tiles (8192 * e.1) e.2.1
      strips := Cells.fill 0 c.store.strips (2048 * e.1) e.2.2.1
      tcr := Cells.set 0 c.store.tcr e.1 e.2.2.2
      tilePoison := Cells.clear (Cells.clear c.store.tilePoison (1024 * e.1) 1024) (32768 + 256 * e.1) 256 } }

/-- A window that was not kept holds free values (R333). -/
def freeWindow (s : State) (c base len : Nat) : State :=
  (s.updCore c (fun k => k.spWrite base ((List.range len).map (fun j => Config.freeByte (s.fresh * 2 ^ 64 + j))))).nextFresh

/-- An evicted wave is resident again, with a new age (R47). One that was evicted at ACALLOC keeps its age there, and its
request is kept for it (R279). -/
def returnWave (s : State) (i : Nat) (c : Nat) (p : Spot) (age : Nat) : State :=
  match s.wave i with
  | none => s
  | some w =>
    let asked := match w.run.wake with
      | some (.frames n) => some n
      | _ => none
    let s1 := s.updWave i (fun w => { w with
      place := { w.place with core := c, cluster := clusterOf c, part := p.part, num := p.num, age := age, scratchBase := p.base
                              frameAge := if asked.isSome then w.place.frameAge else age, frameHold := asked.getD 0 }
      saved := {}
      run := { w.run with evicted := false, wake := none, wakeStored := false, windowKept := false } })
    let s2 := if w.run.windowKept || w.place.scratchLen = 0 then s1 else freeWindow s1 c p.base w.place.scratchLen
    let s3 := s2.updCore c (fun k => w.saved.tiles.foldl restoreTile k)
    let s4 := w.saved.frames.foldl (fun s e => restoreFrame s i e) s3
    let s5 := w.saved.edges.foldl (fun s e => bindEdge s i e.1 e.2.1 e.2.2.1 e.2.2.2) s4
    reissueOps (privWrite s5 w.place.ctx (w.sys.priv.toNat + 0x80)
      (leBytes 8 (windowDescriptor p.base w.place.scratchLen))) i

/-- Places a woken wave: on its own core when its window is kept, else on a core of its cluster. -/
def placeWoken (s : State) (age i : Nat) : State :=
  match s.wave i with
  | none => s
  | some w =>
    if !wakeable s i w then s
    else
      let cores := if w.run.windowKept then [w.place.core] else coresOf w.place.cluster
      match chooseCore s cores (askAgain w) with
      | none => s
      | some (c, p) => returnWave s i c p age

/-- Step 1 of a round. -/
def roundWoken (s : State) (die age : Nat) : State :=
  ((List.range s.waves.length).filter (fun i => match s.wave i with
    | some w => dieOf w.place.core == die
    | none => false)).foldl (fun s i => placeWoken s age i) s

/-! ### Stage tasks (R400) -/

/-- The stages of a die in (pipeline, stage) order. -/
def stagesOf (s : State) (die : Nat) : List QueueAt :=
  (s.die die).pipes.flatMap (fun p => p.queues.mapIdx (fun k q => { die := die, pipe := p, k := k, q := q }))

def stageEligible (x : QueueAt) : Bool :=
  decide (0 < x.q.items) && decide (x.q.live < x.q.maxt) && decide (x.q.live < x.q.items)
    && (match x.pipe.queues[x.k + 1]? with
      | none => true
      | some y => decide (y.items < y.hwm))

def stageKey (x : QueueAt) : Nat × Nat := (x.pipe.number, x.k)
def keyBefore (a b : Nat × Nat) : Bool := decide (a.1 < b.1) || (a.1 == b.1 && decide (a.2 < b.2))

/-- The stages of the greatest occupancy/CAP, compared exactly. -/
def fullestStages (xs : List QueueAt) : List QueueAt :=
  xs.filter (fun x => xs.all (fun y => decide (y.q.items * x.q.cap ≤ x.q.items * y.q.cap)))

/-- The winner of a tie: the stage that follows the winner of the previous tie, in turn. -/
def tieWinner (last : Option (Nat × Nat)) (xs : List QueueAt) : Option QueueAt :=
  match last with
  | none => xs.head?
  | some t => ((xs.filter (fun x => keyBefore t (stageKey x))) ++ xs).head?

/-- The cores that reserving records keep for themselves (R391). -/
def reservedCores (s : State) (die : Nat) : List Nat := (s.die die).queue.flatMap (·.reserving)

/-- Starts a task of a stage. -/
def startStage (s : State) (x : QueueAt) (c : Nat) (p : Spot) (age : Nat) : State :=
  startWave (updQueue s x (fun q => { q with live := q.live + 1 }))
    { entry := x.q.entry, args := x.q.args, home := x.pipe.home, foot := x.q.foot, launch := x.pipe.launch, ctx := x.pipe.ctx
      depth := x.pipe.depth, stage := some { die := x.die, pipe := x.pipe.number, stage := x.k } } c p age

/-- Step 2 of a round. -/
def roundStages : Nat → State → Nat → Nat → State
  | 0, s, _, _ => s
  | n + 1, s, die, age =>
    let reserved := reservedCores s die
    let spot (x : QueueAt) : Option (Nat × Spot) :=
      firstCore s (clusterOrder die x.pipe.near) (fun c => reserved.contains c) (askOf x.q.foot)
    let tied := fullestStages ((stagesOf s die).filter (fun x => stageEligible x && (spot x).isSome))
    let winner := if tied.length ≤ 1 then tied.head? else tieWinner (s.die die).lastTie tied
    match winner with
    | none => s
    | some x => match spot x with
      | none => s
      | some (c, p) =>
        let s1 := if tied.length ≤ 1 then s else s.updDie die (fun d => { d with lastTie := some (stageKey x) })
        roundStages n (startStage s1 x c p age) die age

/-! ### Records (R390-R392) -/

def Task.coset (t : Task) : Bool := t.home.getLsbD 62
def Task.side (t : Task) : Nat := bitsOf t.home.toNat 61 61
def Task.size (t : Task) : Nat := bitsOf t.home.toNat 60 56 + 1

/-- Records of one co-residence set, or of a later one of the same kind. -/
def sameSet (a b : Task) : Bool :=
  a.coset && b.coset && a.ctx == b.ctx && a.launch == b.launch && a.home.toNat % 2 ^ 56 == b.home.toNat % 2 ^ 56 && a.size == b.size

/-- A record by itself, or the set that it begins: of the records of a set in order of arrival, each CSIZE + 1. -/
def unitAt (q : List Task) (t : Task) : Option (List Task) :=
  if !t.coset then some [t]
  else
    let mates := q.filter (sameSet t)
    let j := (mates.filter (fun x => decide (x.number < t.number))).length
    if j % t.size = 0 then some ((mates.drop j).take t.size) else none

/-- Records and sets in the order of the queue. -/
def unitsOf (q : List Task) : List (List Task) := q.filterMap (unitAt q)

/-- A unit that may be placed: every record of it is ready, and a set is complete. -/
def unitReady (u : List Task) : Bool := match u with
  | [] => false
  | t :: _ => u.all (·.isReady) && (!t.coset || u.length == t.size)

/-- Where a set goes: the first cluster with a pair whose cores fit the two sides, the lowest such pair (R392). -/
def pairFor (s : State) (pairs : List (Nat × Nat)) (u : List Task) : Option (Nat × Nat × List Spot × List Spot) :=
  let asks (k : Nat) : List Ask := (u.filter (fun t => t.side == k)).map (fun t => askOf t.foot)
  pairs.findSome? (fun e => match (roomOf s e.1).placeAll (asks 0), (roomOf s e.2).placeAll (asks 1) with
    | some a, some b => some (e.1, e.2, a, b)
    | _, _ => none)

def pairsOf (cls : List Nat) : List (Nat × Nat) :=
  cls.flatMap (fun cl => (List.range 4).map (fun j => (8 * cl + 2 * j, 8 * cl + 2 * j + 1)))

/-- Starts a record's task. -/
def startTask (s : State) (t : Task) (c : Nat) (p : Spot) (age : Nat) : State :=
  startWave s { entry := t.entry, args := t.args, home := BitVec.ofNat 64 (t.home.toNat % 2 ^ 56), foot := t.foot
                launch := t.launch, ctx := t.ctx, depth := t.depth, stage := none } c p age

/-- The placement of a unit: its tasks with their cores and spots. A reserving unit goes to what it reserves; no other goes
there (R391). -/
def placementOf (s : State) (die : Nat) (u : List Task) : Option (List (Task × Nat × Spot)) :=
  match u with
  | [] => none
  | t :: _ =>
    let reserved := reservedCores s die
    let barred (c : Nat) : Bool := if t.reserving.isEmpty then reserved.contains c else !t.reserving.contains c
    let cls := clusterOrder die t.near
    if t.coset then
      (pairFor s ((pairsOf cls).filter (fun e => !barred e.1 && !barred e.2)) u).map (fun x =>
        let zip (k c : Nat) (ps : List Spot) : List (Task × Nat × Spot) :=
          List.zipWith (fun t p => (t, c, p)) (u.filter (fun t => t.side == k)) ps
        zip 0 x.1 x.2.2.1 ++ zip 1 x.2.1 x.2.2.2)
    else (firstCore s cls barred (askOf t.foot)).map (fun x => [(t, x.1, x.2)])

/-- R391: the ready units before a placed one have been passed. -/
def bumpPassed (q : List Task) (number count : Nat) : List Task :=
  let passed := (unitsOf q).filter (fun u => unitReady u && (match u with
    | [] => false
    | t :: _ => decide (t.number < number)))
  q.map (fun t => if passed.any (fun u => u.any (fun x => x.number == t.number)) then { t with passed := t.passed + count } else t)

/-- Tries the unit that begins with a record. -/
def placeUnit (s : State) (die age number : Nat) : State :=
  match ((unitsOf (s.die die).queue).find? (fun u => (u.head?.map (·.number)) == some number)) with
  | none => s
  | some u =>
    if !unitReady u then s
    else match placementOf s die u with
      | none => s
      | some ps =>
        let s1 := s.updDie die (fun d => { d with
          queue := bumpPassed (d.queue.filter (fun t => !u.any (fun x => x.number == t.number))) number u.length })
        ps.foldl (fun s e => startTask s e.1 e.2.1 e.2.2 age) s1

/-- Step 3 of a round. -/
def roundRecords (s : State) (die age : Nat) : State :=
  ((unitsOf (s.die die).queue).filterMap (fun u => u.head?.map (·.number))).foldl (fun s n => placeUnit s die age n) s

/-! ### The events -/

/-- A dispatch round (R390). -/
def dispatchRound (s : State) (die : Nat) : State :=
  let age := s.ticket
  let s1 := roundWoken s.nextTicket die age
  let s2 := roundStages 4096 s1 die age
  roundRecords s2 die age

/-- The first unit that has been passed 64 times while its first cluster has no reserving one (R391). -/
def reservable (s : State) (die : Nat) : Option (List Task) :=
  let reserved := reservedCores s die
  (unitsOf (s.die die).queue).find? (fun u => unitReady u && (match u with
    | [] => false
    | t :: _ => decide (64 ≤ t.passed) && t.reserving.isEmpty
        && !reserved.any (fun c => clusterOf c == (clusterOrder die t.near).headD 0)))

/-- What a unit reserves: the core, or the pair, of its first cluster with the most free units, the lowest on a tie. -/
def toReserve (s : State) (die : Nat) (u : List Task) : List Nat := match u with
  | [] => []
  | t :: _ =>
    let cl := (clusterOrder die t.near).headD 0
    let options := if t.coset then (pairsOf [cl]).map (fun e => [e.1, e.2]) else (coresOf cl).map (fun c => [c])
    let size (cs : List Nat) : Nat := (cs.map (fun c => (roomOf s c).freeUnits)).sum
    (options.foldl (fun (m : Option (List Nat)) o => match m with
      | none => some o
      | some x => if size x < size o then some o else m) none).getD []

/-- RECORD_RESERVING. -/
def execRecordReserving (s : State) : Host.Outcome State Fault Refusal :=
  match s.target with
  | .die d => match reservable s d with
    | none => .refused .notEnabled
    | some u =>
      let cores := toReserve s d u
      .next (s.updDie d (fun x => { x with
        queue := x.queue.map (fun t => if u.any (fun y => y.number == t.number) then { t with reserving := cores } else t) }))
  | _ => .refused .notEnabled

/-- A round places something. -/
def roundPlaces (s t : State) (die : Nat) : Bool :=
  s.waves.length != t.waves.length || (List.range s.waves.length).any (fun i => match s.wave i, t.wave i with
    | some a, some b => dieOf a.place.core == die && a.run.evicted != b.run.evicted
    | _, _ => false)

/-! ### WAVE_RELEASE (R53, R185) -/

/-- Whether a retired wave may release its resources: its instructions and its commands have completed. -/
def releasable (s : State) (i : Nat) (w : Wave) : Bool :=
  w.run.status == .retiring && !hasCommands s i && !hasSplit s i && !writesMap s i && (pendingOps s i).isEmpty && !heldByPair s i
    && w.windows.all (fun x => x.done || x.ends != .any)

/-- WAVE_RELEASE. -/
def execWaveRelease (s : State) : Host.Outcome State Fault Refusal :=
  match s.target with
  | .wave i => match s.wave i with
    | none => .refused .notEnabled
    | some w =>
      if !releasable s i w then .refused .notEnabled
      else
        let s1 := if holdsWindow s i w then
            s.updCore w.place.core (fun c => releaseTags c w.place.scratchBase w.place.scratchLen) else s
        .next (settleFrames (s1.updWave i (fun w => { w with
          place := { w.place with frameMap := List.replicate 32 none, edgeMap := List.replicate 8 none }
          tokens := [], windows := [], faults := [], saved := {}, abandoned := []
          run := { w.run with status := .gone } })) w.place.core)
  | _ => .refused .notEnabled

end Sys2Proof.Machine
end

