-- ==== Sys2Proof/Machine/Owl.lean ====
section
/-! DEFINITION. The Owl, pre-emption, halts, faults of kind Y, errors and repair: the events that no word executes (08 R188-R190,
R193, R194, R232, 14 R321, R326-R331, 19 R405, R409, 20 R428, R437, R438, R441, R442). -/

namespace Sys2Proof.Machine

/-! ### Completions of instructions, halts and limits of a wave -/

/-- Whether the instruction of a window may complete on its own (R6, R55, R303). -/
def windowCompletes (s : State) (i : Nat) (x : Window) : Bool :=
  !x.done && (x.ends == .any || (x.ends == .drain && arrayPending s i == 0))

/-- LONG_LATENCY_COMPLETION. -/
def execLongLatencyCompletion (s : State) : Host.Outcome State Fault Refusal :=
  match s.target with
  | .window i k => match (s.wave i).bind (fun w => w.windows[k]?) with
    | none => .refused .notEnabled
    | some x => if windowCompletes s i x then .next (s.updWave i (fun w => w.completeWindow k)) else .refused .notEnabled
  | _ => .refused .notEnabled

/-- GROUP_HALT_DELIVERY (R326): the halt reaches a member, or one that it has reached stops with the skid that it has. -/
def execGroupHaltDelivery (s : State) : Host.Outcome State Fault Refusal :=
  match s.target with
  | .wave i => match s.wave i with
    | none => .refused .notEnabled
    | some w => match w.run.skid with
      | some n => .next (stopMember s i n)
      | none => if w.run.haltDue then .next (haltArrives s i) else .refused .notEnabled
  | _ => .refused .notEnabled

/-- REPLAY_LIMIT (R409): the 17th PAGE_NOT_PRESENT of a word is raised as REPLAY_LIMIT, of kind P. -/
def execReplayLimit (s : State) : Host.Outcome State Fault Refusal :=
  match s.target with
  | .wave i => match (s.wave i).bind (·.run.limit) with
    | none => .refused .notEnabled
    | some (r, b, pc, word) =>
      let s1 := s.updWave i (fun w => { w.updSlot b (fun x => { x with faults := 0 }) with
        run := { w.run with status := .running, limit := none } })
      .next (takeOrAbort { s1 with cur := i, slotB := b, ir := word } { r with cause := .replayLimit } pc)
  | _ => .refused .notEnabled

/-! ### Trap reports (R321, R428) -/

/-- Whether a trap queue is configured. -/
def trapQueueOk (c : Context) : Bool :=
  c.trapQ != 0 && c.trapQ.toNat % 8 == 0 && isPow2 c.trapQN 16 4096

def trapTail (s : State) (c : Context) : Nat := leNat (s.readPA (c.descAddr + 0x30) 4)
def trapHead (s : State) (c : Context) : Nat := leNat (s.readPA (c.descAddr + 0x34) 4)

/-- Whether the trap queue of a context takes a report now. -/
def trapRoom (s : State) (c : Context) : Bool :=
  trapQueueOk c && decide ((trapTail s c + 2 ^ 32 - trapHead s c) % 2 ^ 32 < c.trapQN)

/-- Writes a report into the trap queue of a context and tells the host when the queue was empty. -/
def putReport (s : State) (n : Nat) (priv : W64) : State :=
  let c := s.ctx n
  let tail := trapTail s c
  let s1 := privWrite s n (c.trapQ.toNat + 8 * (tail % c.trapQN)) (leBytes 8 priv.toNat)
  let s2 := s1.writePA (c.descAddr + 0x30) (leBytes 4 (tail + 1))
  if tail = trapHead s c then { s2 with interrupts := s2.interrupts ++ [c.port.intVec] } else s2

/-- A report is written, or held behind those that are held already. -/
def reportTrap (s : State) (n : Nat) (priv : W64) : State :=
  if trapRoom s (s.ctx n) && (s.ctx n).trapHeld.isEmpty then putReport s n priv
  else s.updCtx n (fun c => { c with trapHeld := c.trapHeld ++ [priv] })

/-- TRAP_QUEUE_RELEASE. -/
def execTrapQueueRelease (s : State) : Host.Outcome State Fault Refusal :=
  match s.target with
  | .ctx n => match (s.ctx n).trapHeld with
    | [] => .refused .notEnabled
    | x :: rest =>
      if trapRoom s (s.ctx n) then .next (putReport (s.updCtx n (fun c => { c with trapHeld := rest })) n x)
      else .refused .notEnabled
  | _ => .refused .notEnabled

/-! ### The Owl takes a record (R321) -/

/-- A record leaves the queue of a core, and a source that waits puts its record in (R190). -/
def dropRecord (c : Core) : Core :=
  let c1 := { c with events := c.events.drop 1 }
  match c1.held with
  | [] => c1
  | e :: rest => if c1.eventRoom then { c1 with events := c1.events ++ [e], held := rest } else c1

/-- The record that the Owl takes next from a core. -/
def nextRecord (s : State) (c : Nat) : Option EventRec :=
  if (s.cluster (clusterOf c)).owlPaused then none else (s.core c).events.head?

/-- Takes a record of a kind. -/
def takeRecord (s : State) (kind : Nat) (f : State → Nat → EventRec → State) : Host.Outcome State Fault Refusal :=
  match s.target with
  | .core c => match nextRecord s c with
    | none => .refused .notEnabled
    | some e => if e.kind = kind then .next (f (s.updCore c dropRecord) c e) else .refused .notEnabled
  | _ => .refused .notEnabled

/-- The dispatchers check the records that wait for words (R389). -/
def execCopyDone (s : State) : Host.Outcome State Fault Refusal := takeRecord s 1 (fun s _ _ => watchReady s)
def execCardDone (s : State) : Host.Outcome State Fault Refusal := takeRecord s 3 (fun s _ _ => watchReady s)
/-- The record is kept for the runtime. -/
def execCopyFault (s : State) : Host.Outcome State Fault Refusal :=
  takeRecord s 2 (fun s c e => s.updCluster (clusterOf c) (fun k => { k with copyFaults := k.copyFaults ++ [e] }))

/-- TRAP_RECORD: a fault of kind Y is serviced, and its frame is reported when the runtime declines (PAGE_MAP_DECLINED); the
frame of any other trap goes to the trap queue. -/
def execTrapRecord (s : State) : Host.Outcome State Fault Refusal :=
  takeRecord s 4 (fun s _ e => match s.wave e.who with
    | none => s
    | some w => if e.replay then s else reportTrap s w.place.ctx e.addr)

/-- RETIRED: the wave left its group, and WHERE, when it retired (R53). -/
def execRetired (s : State) : Host.Outcome State Fault Refusal := takeRecord s 5 (fun s _ _ => s)
/-- BLOCKED: the wake condition of an evicted wave is stored. -/
def execBlocked (s : State) : Host.Outcome State Fault Refusal :=
  takeRecord s 6 (fun s _ e => s.updWave e.who (fun w =>
    if w.run.evicted then { w with run := { w.run with wakeStored := true } } else w))

/-- The Theique notes something in its telemetry, unless an update of its own firmware pauses that (R441). -/
def noteTelemetry (s : State) (f : Telemetry → Telemetry) : State :=
  if s.trust.paused then s else { s with telemetry := f s.telemetry }

def toTelemetry (s : State) (_ : Nat) (e : EventRec) : State :=
  noteTelemetry s (fun t => { t with records := t.records ++ [e] })
def execArrayReplay (s : State) : Host.Outcome State Fault Refusal := takeRecord s 7 toTelemetry
def execEccCorrected (s : State) : Host.Outcome State Fault Refusal := takeRecord s 8 toTelemetry
def execEccPoison (s : State) : Host.Outcome State Fault Refusal := takeRecord s 9 toTelemetry
def execUint (s : State) : Host.Outcome State Fault Refusal := takeRecord s 10 (fun s _ _ => s)

/-! ### Page faults (R409) -/

/-- The engine goes on with an element whose page the runtime has mapped or declined. -/
def endService (x : Serving) (declined : Bool) : Serving :=
  { x with waiting := false, declined := if declined then (x.addr, false) :: x.declined else x.declined }

/-- The fabric engine goes on with the operation of a number. -/
def fabricGoesOn (s : State) (n : Nat) (declined : Bool) : Option State :=
  match findCmd s n, findArrival s n, findColl s n with
  | some c, _, _ =>
    if c.serving.waiting then some (sendCmd (updCmd s n (fun c => { c with serving := endService c.serving declined })) n) else none
  | none, some a, _ => if a.serving.waiting then some (holdArrival s a (endService a.serving declined)) else none
  | none, none, some c =>
    if c.serving.waiting then some (contribute (updColl s n (fun c => { c with serving := endService c.serving declined })) n)
    else none
  | none, none, none => none

/-- An engine's element has been serviced. -/
def engineServiced (s : State) (o : FaultOwner) (declined : Bool) : Option State :=
  match o with
  | .wave _ => none
  | .copy core k => match ((s.core core).rings[k]?).bind (fun r => r.entries.find? (·.serving.waiting)) with
    | none => none
    | some _ => some (s.updCore core (fun c => updFirst c k (fun e => { e with serving := endService e.serving declined })))
  | .card cl n => match findCard s cl n with
    | none => none
    | some k => if k.serving.waiting then some (updCard s cl n (fun c => { c with serving := endService c.serving declined })) else none
  | .fabric n => fabricGoesOn s n declined

/-- PAGE_FAULT_SERVICED: the word executes again; a member that a halt has stopped meanwhile does so when its group resumes
(R327). -/
def execPageFaultServiced (s : State) : Host.Outcome State Fault Refusal :=
  match s.target with
  | .owner (.wave i) => match s.wave i with
    | none => .refused .notEnabled
    | some w =>
      if w.run.status == .service && w.run.limit.isNone then .next (resumeWave s i)
      else if w.run.status == .stopped then .next s
      else .refused .notEnabled
  | .owner o => match engineServiced s o false with
    | some t => .next t
    | none => .refused .notEnabled
  | _ => .refused .notEnabled

/-- A fault that the runtime declined is one of kind P: the frame loses REPLAY, the group is halted, and the frame goes to
the trap queue. Inside a transaction it aborts that instead (R219). -/
def declineFault (s : State) (i : Nat) (w : Wave) : State :=
  if w.tx.isSome then
    (resumeWave s i).updWave i (fun w => (w.abortTx 6 Cause.pageNotPresent.code 0).settled)
  else
    let orig := (s.groupOf w).isSome
    let flags := leNat (privRead s w.place.ctx w.sys.priv.toNat 8)
    let cleared := flags - (if flags.testBit 9 then 2 ^ 9 else 0)
    let s1 := privWrite s w.place.ctx w.sys.priv.toNat
      (leBytes 8 (if orig && !cleared.testBit 13 then cleared + 2 ^ 13 else cleared))
    let s2 := s1.updWave i (fun w => { w with run := { w.run with
      status := .halted, skid := none, haltDue := false, trap := w.run.trap.map (fun t => { t with orig := orig }) } })
    reportTrap (if orig then haltGroup s2 i else s2) w.place.ctx w.sys.priv

/-- PAGE_MAP_DECLINED. -/
def execPageMapDeclined (s : State) : Host.Outcome State Fault Refusal :=
  match s.target with
  | .owner (.wave i) => match s.wave i with
    | none => .refused .notEnabled
    | some w =>
      if w.run.status == .service && w.run.limit.isNone then .next (declineFault s i w)
      else if w.run.status == .stopped then .next s
      else .refused .notEnabled
  | .owner o => match engineServiced s o true with
    | some t => .next t
    | none => .refused .notEnabled
  | _ => .refused .notEnabled

/-! ### Groups and pre-emption (R232, R329-R331) -/

/-- GROUP_RESUME (R329): every member of a halted group is resumed. A wave of a failed core is killed (R194). -/
def execGroupResume (s : State) : Host.Outcome State Fault Refusal :=
  match s.target with
  | .group cl ctx key => match s.findGroup cl ctx key with
    | none => .refused .notEnabled
    | some g =>
      if g.halt != 2 then .refused .notEnabled
      else
        let s1 := g.members.foldl (fun s m => match s.wave m.wave with
          | none => s
          | some w =>
            if w.machineChecked then killWave s m.wave
            else s.updWave m.wave (fun w => { w with run := { w.run with
              trap := w.run.trap.map (fun t => { t with resumed := true }) } })) s
        .next (releaseGroup s1 cl ctx key)
  | _ => .refused .notEnabled

/-- The blocking point at which a wave stands, slot A first. -/
def blockedAt (w : Wave) : Option WaitKind :=
  ([w.slotA, w.slotB].filterMap (fun x => match x.valid, x.wait with
    | true, some y => if y.kind.blocking then some y.kind else none
    | _, _ => none)).head?

/-- Whether a wave that is stopped is evicted at once (R331). -/
def standsStopped (w : Wave) : Bool :=
  w.run.status == .halted || w.run.status == .stopped || w.run.status == .asleep

/-- Whether a pre-emption request evicts a wave where it stands; the frames of a pair operation hold their wave (R313). -/
def evictable (s : State) (i : Nat) (w : Wave) : Bool :=
  !w.run.evicted && w.run.skid.isNone && !heldByPair s i
    && (standsStopped w || (w.run.status == .running && ((blockedAt w).isSome || w.run.evicting)))

/-- Evicts a wave where it stands. -/
def evictNow (s : State) (i : Nat) (w : Wave) : State :=
  if standsStopped w then evict s i none true false else evict s i (blockedAt w) false false

/-- A pre-emption request reaches a wave. One that waits while a pair operation holds its frames issues no more (R313). -/
def requestPreemption (s : State) (i : Nat) : State :=
  match s.wave i with
  | none => s
  | some w =>
    let s1 := s.updWave i (fun w => { w with run := { w.run with preempt := true } })
    if evictable s i w then evictNow s1 i w
    else if w.run.status == .running && !w.run.evicted && w.run.skid.isNone && (blockedAt w).isSome then
      s1.updWave i (fun w => { w with run := { w.run with evicting := true } })
    else s1

/-- A live wave that has not been evicted. -/
def resides (w : Wave) : Bool := !w.run.evicted && w.run.status != .retiring && w.run.status != .gone

/-- PREEMPTION_REQUEST: it reaches a wave, or evicts one that a pair operation held when it came. -/
def execPreemptionRequest (s : State) : Host.Outcome State Fault Refusal :=
  match s.target with
  | .wave i => match s.wave i with
    | none => .refused .notEnabled
    | some w =>
      if !resides w || (w.run.preempt && !evictable s i w) then .refused .notEnabled
      else .next (requestPreemption s i)
  | _ => .refused .notEnabled

/-- A member whose every slot waits at a blocking point, or that has been evicted. -/
def fullyBlocked (s : State) (m : Member) : Bool := match s.wave m.wave with
  | none => true
  | some w => w.run.evicted || (w.run.status == .running && (blockedAt w).isSome && !heldByPair s m.wave
      && [w.slotA, w.slotB].all (fun x => !x.valid || x.parked || (match x.wait with
        | some y => y.kind.blocking
        | none => false)))

/-- COMPAT_SWAP_OUT (R232). How long the group has been idle is free (log 5). -/
def execCompatSwapOut (s : State) : Host.Outcome State Fault Refusal :=
  match s.target with
  | .group cl ctx key => match s.findGroup cl ctx key with
    | none => .refused .notEnabled
    | some g =>
      let live := g.members.filter (fun m => match s.wave m.wave with
        | some w => resides w
        | none => false)
      if !(s.ctx ctx).compat || g.halt != 0 || live.isEmpty || !g.members.all (fullyBlocked s) then .refused .notEnabled
      else .next (live.foldl (fun s m => match s.wave m.wave with
        | none => s
        | some w => if evictable s m.wave w then evictNow s m.wave w else s) s)
  | _ => .refused .notEnabled

/-! ### Errors (R193, R194, R405) -/

/-- The structure code of a record (R189); the control structures have none, so theirs is free. -/
def EccUnit.code (s : State) : EccUnit → Nat
  | .registerFile => 1
  | .scratchpad => 2
  | .tiles => 3
  | .frames => 4
  | .edges => 5
  | .tagTable => 6
  | .ruleSlots => 7
  | .control => (Config.freeWord s.fresh).toNat

def eccRecord (kind data off : Nat) : EventRec :=
  { kind := kind, wave := 0, token := 0, cause := .noCause, data := data, addr := BitVec.ofNat 64 off, who := 0 }

/-- SINGLE_BIT_ERROR: corrected, and recorded while there is room (R190). -/
def execSingleBitError (s : State) : Host.Outcome State Fault Refusal :=
  match s.target with
  | .ecc c u off =>
    if Config.nCores ≤ c then .refused .notEnabled
    else if (s.core c).eventRoom then
      .next (s.updCore c (fun k => k.record (eccRecord 8 (EccUnit.code s u) off))).nextFresh
    else .next (noteTelemetry s (fun t => { t with dropped := t.dropped + 1 }))
  | _ => .refused .notEnabled

/-- Poisons a unit of a core. The offset in the register file counts 256 KiB for each wave number, 128 bytes for each register
(log 46); that in the rule slots is the slot. -/
def poisonUnit (s : State) (c : Nat) (u : EccUnit) (off : Nat) : State :=
  match u with
  | .registerFile =>
    let hit (w : Wave) : Wave :=
      if w.place.core == c && w.place.num == off / 2 ^ 18 && resides w then { w with poison := w.poison.add (off / 4 % 2 ^ 16) } else w
    { s with waves := s.waves.map hit }
  | .scratchpad => s.updCore c (fun k => { k with scratchPoison := k.scratchPoison.add (off / 8) })
  | .tiles => s.updCore c (fun k => { k with store := { k.store with tilePoison := k.store.tilePoison.add (off / 8) } })
  | .frames => s.updCore c (fun k => { k with store := { k.store with framePoison := k.store.framePoison.add (off / 8) } })
  | .edges => s.updCore c (fun k => { k with store := { k.store with edgePoison := k.store.edgePoison.add (off / 8) } })
  | .tagTable => s.updCore c (fun k =>
      let x := Cells.get 0 k.tags (off / 8) &&& 0x7FFF_FFFF_FFFF_FFFF#64
      { k with tags := Cells.set 0 k.tags (off / 8) x })
  | .ruleSlots => s.updCore c (fun k => { k with store := { k.store with
      rules := updAt k.store.rules off (fun r => { r with poisoned := true }) } })
  | .control => s

/-- The bytes of a structure, or its slots. -/
def EccUnit.size : EccUnit → Nat
  | .registerFile => 2 ^ 24
  | .scratchpad => 2 ^ 19
  | .tiles => 32 * 8192 + 32 * 2048
  | .frames => 36 * 16384
  | .edges => 8 * 544
  | .tagTable => 8 * 4096
  | .ruleSlots => 16
  | .control => 0

/-- UNCORRECTABLE_ERROR: the unit is poisoned; one in the control structures is a MACHINE_CHECK. -/
def execUncorrectableError (s : State) : Host.Outcome State Fault Refusal :=
  match s.target with
  | .ecc c u off =>
    if Config.nCores ≤ c || EccUnit.size u ≤ off then .refused .notEnabled
    else .next ((poisonUnit s c u off).updCore c (fun k => k.record (eccRecord 9 (EccUnit.code s u) off)))
  | _ => .refused .notEnabled

/-- A wave takes MACHINE_CHECK; its transaction aborts first. -/
def checkWave (s : State) (i : Nat) : State :=
  match s.wave i with
  | none => s
  | some _ =>
    let s1 := s.updWave i (fun w => w.abortTx 7 0 0)
    match s1.wave i with
    | none => s1
    | some w =>
      let b := if (w.slot w.run.lastSlotB).valid then w.run.lastSlotB else !w.run.lastSlotB
      takeTrap s1 i { cause := .machineCheck } b (w.slot b).pc 0 false true

/-- The waves of a core, those that left a window there among them. -/
def wavesOfCore (s : State) (c : Nat) : List Nat :=
  (List.range s.waves.length).filter (fun i => match s.wave i with
    | some w => w.place.core == c && w.run.status != .retiring && w.run.status != .gone && (!w.run.evicted || w.run.windowKept)
    | none => false)

/-- A pair operation that the other core leads goes back to the head of its sequencer (R194, R312). -/
def abandonPairOf (s : State) (c : Nat) : State :=
  s.updCore (partnerOf c) (fun k => match k.running with
    | some r => if isPair r.op.cap.instr then { k with running := none, queue := r.op :: k.queue } else k
    | none => k)

/-- MACHINE_CHECK: the core is fenced, and its pair retires. -/
def execMachineCheck (s : State) : Host.Outcome State Fault Refusal :=
  match s.target with
  | .core c =>
    if Config.nCores ≤ c || (s.core c).fenced then .refused .notEnabled
    else
      let s1 := abandonPairOf (s.updCore c (fun k => { k with fenced := true })) c
      .next ((wavesOfCore s1 c).foldl checkWave s1)
  | _ => .refused .notEnabled

/-- PATROL_SCRUB: a line with an uncorrectable error is poisoned. -/
def execPatrolScrub (s : State) : Host.Outcome State Fault Refusal :=
  match s.target with
  | .line n found =>
    if 2 ^ 33 ≤ n then .refused .notEnabled
    else if found = .uncorrectable then .next { s with mem := { s.mem with poison := s.mem.poison.add n } }
    else .next s
  | _ => .refused .notEnabled

/-- The pseudo-channel of a physical address within its stack (R404). -/
def pseudoChannel (pa : Nat) : Nat :=
  let g := bitsOf pa 35 8
  128 * (bitsOf g 27 7 % 3) + (bitsOf g 6 0 ^^^ bitsOf g 13 7 ^^^ bitsOf g 20 14 ^^^ bitsOf g 27 21)

/-- Whether a spare serves the granule of a physical address (R404): its address is what it was. -/
def spareServes (s : State) (pa : Nat) : Bool := s.telemetry.channels.contains (bitsOf pa 39 36, pseudoChannel pa)

/-- PSEUDO_CHANNEL_SPARING (R437): a spare takes the granules of the channel (spareServes); addresses do not change. An
update of the Theique pauses sparing (R441). -/
def execPseudoChannelSparing (s : State) : Host.Outcome State Fault Refusal :=
  match s.target with
  | .channel stack ch =>
    let used := s.telemetry.channels
    if s.trust.paused || 16 ≤ stack || 384 ≤ ch || used.contains (stack, ch) || 16 ≤ (used.filter (fun e => e.1 == stack)).length then
      .refused .notEnabled
    else .next { s with telemetry := { s.telemetry with channels := used ++ [(stack, ch)] } }
  | _ => .refused .notEnabled

/-- CLOCK_THROTTLE (R442). -/
def execClockThrottle (s : State) : Host.Outcome State Fault Refusal :=
  match s.target with
  | .die d =>
    if d < Config.nDies && Config.throttleStepMHz < (s.die d).clockMHz then
      .next (s.updDie d (fun x => { x with clockMHz := x.clockMHz - Config.throttleStepMHz }))
    else .refused .notEnabled
  | _ => .refused .notEnabled

/-! ### Core-pair retirement (R438) -/

/-- A core has been drained: no wave resides, no command and no started card of it is left. A fenced core is not drained. -/
def coreDrained (s : State) (c : Nat) : Bool :=
  (s.core c).fenced ||
    ((List.range s.waves.length).all (fun i => match s.wave i with
        | none => true
        | some w => w.place.core != c || w.run.status == .gone || (w.run.evicted && w.run.status != .retiring && !hasCommands s i))
      && (s.core c).running.isNone && (s.core c).queue.isEmpty && (s.core c).rings.all (fun r => r.entries.isEmpty)
      && s.clusters.all (fun k => k.cards.all (fun x => x.core != c)))

/-- The core of a spare pair takes the place of a drained one: tiles, TCRs, rule slots, kept windows and tags are copied. In
place of a failed core it starts afresh, with the records that the Owl has not read. -/
def spareCore (k : Core) : Core :=
  if k.fenced then { events := k.events, held := k.held, spare := true }
  else { k with draining := false, spare := true, tlb := [] }

/-- The first step: nothing more is placed, and every wave of a core that has not failed gets a pre-emption request. -/
def startDrain (s : State) (c : Nat) : State :=
  let s1 := s.updCore c (fun k => { k with draining := true })
  if (s.core c).fenced then s1
  else ((List.range s.waves.length).filter (fun i => match s.wave i with
    | some w => w.place.core == c && resides w
    | none => false)).foldl requestPreemption s1

/-- The last steps. The waves of a failed core end as killed; without a spare pair the cores are lost. -/
def endDrain (s : State) (die a : Nat) : State :=
  let dead := [a, a + 1].flatMap (fun c => if (s.core c).fenced then wavesOfCore s c else [])
  let s1 := dead.foldl killWave s
  if (s.die die).sparePairs = 0 then
    [a, a + 1].foldl (fun s c => s.updCore c (fun k => { k with fenced := true })) s1
  else
    ([a, a + 1].foldl (fun s c => s.updCore c spareCore) s1).updDie die (fun d => { d with sparePairs := d.sparePairs - 1 })

/-- Whether the drain of a pair may end. -/
def drainEnds (s : State) (a : Nat) : Bool :=
  (s.core a).draining && coreDrained s a && coreDrained s (a + 1)
    && !((s.core a).fenced && (s.core (a + 1)).fenced && (s.die (dieOf a)).sparePairs == 0)

/-- Whether the Theique takes a step of the retirement of a pair by itself: it ends a drain, or begins one after a
MACHINE_CHECK in the pair (R194). The runtime's own retirement of a pair begins as an input. -/
def retiresNow (s : State) (a : Nat) : Bool :=
  if s.trust.paused then false
  else if (s.core a).draining then drainEnds s a else (s.core a).fenced || (s.core (a + 1)).fenced

/-- CORE_PAIR_RETIREMENT: it begins a drain, or ends one; not while an update of the Theique pauses sparing (R441). -/
def execCorePairRetirement (s : State) : Host.Outcome State Fault Refusal :=
  match s.target with
  | .pair die pair =>
    let a := 64 * die + 2 * pair
    if Config.nDies ≤ die || 32 ≤ pair || s.trust.paused then .refused .notEnabled
    else if !(s.core a).draining then .next (startDrain (startDrain s a) (a + 1))
    else if drainEnds s a then .next (endDrain s die a)
    else .refused .notEnabled
  | _ => .refused .notEnabled

end Sys2Proof.Machine
end

