-- ==== Sys2Proof/Machine/Package.lean ====
section
/-! DEFINITION. The package and the host (20_package R423-R433, R435, R439-R441, 19 R396, R398): contexts, launch ports, drains
and interrupts, kills, device registers, host accesses, the mailbox and the boot sequence. -/

namespace Sys2Proof.Machine

/-! ### Context descriptors (R427) -/

/-- The address of a descriptor: context 0 has entry 0 of the table. -/
def descriptorAddr (s : State) (c : Nat) : Nat := s.dev.ctxBase.toNat / 4096 * 4096 + 128 * c

/-- The fields that software may change while a context is live. -/
def softFields (b : List Byte) (c : Context) : Context :=
  { c with
    waitThr := fieldAt b 0x24 4
    compat := (fieldAt b 0x28 8).testBit 0
    ckdir := (List.range 8).map (fun m => BitVec.ofNat 64 (fieldAt b (0x40 + 8 * m) 8 % 2 ^ 56)) }

/-- The context that a descriptor describes. -/
def contextOf (b : List Byte) (addr : Nat) : Context :=
  softFields b
    { live := true, root := BitVec.ofNat 64 (fieldAt b 0 8), asid := BitVec.ofNat 64 (fieldAt b 8 8 % 2 ^ 16)
      forkPool := BitVec.ofNat 64 (fieldAt b 0x10 8), trapQ := BitVec.ofNat 64 (fieldAt b 0x18 8), trapQN := fieldAt b 0x20 4
      descAddr := addr }

/-- Whether the descriptor of a context stands in the table: context 0 runs without one until the table is in use (R429). -/
def hasDescriptor (s : State) (c : Context) : Bool := c.live && (s.dev.ctxEn || c.descAddr != 0)

/-- A dispatch round takes the changes of COMPAT, WAITTHR and the directories. -/
def refreshContexts (s : State) : State :=
  { s with ctxs := s.ctxs.map (fun c => if hasDescriptor s c then softFields (s.readPA c.descAddr 128) c else c) }

/-- The round of a die (R390) with the descriptors as they stand. -/
def freshRound (s : State) (die : Nat) : State := dispatchRound (refreshContexts s) die

/-- Whether a round does anything. -/
def roundActs (s t : State) (die : Nat) : Bool :=
  roundPlaces s t die || (List.range s.ctxs.length).any (fun c =>
    (s.ctx c).compat != (t.ctx c).compat || (s.ctx c).waitThr != (t.ctx c).waitThr || (s.ctx c).ckdir != (t.ctx c).ckdir)

/-- DISPATCH_ROUND: the round of a die that can place something or that finds a changed descriptor. -/
def execDispatchRound (s : State) : Host.Outcome State Fault Refusal :=
  match s.target with
  | .die d =>
    let t := freshRound s d
    if d < Config.nDies && (reservable s d).isNone && roundActs s t d then .next t else .refused .notEnabled
  | _ => .refused .notEnabled

/-- A context becomes live, unless the command is refused (R429). -/
def makeLive (s : State) (c : Nat) : State :=
  if !s.dev.ctxEn || (s.ctx c).live then { s with dev := { s.dev with ctxRef := true } }
  else
    let a := descriptorAddr s c
    let s1 := s.updCtx c (fun x => { contextOf (s.readPA a 128) a with job := x.job })
    { s1 with dev := { s1.dev with ctxRef := false } }

/-- Whether anything of a context remains (R429). -/
def contextUsed (s : State) (c : Nat) : Bool :=
  s.waves.any (fun w => w.place.ctx == c && w.run.status != .gone)
    || s.dies.any (fun d => d.queue.any (fun t => t.ctx == c) || d.pipes.any (fun p => p.ctx == c))
    || s.fabric.colls.any (fun x => x.ctx == c && !x.finished) || !(s.ctx c).windows.isEmpty

/-- A context retires, unless the command is refused; one that is not live has nothing to retire. -/
def retireContext (s : State) (c : Nat) : State :=
  if contextUsed s c then { s with dev := { s.dev with ctxRef := true } }
  else
    let s1 := s.updCtx c (fun x => if x.live then {} else x)
    { s1 with
      dev := { s1.dev with ctxRef := false }
      fabric := { s1.fabric with colls := s1.fabric.colls.filter (fun x => x.ctx != c) } }

/-- What the host asks of the device: in recovery only the mailbox answers (R439), so it is ignored. -/
def asked (s t : State) : State := if s.trust.recovery then s else t

def execCtxctlLive (s : State) : Host.Outcome State Fault Refusal :=
  match s.target with
  | .ctx c => if c < Config.nContexts then .next (asked s (makeLive s c)) else .refused .notEnabled
  | _ => .refused .notEnabled
def execCtxctlRetire (s : State) : Host.Outcome State Fault Refusal :=
  match s.target with
  | .ctx c => if c < Config.nContexts then .next (asked s (retireContext s c)) else .refused .notEnabled
  | _ => .refused .notEnabled

/-! ### Launches (R396, R424, R425) -/

def updPortOf (s : State) (c : Nat) (f : Port → Port) : State := s.updCtx c (fun x => { x with port := f x.port })

/-- The outcome of a DOORBELL write. -/
def refuse (s : State) (c : Nat) (refused : Bool) (cause : Nat) : State :=
  updPortOf s c (fun p => { p with refused := refused, refCause := cause })

/-- A DOORBELL write submits RECORD as a host launch (R424). -/
def submitRecord (s : State) (c : Nat) : State :=
  let b := Cells.slice 0 (s.ctx c).port.record 0 64
  let g : Agent := { ctx := c, user := c != 0, core := none, wave := none }
  match settleRaises (recordRaises s g 1 b) with
  | some r => refuse s c true r.cause.code
  | none =>
    let t := recordTask s b c 0 0 (BitVec.ofNat 32 (fieldAt b 0x1C 4)) (okOnes (readyWords s g 1 b))
    if queueFull s t.1 then refuse s c true 0 else refuse (enqueueTask s t.1 t.2) c false 0

/-- DOORBELL; a port exists for each live context (R423). -/
def execDoorbell (s : State) : Host.Outcome State Fault Refusal :=
  match s.target with
  | .ctx c => .next (asked s (if (s.ctx c).live then submitRecord s c else s))
  | _ => .refused .notEnabled

/-- Whether the interrupt ring of a port is configured (R425). -/
def ringConfigured (p : Port) : Bool := p.intRing != 0 && isPow2 p.intSize 16 2048

/-- One user-level interrupt to the target of a port. -/
def sendInterrupt (s : State) (c : Nat) : State :=
  let s1 : State := { s with interrupts := s.interrupts ++ [(s.ctx c).port.intVec] }
  updPortOf s1 c (fun p => { p with pending := 0 })

/-- The pipelines of a launch. -/
def launchPipes (d : Die) (c : Nat) (l : W32) : List Pipe := d.pipes.filter (fun p => p.ctx == c && p.launch == l)

/-- A launch drains when no wave, no record and no open or filled queue of it is left (R396). -/
def launchDrained (s : State) (c : Nat) (l : W32) : Bool :=
  !s.waves.any (fun w => w.place.ctx == c && w.sys.launch == l && w.run.status != .gone)
    && s.dies.all (fun d => !d.queue.any (fun t => t.ctx == c && t.launch == l)
      && (launchPipes d c l).all (fun p => p.queues.all (fun q => q.closed && q.items == 0)))

/-- R398: HEAD, TAIL and CLOSED are written back. -/
def writeBackQueue (s : State) (c : Nat) (q : PipeQueue) : State :=
  privWrite s c (q.addr.toNat + 0x10) (leBytes 4 q.head ++ leBytes 4 q.tail ++ leBytes 8 (if q.closed then 1 else 0))

/-- The pipelines of a launch are unregistered. -/
def unregister (s : State) (c : Nat) (l : W32) : State :=
  let gone := s.dies.flatMap (fun d => launchPipes d c l)
  let s1 := (gone.flatMap (·.queues)).foldl (fun s q => writeBackQueue s c q) s
  { s1 with dies := s1.dies.map (fun d => { d with pipes := d.pipes.filter (fun p => !(p.ctx == c && p.launch == l)) }) }

/-- The interrupt record of a drained launch (R425): written, or dropped on the link; then INTTAIL and the pending count. -/
def writeDrain (s : State) (c : Nat) (l : W32) (killed : Bool) : State :=
  let p := (s.ctx c).port
  let bump (p : Port) : Port := { p with intTail := p.intTail + 1 }
  if !ringConfigured p then updPortOf s c bump
  else
    let pa := p.intRing.toNat + 16 * (p.intTail.toNat % p.intSize)
    let s1 : State := if isHost pa && Config.hostLinkFails (s.fresh * 2 ^ 64 + pa) then
        noteTelemetry s (fun t => { t with hostLinkErrors := t.hostLinkErrors + 1 })
      else s.writePA pa (leBytes 8 (l.toNat + if killed then 2 ^ 32 else 0) ++ leBytes 8 0)
    let s2 := updPortOf s1.nextFresh c (fun p => { bump p with pending := p.pending + 1 })
    if p.window = 0 then sendInterrupt s2 c else s2

/-- The count of pending records that sends an interrupt. -/
def countReached (p : Port) : Bool := p.window != 0 && decide (p.count < p.pending)

/-- LAUNCH_DRAIN. -/
def execLaunchDrain (s : State) : Host.Outcome State Fault Refusal :=
  match s.target with
  | .launch c l => match (s.ctx c).launches.find? (fun x => x.launch == l) with
    | none => .refused .notEnabled
    | some x =>
      if !launchDrained s c l || countReached (s.ctx c).port then .refused .notEnabled
      else
        let s1 := (unregister s c l).updCtx c (fun k => { k with launches := k.launches.filter (fun y => y.launch != l) })
        .next (writeDrain s1 c l x.killed)
  | _ => .refused .notEnabled

/-- INTERRUPT_COUNT_REACHED. -/
def execInterruptCountReached (s : State) : Host.Outcome State Fault Refusal :=
  match s.target with
  | .ctx c => if countReached (s.ctx c).port then .next (sendInterrupt s c) else .refused .notEnabled
  | _ => .refused .notEnabled

/-- INTERRUPT_WINDOW_EXPIRY: WINDOW front-end clocks after the first pending record, which the outside tells (log 9). -/
def execInterruptWindowExpiry (s : State) : Host.Outcome State Fault Refusal :=
  match s.target with
  | .ctx c =>
    if (s.ctx c).port.window != 0 && (s.ctx c).port.pending != 0 then .next (sendInterrupt s c) else .refused .notEnabled
  | _ => .refused .notEnabled

/-! ### Kill (R433, R466) -/

/-- A collective of a killed context ends everywhere. -/
def killColl (s : State) (c : Coll) : State := abortColl (abortOthers s c 1) c.job c.id c.seq 1

/-- The queued work of a killed context is gone: records, and what stands in the queues of its pipelines. -/
def dropWork (s : State) (c : Nat) : State :=
  { s with dies := s.dies.map (fun d => { d with
      queue := d.queue.filter (fun t => t.ctx != c)
      pipes := d.pipes.map (fun p => if p.ctx == c then
          { p with queues := p.queues.map (fun q => { q with closed := true, head := q.tail }) } else p) }) }

/-- CONTEXT_KILLED reaches every live wave of the context; its launches drain with KILLED set. -/
def killContext (s : State) (c : Nat) : State :=
  let s1 := (s.fabric.colls.filter (fun x => x.ctx == c && !x.finished)).foldl killColl s
  let s2 := (dropWork s1 c).updCtx c (fun k => { k with
    windows := [], trapHeld := [], launches := k.launches.map (fun l => { l with killed := true }) })
  ((List.range s2.waves.length).filter (fun i => match s2.wave i with
    | some w => w.place.ctx == c && w.run.status != .retiring && w.run.status != .gone
    | none => false)).foldl killWave s2

/-- KILL: writing 1 kills the context of the port. -/
def execKill (s : State) : Host.Outcome State Fault Refusal :=
  match s.target with
  | .ctxValue c v => .next (asked s (if (s.ctx c).live && v.getLsbD 0 then killContext s c else s))
  | _ => .refused .notEnabled

/-! ### MTSR and WAKE (R430) -/

/-- Action 1: the context of the wave is killed (R433). DEDUCED (log 27). -/
def wakeKillOp (s : State) (x : W64) : State :=
  match (wokenWave s x).bind s.wave with
  | none => s
  | some w => killContext s w.place.ctx

/-- MTSR; a write to WAKE acts on the wave that it names (R430). -/
def execMtsr (p : Pred) (idx : BitVec 8) (a : SReg) (s : State) : Host.Outcome State Fault Refusal :=
  runWord s (fun w =>
    let act := w.active s.slotB p
    let x := w.getS a.toNat
    match sysRegRaise w idx.toNat 2 act with
    | some r => .done s [r]
    | none =>
      if act = 0 then .done s []
      else if idx = 0x81 then
        .done (match x.toNat % 4 with
          | 0 => wakeResumeOp s x
          | 1 => wakeKillOp s x
          | _ => s) []
      else .done (writeSysReg s w idx.toNat x) [])

/-- A write to WAKE (R430): the word is an MTSR, whose value stands in the register of its A field. -/
def wakeWord (s : State) (f : State → W64 → State) : Host.Outcome State Fault Refusal :=
  runWord s (fun w =>
    let act := w.active s.slotB (wordPred s.ir)
    match sysRegRaise w 0x81 2 act with
    | some r => .done s [r]
    | none => if act = 0 then .done s [] else .done (f s (w.getS (s.ir.extractLsb' 21 6).toNat)) [])

def execWakeResume (s : State) : Host.Outcome State Fault Refusal := wakeWord s wakeResumeOp
def execWakeKill (s : State) : Host.Outcome State Fault Refusal := wakeWord s wakeKillOp

/-! ### Device registers (R423, R429) -/

/-- The value of a register after a write of some of its bytes. -/
def mergeBytes (old off n : Nat) (x : W64) : Nat :=
  leNat (((leBytes 8 old).take off ++ leBytes n x.toNat ++ (leBytes 8 old).drop (off + n)).take 8)

/-- A mailbox command is one of R429's. -/
def mailboxKnown (cmd : Nat) : Bool := [1, 2, 3, 4, 5, 0x10, 0x11, 0x12, 0x20, 0x21, 0x22].contains cmd

/-- The write of MBCMD starts a command; an unknown one ends at once. -/
def startMailbox (s : State) (x : Nat) : State :=
  let known := mailboxKnown (bitsOf x 15 0)
  { s with dev := { s.dev with
      mbCmd := bitsOf x 15 0, mbLen := bitsOf x 31 16, mbBusy := known
      mbResult := if known then s.dev.mbResult else if s.trust.recovery then 3 else 1
      mbReply := if known then s.dev.mbReply else 0 } }

/-- The register of a host read or write at an 8-byte aligned offset of the device window: what a read gives (R5, R429).
Reserved and WO fields and offsets not listed read 0, and in recovery only the mailbox answers (R439). -/
def readDevice (s : State) (reg : Nat) : Nat :=
  if s.trust.recovery && decide (reg < 0x100) then 0
  else if reg = 0 then Config.deviceId.toNat
  else if reg = 0x008 then s.dev.ctxBase.toNat + (if s.dev.ctxEn then 1 else 0)
  else if reg = 0x018 then (if s.dev.ctxRef then 1 else 0)
  else if reg = 0x108 then s.dev.mbReply * 2 ^ 16 + s.dev.mbResult * 2 ^ 8 + (if s.dev.mbBusy then 1 else 0)
  else if 0x200 ≤ reg ∧ reg < 0x400 then leNat (Cells.slice 0 s.dev.mbData (reg - 0x200) 8)
  else 0

/-- What a host read of a launch port's register gives (R5, R423); a context that is not live has no port. -/
def readPort (s : State) (c reg : Nat) : Nat :=
  let p := (s.ctx c).port
  if !(s.ctx c).live then 0
  else if reg = 0x48 then p.refCause * 2 ^ 16 + (if p.refused then 1 else 0)
  else if reg = 0x50 then p.window * 2 ^ 16 + p.count
  else if reg = 0x58 then p.intRing.toNat
  else if reg = 0x60 then p.intSize * 2 ^ 32 + p.intVec.toNat
  else if reg = 0x68 then p.intTail.toNat
  else 0

/-- What a naturally aligned read of `n` bytes by the host gives, at an offset of the CXL.io window. A read changes nothing
(no register is cleared by a read). -/
def registerRead (s : State) (off n : Nat) : Nat :=
  let reg := off / 8 * 8
  let v := if off < 0x1000 then readDevice s reg
    else if 0x10_0000 ≤ off ∧ off < 0x20_0000 ∧ !s.trust.recovery then readPort s ((off - 0x10_0000) / 0x1000) (reg % 0x1000)
    else 0
  v / 256 ^ (off % 8) % 256 ^ n

/-- A write to the device registers below the ports. MBLEN alone may be written; the write of MBCMD starts a command. -/
def deviceWrite (s : State) (off n : Nat) (x : W64) : State :=
  let reg := off / 8 * 8
  let b := off % 8
  if s.trust.recovery && decide (reg < 0x100) then s
  else if reg = 0x008 then
    let v := BitVec.ofNat 64 (mergeBytes ((s.dev.ctxBase).toNat + if s.dev.ctxEn then 1 else 0) b n x)
    let base : W64 := if s.dev.ctxEn then s.dev.ctxBase else v &&& 0x000F_FFFF_FFFF_F000#64
    let s1 : State := { s with dev := { s.dev with ctxBase := base, ctxEn := v.getLsbD 0 } }
    s1.updCtx 0 (fun c => if c.live then { c with descAddr := base.toNat } else c)
  else if reg = 0x010 then
    let v := mergeBytes 0 b n x
    if v.testBit 8 then makeLive s (v % 256) else retireContext s (v % 256)
  else if reg = 0x018 then
    if (mergeBytes 0 b n x).testBit 0 then { s with dev := { s.dev with ctxRef := false } } else s
  else if reg = 0x100 then
    let v := mergeBytes (s.dev.mbLen * 2 ^ 16 + s.dev.mbCmd) b n x
    if s.dev.mbBusy then s
    else if b < 2 then startMailbox s v
    else { s with dev := { s.dev with mbLen := bitsOf v 31 16 } }
  else if 0x200 ≤ off ∧ off < 0x400 then
    if s.dev.mbBusy then s
    else { s with dev := { s.dev with mbData := Cells.fill 0 s.dev.mbData (off - 0x200) (leBytes n x.toNat) } }
  else s

/-- A write to a launch port. -/
def portWrite (s : State) (c off n : Nat) (x : W64) : State :=
  let p := (s.ctx c).port
  let reg := off / 8 * 8
  let b := off % 8
  if !(s.ctx c).live then s
  else if off < 0x40 then updPortOf s c (fun p => { p with record := Cells.fill 0 p.record off (leBytes n x.toNat) })
  else if reg = 0x40 then submitRecord s c
  else if reg = 0x48 then
    if (mergeBytes 0 b n x).testBit 0 then refuse s c false 0 else s
  else if reg = 0x50 then
    let v := mergeBytes (p.window * 2 ^ 16 + p.count) b n x
    updPortOf s c (fun p => { p with window := bitsOf v 47 16, count := bitsOf v 5 0 })
  else if reg = 0x58 then updPortOf s c (fun p => { p with intRing := BitVec.ofNat 64 (mergeBytes p.intRing.toNat b n x) })
  else if reg = 0x60 then
    let v := mergeBytes (p.intSize * 2 ^ 32 + p.intVec.toNat) b n x
    updPortOf s c (fun p => { p with intSize := bitsOf v 43 32, intVec := BitVec.ofNat 32 v })
  else if reg = 0x70 then if (mergeBytes 0 b n x).testBit 0 then killContext s c else s
  else s

/-- REGISTER_WRITE: a naturally aligned write of the host to the CXL.io window; other offsets ignore it. -/
def execRegisterWrite (s : State) : Host.Outcome State Fault Refusal :=
  match s.target with
  | .register off n x =>
    if !([1, 2, 4, 8].contains n) || off % n != 0 then .refused .notEnabled
    else if s.trust.recovery && 0x10_0000 ≤ off then .next s
    else if off < 0x1000 then .next (deviceWrite s off n x)
    else if 0x10_0000 ≤ off ∧ off < 0x20_0000 then .next (portWrite s ((off - 0x10_0000) / 0x1000) (off % 0x1000) n x)
    else .next s
  | _ => .refused .notEnabled

/-- HOST_ACCESS (R435): a naturally aligned access of the host to device memory, or to its own (log 47). -/
def execHostAccess (s : State) : Host.Outcome State Fault Refusal :=
  match s.target with
  | .memory pa n write x =>
    if !([1, 2, 4, 8].contains n) || pa % n != 0 || !inMap pa then .refused .notEnabled
    else if write then .next (asked s (s.writePA pa (leBytes n x.toNat)))
    else .next s
  | _ => .refused .notEnabled

/-! ### The mailbox (R429, R439-R441, R447, R448, R450) -/

/-- What a command answers: its result, its reply, its effect. -/
structure Answer where
  result : Nat
  reply : List Byte := []
  state : State
  deriving Repr

/-- Ends the command that runs. -/
def endMailbox (a : Answer) : State :=
  let s := a.state
  { s with dev := { s.dev with
      mbBusy := false, mbResult := a.result, mbReply := a.reply.length
      mbData := if a.reply.isEmpty then s.dev.mbData else Cells.fill 0 s.dev.mbData 0 a.reply } }

/-- The payload, and whether a byte that is not listed is not 0. -/
def payload (s : State) : List Byte := Cells.slice 0 s.dev.mbData 0 (min 512 s.dev.mbLen) ++ List.replicate (512 - s.dev.mbLen) 0
def payloadBad (s : State) (listed : List (Nat × Nat)) : Bool :=
  decide (512 < s.dev.mbLen) || ((payload s).mapIdx (fun k b => (k, b))).any (fun e =>
    e.2 != 0 && !listed.any (fun r => decide (r.1 ≤ e.1) && decide (e.1 < r.1 + r.2)))

/-- Runs a command: `inRecovery` says whether it runs in recovery too. -/
def mailbox (s : State) (cmd : Nat) (sel : List Byte → Bool) (listed : List (Nat × Nat)) (inRecovery : List Byte → Bool)
    (f : State → List Byte → Answer) : Host.Outcome State Fault Refusal :=
  let b := payload s
  if !s.dev.mbBusy || s.dev.mbCmd != cmd || !sel b then .refused .notEnabled
  else if s.trust.recovery && !inRecovery b then .next (endMailbox { result := 3, state := s })
  else if payloadBad s listed then .next (endMailbox { result := 2, state := s })
  else .next (endMailbox (f s b))

def always (_ : List Byte) : Bool := true
def never (_ : List Byte) : Bool := false

/-- SETNODE. -/
def execSetnode (s : State) : Host.Outcome State Fault Refusal :=
  mailbox s 1 always [(0, 2)] never (fun s b =>
    let n := fieldAt b 0 2
    if 0xFFE < n then { result := 2, state := s }
    else if s.ctxs.any (fun c => c.job.isSome) then { result := 3, state := s }
    else { result := 0, state := { s with fabric := { s.fabric with node := n } } })

/-- SETROUTE. -/
def execSetroute (s : State) : Host.Outcome State Fault Refusal :=
  mailbox s 2 always [(0, 2), (4, 4)] never (fun s b =>
    let n := fieldAt b 0 2
    if 0xFFE < n then { result := 2, state := s }
    else { result := 0, state := { s with fabric := { s.fabric with routes := Cells.set 0 s.fabric.routes n (fieldAt b 4 4) } } })

/-- BINDJOB that binds. -/
def execBindjobBind (s : State) : Host.Outcome State Fault Refusal :=
  mailbox s 3 (fun b => fieldAt b 4 4 != 0) [(0, 1), (2, 2), (4, 4)] never (fun s b =>
    let c := fieldAt b 0 1
    let job := BitVec.ofNat 16 (fieldAt b 2 2)
    if fieldAt b 4 4 ≠ 1 then { result := 2, state := s }
    else if s.fabric.node = 0xFFF || (s.ctx c).job.isSome || s.ctxs.any (fun x => x.job == some job) then
      { result := 3, state := s }
    else { result := 0, state := s.updCtx c (fun x => { x with job := some job }) })

/-- BINDJOB that unbinds: what the node kept for the job is gone with it (R461, R466). -/
def execBindjobUnbind (s : State) : Host.Outcome State Fault Refusal :=
  mailbox s 3 (fun b => fieldAt b 4 4 == 0) [(0, 1), (2, 2), (4, 4)] never (fun s b =>
    let c := fieldAt b 0 1
    let job := BitVec.ofNat 16 (fieldAt b 2 2)
    if (s.ctx c).job != some job then { result := 0, state := s }
    else
      let s1 := s.updCtx c (fun x => { x with job := none })
      { result := 0, state := { s1 with fabric := { s1.fabric with
          latest := s1.fabric.latest.filter (fun e => e.1 != job)
          aborted := s1.fabric.aborted.filter (fun e => e.1 != job)
          early := s1.fabric.early.filter (fun p => p.job != job) } } })

/-- EXPORT (R450). -/
def execWindowExport (s : State) : Host.Outcome State Fault Refusal :=
  mailbox s 4 always [(0, 2), (8, 32)] never (fun s b =>
    let c := fieldAt b 0 1
    let x : FabWindow := { num := fieldAt b 1 1, base := BitVec.ofNat 64 (fieldAt b 8 8), length := fieldAt b 0x10 8
                           flags := fieldAt b 0x18 4 }
    if x.base.toNat % 64 ≠ 0 || x.length % 64 ≠ 0 || 2 ^ 44 < x.length || 8 ≤ x.flags || fieldAt b 0x1C 12 ≠ 0 then
      { result := 2, state := s }
    else if !(s.ctx c).live || (s.ctx c).windows.any (fun y => y.num == x.num) then { result := 3, state := s }
    else { result := 0, state := s.updCtx c (fun k => { k with windows := k.windows ++ [x] }) })

/-- UNEXPORT. -/
def execWindowUnexport (s : State) : Host.Outcome State Fault Refusal :=
  mailbox s 5 always [(0, 2)] never (fun s b =>
    { result := 0, state := s.updCtx (fieldAt b 0 1) (fun k => { k with
        windows := k.windows.filter (fun y => y.num != fieldAt b 1 1) }) })

/-- A measurement extends a register (R439). -/
def extendMr (s : State) (k : Nat) (digest : List Byte) : State :=
  { s with trust := { s.trust with mr := updAt s.trust.mr k (fun m => sha256 (m ++ digest)) } }

/-- EXTENDMR. -/
def execExtendmr (s : State) : Host.Outcome State Fault Refusal :=
  mailbox s 0x10 always [(0, 1), (8, 32)] never (fun s b =>
    let k := fieldAt b 0 1
    if k < 5 || 7 < k then { result := 2, state := s } else { result := 0, state := extendMr s k ((b.drop 8).take 32) })

/-- The bytes of a report that are signed (R440). -/
def reportBody (s : State) (nonce : List Byte) : List Byte :=
  leBytes 4 1 ++ leBytes 4 0 ++ nonce ++ s.trust.mr.flatten ++ leBytes 8 Config.deviceId.toNat
    ++ s.trust.svn.flatMap (fun x => leBytes 4 x.toNat) ++ List.replicate 60 0

/-- ATTEST. -/
def execAttest (s : State) : Host.Outcome State Fault Refusal :=
  mailbox s 0x11 always [(0, 32)] always (fun s b =>
    let body := reportBody s (b.take 32)
    let sig := Config.identitySignature (sha256 body)
    { result := 0, reply := body ++ (sig ++ List.replicate 64 0).take 64, state := s })

/-- The register of a port (R447). -/
def portRegister (p : FabPort) : Nat :=
  p.crcRetry * 2 ^ 24 + p.peerPort * 2 ^ 16 + p.peerNode * 2 ^ 4 + (if p.spared then 8 else 0) + p.width * 2 + (if p.up then 1 else 0)

/-- READPORT. -/
def execReadport (s : State) : Host.Outcome State Fault Refusal :=
  mailbox s 0x12 always [(0, 1)] always (fun s b => match s.fabric.ports[fieldAt b 0 1]? with
    | none => { result := 2, state := s }
    | some p => { result := 0, reply := leBytes 8 (portRegister p), state := s })

/-- Boot stages 1 to 5. -/
def stageOk (k : Nat) : Bool := decide (1 ≤ k) && decide (k ≤ 5)
def fusedOf (s : State) (k : Nat) : BitVec 32 := s.trust.fused.getD (k - 1) 0

/-- FWSTAGE: an image is staged once it has been verified. -/
def execFwstage (s : State) : Host.Outcome State Fault Refusal :=
  mailbox s 0x20 always [(0, 1), (8, 16)] (fun b => fieldAt b 0 1 == 1) (fun s b =>
    let k := fieldAt b 0 1
    let pa := fieldAt b 8 8
    let n := fieldAt b 0x10 8
    if !stageOk k || n = 0 || !inMap pa || !inMap (pa + n - 1) then { result := 2, state := s }
    else
      let image := s.readPA pa n
      if !Config.imageVerifies image || (Config.imageSvn image).toNat < (fusedOf s k).toNat then { result := 4, state := s }
      else { result := 0, state := { s with trust := { s.trust with
          staged := s.trust.staged.filter (fun e => e.1 != k) ++ [(k, image)] } } })

/-- A verified image of a stage starts: it is measured, and its SVN is the stage's (R439). -/
def startStageImage (s : State) (k : Nat) (digest : List Byte) (svn : BitVec 32) : State :=
  let s1 := extendMr s (k - 1) digest
  { s1 with trust := { s1.trust with svn := updAt s1.trust.svn (k - 1) (fun _ => svn) } }

/-- Whether FWACTIVATE begins an update of the Theique, which pauses telemetry and sparing (R441). -/
def beginsPause (s : State) : Bool :=
  s.dev.mbBusy && s.dev.mbCmd == 0x21 && !payloadBad s [(0, 1)] && fieldAt (payload s) 0 1 == 1
    && s.trust.staged.any (fun e => e.1 == 1) && !s.trust.paused

/-- FWACTIVATE (R441). The Owl firmware is replaced one cluster at a time, cluster 0 first. An update of the Theique takes two
steps of this row: the pause begins, and the new image runs (log 74). -/
def execFwactivate (s : State) : Host.Outcome State Fault Refusal :=
  if beginsPause s then .next { s with trust := { s.trust with paused := true } }
  else mailbox s 0x21 always [(0, 1)] (fun b => fieldAt b 0 1 == 1) (fun s b =>
    let k := fieldAt b 0 1
    if !stageOk k then { result := 2, state := s }
    else match s.trust.staged.find? (fun e => e.1 == k) with
      | none => { result := 3, state := s }
      | some (_, image) =>
        if k = 3 && s.clusters.any (·.owlPaused) then { result := 3, state := s }
        else
          let s1 := startStageImage s k (Config.imageDigest image) (Config.imageSvn image)
          let s2 : State := { s1 with trust := { s1.trust with
            staged := s1.trust.staged.filter (fun e => e.1 != k)
            paused := s1.trust.paused && k != 1
            updating := if k = 3 then (List.range 31).map (fun c => (c + 1, true)) else s1.trust.updating } }
          { result := 0, state := if k = 3 then s2.updCluster 0 (fun c => { c with owlPaused := true }) else s2 })

/-- RAISESVN: a signed command raises the fused minimum of a stage. -/
def execRaisesvn (s : State) : Host.Outcome State Fault Refusal :=
  mailbox s 0x22 always [(0, 1), (4, 4), (8, 64)] never (fun s b =>
    let k := fieldAt b 0 1
    let x := BitVec.ofNat 32 (fieldAt b 4 4)
    let digest := sha256 (b.take 8 ++ leBytes 8 Config.deviceId.toNat)
    if !stageOk k then { result := 2, state := s }
    else if !Config.firmwareKeySigns digest ((b.drop 8).take 64) then { result := 4, state := s }
    else if x.toNat < (fusedOf s k).toNat then { result := 3, state := s }
    else { result := 0, state := { s with trust := { s.trust with fused := updAt s.trust.fused (k - 1) (fun _ => x) } } })

/-- OWL_FIRMWARE_REPLACED (R441): the Owl of a cluster reads records again, and the next cluster's is replaced. -/
def execOwlFirmwareReplaced (s : State) : Host.Outcome State Fault Refusal :=
  match s.target with
  | .cluster c =>
    if !(s.cluster c).owlPaused then .refused .notEnabled
    else
      let s1 := s.updCluster c (fun k => { k with owlPaused := false })
      .next (match s1.trust.updating with
        | [] => s1
        | (n, _) :: rest =>
          let s2 : State := { s1 with trust := { s1.trust with updating := rest } }
          s2.updCluster n (fun k => { k with owlPaused := true }))
  | _ => .refused .notEnabled

/-! ### Boot (R439) -/

/-- Whether the image of a stage may start. -/
def bootStageOk (s : State) (k : Nat) : Bool := Config.bootImageOk k && decide ((fusedOf s k).toNat ≤ (Config.bootImageSvn k).toNat)

/-- The stages in order, up to the first image that may not start. -/
def bootStages : Nat → State → Nat → State × Bool
  | 0, s, _ => (s, true)
  | n + 1, s, k =>
    if bootStageOk s k then bootStages n (startStageImage s k (Config.bootImageDigest k) (Config.bootImageSvn k)) (k + 1)
    else (s, false)

/-- Context 0 as the boot sequence makes it live (R429). -/
def bootContext : Context :=
  { contextOf ((List.range 16).flatMap (fun k => leBytes 8 (Config.systemDescriptor (8 * k)).toNat)) 0 with root := Config.systemRoot }

/-- RESET_BOOT: the device is booted, or stays in recovery. -/
def execResetBoot (s : State) : Host.Outcome State Fault Refusal :=
  if s.trust.booted || s.trust.recovery then .refused .notEnabled
  else
    let r := bootStages 5 s 1
    if r.2 then
      let s1 : State := { r.1 with trust := { r.1.trust with booted := true } }
      .next (s1.updCtx 0 (fun _ => bootContext))
    else .next { r.1 with trust := { r.1.trust with recovery := true } }

end Sys2Proof.Machine
end

