-- ==== Sys2Proof/Machine/Dispatch.lean ====
section
/-! DEFINITION. The meaning of every instruction and event: one arm for each row of spec/opcode_table.json. -/

namespace Sys2Proof.Machine

def exec (i : Instr) (s : State) : Host.Outcome State Fault Refusal :=
  match i with
  | .smov o => Sys2Proof.Machine.execSmov o s
  | .sli o => Sys2Proof.Machine.execSli o s
  | .slix o => Sys2Proof.Machine.execSlix o s
  | .sadd o => Sys2Proof.Machine.execSadd o s
  | .ssub o => Sys2Proof.Machine.execSsub o s
  | .smul o => Sys2Proof.Machine.execSmul o s
  | .smulI o => Sys2Proof.Machine.execSmulI o s
  | .smulh o => Sys2Proof.Machine.execSmulh o s
  | .sdiv o => Sys2Proof.Machine.execSdiv o s
  | .srem o => Sys2Proof.Machine.execSrem o s
  | .sand o => Sys2Proof.Machine.execSand o s
  | .sandI o => Sys2Proof.Machine.execSandI o s
  | .sor o => Sys2Proof.Machine.execSor o s
  | .sorI o => Sys2Proof.Machine.execSorI o s
  | .sxor o => Sys2Proof.Machine.execSxor o s
  | .sxorI o => Sys2Proof.Machine.execSxorI o s
  | .sshl o => Sys2Proof.Machine.execSshl o s
  | .sshlI o => Sys2Proof.Machine.execSshlI o s
  | .sshr o => Sys2Proof.Machine.execSshr o s
  | .sshrI o => Sys2Proof.Machine.execSshrI o s
  | .ssra o => Sys2Proof.Machine.execSsra o s
  | .ssraI o => Sys2Proof.Machine.execSsraI o s
  | .smin o => Sys2Proof.Machine.execSmin o s
  | .sminI o => Sys2Proof.Machine.execSminI o s
  | .smax o => Sys2Proof.Machine.execSmax o s
  | .smaxI o => Sys2Proof.Machine.execSmaxI o s
  | .scmp o => Sys2Proof.Machine.execScmp o s
  | .scmpI o => Sys2Proof.Machine.execScmpI o s
  | .ssel o => Sys2Proof.Machine.execSsel o s
  | .spopc o => Sys2Proof.Machine.execSpopc o s
  | .sclz o => Sys2Proof.Machine.execSclz o s
  | .saddi o => Sys2Proof.Machine.execSaddi o s
  | .mfsr p d idx => Sys2Proof.Machine.execMfsr p d idx s
  | .mtsr p idx a => Sys2Proof.Machine.execMtsr p idx a s
  | .srdv p d va sb => Sys2Proof.Machine.execSrdv p d va sb s
  | .srdvI p d va n => Sys2Proof.Machine.execSrdvI p d va n s
  | .swrv p vd sa sb => Sys2Proof.Machine.execSwrv p vd sa sb s
  | .swrvI p vd sa n => Sys2Proof.Machine.execSwrvI p vd sa n s
  | .mtm p md sa => Sys2Proof.Machine.execMtm p md sa s
  | .mfm p d ma => Sys2Proof.Machine.execMfm p d ma s
  | .mand o => Sys2Proof.Machine.execMand o s
  | .mor o => Sys2Proof.Machine.execMor o s
  | .mxor o => Sys2Proof.Machine.execMxor o s
  | .mnot p md ma => Sys2Proof.Machine.execMnot p md ma s
  | .mcnt p d ma => Sys2Proof.Machine.execMcnt p d ma s
  | .vmov o => Sys2Proof.Machine.execVmov o s
  | .vli p t d imm => Sys2Proof.Machine.execVli p t d imm s
  | .vadd o => Sys2Proof.Machine.execVadd o s
  | .vaddI o => Sys2Proof.Machine.execVaddI o s
  | .vsub o => Sys2Proof.Machine.execVsub o s
  | .vsubI o => Sys2Proof.Machine.execVsubI o s
  | .vmul o => Sys2Proof.Machine.execVmul o s
  | .vmulI o => Sys2Proof.Machine.execVmulI o s
  | .vmulh o => Sys2Proof.Machine.execVmulh o s
  | .vmad o => Sys2Proof.Machine.execVmad o s
  | .vmin o => Sys2Proof.Machine.execVmin o s
  | .vminI o => Sys2Proof.Machine.execVminI o s
  | .vmax o => Sys2Proof.Machine.execVmax o s
  | .vmaxI o => Sys2Proof.Machine.execVmaxI o s
  | .vabsd o => Sys2Proof.Machine.execVabsd o s
  | .vand o => Sys2Proof.Machine.execVand o s
  | .vandI o => Sys2Proof.Machine.execVandI o s
  | .vor o => Sys2Proof.Machine.execVor o s
  | .vorI o => Sys2Proof.Machine.execVorI o s
  | .vxor o => Sys2Proof.Machine.execVxor o s
  | .vxorI o => Sys2Proof.Machine.execVxorI o s
  | .vshl o => Sys2Proof.Machine.execVshl o s
  | .vshlI o => Sys2Proof.Machine.execVshlI o s
  | .vshr o => Sys2Proof.Machine.execVshr o s
  | .vshrI o => Sys2Proof.Machine.execVshrI o s
  | .vsra o => Sys2Proof.Machine.execVsra o s
  | .vsraI o => Sys2Proof.Machine.execVsraI o s
  | .vpopc o => Sys2Proof.Machine.execVpopc o s
  | .vclz o => Sys2Proof.Machine.execVclz o s
  | .vcmp o => Sys2Proof.Machine.execVcmp o s
  | .vcmpI o => Sys2Proof.Machine.execVcmpI o s
  | .vsel o => Sys2Proof.Machine.execVsel o s
  | .vadds o => Sys2Proof.Machine.execVadds o s
  | .vaddsI o => Sys2Proof.Machine.execVaddsI o s
  | .vsubs o => Sys2Proof.Machine.execVsubs o s
  | .vsubsI o => Sys2Proof.Machine.execVsubsI o s
  | .vdot4 o => Sys2Proof.Machine.execVdot4 o s
  | .vbfx o => Sys2Proof.Machine.execVbfx o s
  | .vbfi o => Sys2Proof.Machine.execVbfi o s
  | .vlane p d => Sys2Proof.Machine.execVlane p d s
  | .vfadd o => Sys2Proof.Machine.execVfadd o s
  | .vfaddI o => Sys2Proof.Machine.execVfaddI o s
  | .vfsub o => Sys2Proof.Machine.execVfsub o s
  | .vfsubI o => Sys2Proof.Machine.execVfsubI o s
  | .vfmul o => Sys2Proof.Machine.execVfmul o s
  | .vfmulI o => Sys2Proof.Machine.execVfmulI o s
  | .vfma o => Sys2Proof.Machine.execVfma o s
  | .vfmin o => Sys2Proof.Machine.execVfmin o s
  | .vfminI o => Sys2Proof.Machine.execVfminI o s
  | .vfmax o => Sys2Proof.Machine.execVfmax o s
  | .vfmaxI o => Sys2Proof.Machine.execVfmaxI o s
  | .vfcmp o => Sys2Proof.Machine.execVfcmp o s
  | .vfcmpI o => Sys2Proof.Machine.execVfcmpI o s
  | .vfcls o => Sys2Proof.Machine.execVfcls o s
  | .vfrnd o rm => Sys2Proof.Machine.execVfrnd o rm s
  | .vadd2 o => Sys2Proof.Machine.execVadd2 o s
  | .vfma2 o => Sys2Proof.Machine.execVfma2 o s
  | .vrcp o => Sys2Proof.Machine.execVrcp o s
  | .vrsq o => Sys2Proof.Machine.execVrsq o s
  | .vsqrt o => Sys2Proof.Machine.execVsqrt o s
  | .vexp2 o => Sys2Proof.Machine.execVexp2 o s
  | .vlog2 o => Sys2Proof.Machine.execVlog2 o s
  | .vtanh o => Sys2Proof.Machine.execVtanh o s
  | .vsigm o => Sys2Proof.Machine.execVsigm o s
  | .vsinpi o => Sys2Proof.Machine.execVsinpi o s
  | .vcospi o => Sys2Proof.Machine.execVcospi o s
  | .vcvt o => Sys2Proof.Machine.execVcvt o s
  | .vcvq4 p d a sb => Sys2Proof.Machine.execVcvq4 p d a sb s
  | .vdq4 p d a sb => Sys2Proof.Machine.execVdq4 p d a sb s
  | .vscl o => Sys2Proof.Machine.execVscl o s
  | .vsclI p t d a code => Sys2Proof.Machine.execVsclI p t d a code s
  | .vgscl p d a => Sys2Proof.Machine.execVgscl p d a s
  | .vfdot2 o => Sys2Proof.Machine.execVfdot2 o s
  | .vdot16 p d a b => Sys2Proof.Machine.execVdot16 p d a b s
  | .vrope3 p la d a => Sys2Proof.Machine.execVrope3 p la d a s
  | .vshuf o => Sys2Proof.Machine.execVshuf o s
  | .vbcast o => Sys2Proof.Machine.execVbcast o s
  | .vbcastI o => Sys2Proof.Machine.execVbcastI o s
  | .vrot o => Sys2Proof.Machine.execVrot o s
  | .vrotI o => Sys2Proof.Machine.execVrotI o s
  | .vred o => Sys2Proof.Machine.execVred o s
  | .vscan o => Sys2Proof.Machine.execVscan o s
  | .vsegred o => Sys2Proof.Machine.execVsegred o s
  | .vsegscan o => Sys2Proof.Machine.execVsegscan o s
  | .vconfl p t md a => Sys2Proof.Machine.execVconfl p t md a s
  | .vdupadd p t d a b => Sys2Proof.Machine.execVdupadd p t d a b s
  | .vbal p idx md a b => Sys2Proof.Machine.execVbal p idx md a b s
  | .visect p t d a b => Sys2Proof.Machine.execVisect p t d a b s
  | .vmrg p uns hi idx d a b => Sys2Proof.Machine.execVmrg p uns hi idx d a b s
  | .vcmpr p d a mb => Sys2Proof.Machine.execVcmpr p d a mb s
  | .vexpd p d a mb => Sys2Proof.Machine.execVexpd p d a mb s
  | .vballot p md a => Sys2Proof.Machine.execVballot p md a s
  | .vany p all md a => Sys2Proof.Machine.execVany p all md a s
  | .kvslot p la d a sb md => Sys2Proof.Machine.execKvslot p la d a sb md s
  | .vtriple p la d a n => Sys2Proof.Machine.execVtriple p la d a n s
  | .tokroute p la d a sb => Sys2Proof.Machine.execTokroute p la d a sb s
  | .vld o => Sys2Proof.Machine.execVld o s
  | .vldI o => Sys2Proof.Machine.execVldI o s
  | .vst o => Sys2Proof.Machine.execVst o s
  | .vstI o => Sys2Proof.Machine.execVstI o s
  | .vldb o => Sys2Proof.Machine.execVldb o s
  | .vldbI o => Sys2Proof.Machine.execVldbI o s
  | .vstb o => Sys2Proof.Machine.execVstb o s
  | .vstbI o => Sys2Proof.Machine.execVstbI o s
  | .sld o => Sys2Proof.Machine.execSld o s
  | .sldI o => Sys2Proof.Machine.execSldI o s
  | .sst o => Sys2Proof.Machine.execSst o s
  | .sstI o => Sys2Proof.Machine.execSstI o s
  | .vlds o => Sys2Proof.Machine.execVlds o s
  | .vldsI o => Sys2Proof.Machine.execVldsI o s
  | .vsts o => Sys2Proof.Machine.execVsts o s
  | .vstsI o => Sys2Proof.Machine.execVstsI o s
  | .vldq o => Sys2Proof.Machine.execVldq o s
  | .vldqI o => Sys2Proof.Machine.execVldqI o s
  | .vstq o a16 => Sys2Proof.Machine.execVstq o a16 s
  | .vstqI o a16 => Sys2Proof.Machine.execVstqI o a16 s
  | .splk p d a => Sys2Proof.Machine.execSplk p d a s
  | .sptag p a b => Sys2Proof.Machine.execSptag p a b s
  | .sptagInv p a => Sys2Proof.Machine.execSptagInv p a s
  | .vatom o op => Sys2Proof.Machine.execVatom o op s
  | .satom o op => Sys2Proof.Machine.execSatom o op s
  | .vatoms o op => Sys2Proof.Machine.execVatoms o op s
  | .vcas o => Sys2Proof.Machine.execVcas o s
  | .scas o => Sys2Proof.Machine.execScas o s
  | .lfull o => Sys2Proof.Machine.execLfull o s
  | .lfullTake o => Sys2Proof.Machine.execLfullTake o s
  | .sfull o => Sys2Proof.Machine.execSfull o s
  | .sfullNb o md => Sys2Proof.Machine.execSfullNb o md s
  | .fempty o => Sys2Proof.Machine.execFempty o s
  | .fence p kind scope eng => Sys2Proof.Machine.execFence p kind scope eng s
  | .txbegin p dist cl => Sys2Proof.Machine.execTxbegin p dist cl s
  | .forkpg p la d a b => Sys2Proof.Machine.execForkpg p la d a b s
  | .movtc p la td sa => Sys2Proof.Machine.execMovtc p la td sa s
  | .movftc p la d ta => Sys2Proof.Machine.execMovftc p la d ta s
  | .tld p la td sa => Sys2Proof.Machine.execTld p la td sa s
  | .tst p la sa tb => Sys2Proof.Machine.execTst p la sa tb s
  | .tzero p la td => Sys2Proof.Machine.execTzero p la td s
  | .tldv p la td va sb => Sys2Proof.Machine.execTldv p la td va sb s
  | .mma o => Sys2Proof.Machine.execMma o s
  | .mbin o op => Sys2Proof.Machine.execMbin o op s
  | .mrule p la epi slotNo sa sb => Sys2Proof.Machine.execMrule p la epi slotNo sa sb s
  | .mrec o ac tb => Sys2Proof.Machine.execMrec o ac tb s
  | .mbwd o ah => Sys2Proof.Machine.execMbwd o ah s
  | .mepi p la ad af sc => Sys2Proof.Machine.execMepi p la ad af sc s
  | .azero p la ad => Sys2Proof.Machine.execAzero p la ad s
  | .ald p la sp ad sa sb => Sys2Proof.Machine.execAld p la sp ad sa sb s
  | .ast p la sp sa af sb => Sys2Proof.Machine.execAst p la sp sa af sb s
  | .amov p la ad af => Sys2Proof.Machine.execAmov p la ad af s
  | .acalloc p la d sa => Sys2Proof.Machine.execAcalloc p la d sa s
  | .acallocNb p la d sa => Sys2Proof.Machine.execAcallocNb p la d sa s
  | .acfree p la sa => Sys2Proof.Machine.execAcfree p la sa s
  | .eld p la sp ed sa => Sys2Proof.Machine.execEld p la sp ed sa s
  | .est p la sp sa eb => Sys2Proof.Machine.execEst p la sp sa eb s
  | .stexp p la vd sa sb => Sys2Proof.Machine.execStexp p la vd sa sb s
  | .stimp p la vd sa sb => Sys2Proof.Machine.execStimp p la vd sa sb s
  | .cpy o out => Sys2Proof.Machine.execCpy o out s
  | .cgath o fmt => Sys2Proof.Machine.execCgath o fmt s
  | .cscat o fmt => Sys2Proof.Machine.execCscat o fmt s
  | .cexp o fmt => Sys2Proof.Machine.execCexp o fmt s
  | .cpack o fmt => Sys2Proof.Machine.execCpack o fmt s
  | .cpost p la sa => Sys2Proof.Machine.execCpost p la sa s
  | .cpostBind p la sa => Sys2Proof.Machine.execCpostBind p la sa s
  | .waittkReg p sa => Sys2Proof.Machine.execWaittkReg p sa s
  | .tkintReg p group sa => Sys2Proof.Machine.execTkintReg p group sa s
  | .chain p la sa sb => Sys2Proof.Machine.execChain p la sa sb s
  | .chwait p sa sb => Sys2Proof.Machine.execChwait p sa sb s
  | .gjoin p d sa => Sys2Proof.Machine.execGjoin p d sa s
  | .gbarRole p sa => Sys2Proof.Machine.execGbarRole p sa s
  | .gbarRoleI p role => Sys2Proof.Machine.execGbarRoleI p role s
  | .gbarRows p sa => Sys2Proof.Machine.execGbarRows p sa s
  | .gbarRowsI p n => Sys2Proof.Machine.execGbarRowsI p n s
  | .vsync p va => Sys2Proof.Machine.execVsync p va s
  | .gelect p md sa => Sys2Proof.Machine.execGelect p md sa s
  | .gelectI p md role => Sys2Proof.Machine.execGelectI p md role s
  | .spawn p la sa => Sys2Proof.Machine.execSpawn p la sa s
  | .spawnPipe p la sa => Sys2Proof.Machine.execSpawnPipe p la sa s
  | .qpush p la sa sb => Sys2Proof.Machine.execQpush p la sa sb s
  | .qpushClose p la sa => Sys2Proof.Machine.execQpushClose p la sa s
  | .qpop p la d md sa => Sys2Proof.Machine.execQpop p la d md sa s
  | .tmerge p la d sa => Sys2Proof.Machine.execTmerge p la d sa s
  | .tunmerge p la sa => Sys2Proof.Machine.execTunmerge p la sa s
  | .swmv p la d sa => Sys2Proof.Machine.execSwmv p la d sa s
  | .swmig p la d sa sb => Sys2Proof.Machine.execSwmig p la d sa sb s
  | .swage p la sa => Sys2Proof.Machine.execSwage p la sa s
  | .xput p la tok sa => Sys2Proof.Machine.execXput p la tok sa s
  | .xgetB64 p la d sa => Sys2Proof.Machine.execXgetB64 p la d sa s
  | .xgetBlk p la sa => Sys2Proof.Machine.execXgetBlk p la sa s
  | .xsig p la op tok sa sb => Sys2Proof.Machine.execXsig p la op tok sa sb s
  | .xcoll p la sa => Sys2Proof.Machine.execXcoll p la sa s
  | .xwait p sa => Sys2Proof.Machine.execXwait p sa s
  | .br p dist off => Sys2Proof.Machine.execBr p dist off s
  | .bru p off => Sys2Proof.Machine.execBru p off s
  | .jmp p off => Sys2Proof.Machine.execJmp p off s
  | .jmpReg p sa => Sys2Proof.Machine.execJmpReg p sa s
  | .call p d off => Sys2Proof.Machine.execCall p d off s
  | .callReg p d sa => Sys2Proof.Machine.execCallReg p d sa s
  | .ret p sa => Sys2Proof.Machine.execRet p sa s
  | .loop p d off => Sys2Proof.Machine.execLoop p d off s
  | .tlbinv p sa sb => Sys2Proof.Machine.execTlbinv p sa sb s
  | .nop => Sys2Proof.Machine.execNop s
  | .wakeResume => Sys2Proof.Machine.execWakeResume s
  | .wakeKill => Sys2Proof.Machine.execWakeKill s
  | .txend => Sys2Proof.Machine.execTxend s
  | .txabort => Sys2Proof.Machine.execTxabort s
  | .mwait => Sys2Proof.Machine.execMwait s
  | .waittk => Sys2Proof.Machine.execWaittk s
  | .tkint => Sys2Proof.Machine.execTkint s
  | .uiret => Sys2Proof.Machine.execUiret s
  | .gleave => Sys2Proof.Machine.execGleave s
  | .gbar => Sys2Proof.Machine.execGbar s
  | .ckpt => Sys2Proof.Machine.execCkpt s
  | .tdone => Sys2Proof.Machine.execTdone s
  | .exit => Sys2Proof.Machine.execExit s
  | .trap => Sys2Proof.Machine.execTrap s
  | .brk => Sys2Proof.Machine.execBrk s
  | .eret => Sys2Proof.Machine.execEret s
  | .halt => Sys2Proof.Machine.execHalt s
  | .smovPair => Sys2Proof.Machine.execSmovPair s
  | .saddPair => Sys2Proof.Machine.execSaddPair s
  | .ssubPair => Sys2Proof.Machine.execSsubPair s
  | .smulPair => Sys2Proof.Machine.execSmulPair s
  | .sandPair => Sys2Proof.Machine.execSandPair s
  | .sorPair => Sys2Proof.Machine.execSorPair s
  | .sxorPair => Sys2Proof.Machine.execSxorPair s
  | .sshlPair => Sys2Proof.Machine.execSshlPair s
  | .sshrPair => Sys2Proof.Machine.execSshrPair s
  | .ssraPair => Sys2Proof.Machine.execSsraPair s
  | .sminPair => Sys2Proof.Machine.execSminPair s
  | .smaxPair => Sys2Proof.Machine.execSmaxPair s
  | .spopcPair => Sys2Proof.Machine.execSpopcPair s
  | .sclzPair => Sys2Proof.Machine.execSclzPair s
  | .mandPair => Sys2Proof.Machine.execMandPair s
  | .morPair => Sys2Proof.Machine.execMorPair s
  | .mxorPair => Sys2Proof.Machine.execMxorPair s
  | .mnotPair => Sys2Proof.Machine.execMnotPair s
  | .vmovPair => Sys2Proof.Machine.execVmovPair s
  | .vaddPair => Sys2Proof.Machine.execVaddPair s
  | .vsubPair => Sys2Proof.Machine.execVsubPair s
  | .vmulPair => Sys2Proof.Machine.execVmulPair s
  | .vminPair => Sys2Proof.Machine.execVminPair s
  | .vmaxPair => Sys2Proof.Machine.execVmaxPair s
  | .vabsdPair => Sys2Proof.Machine.execVabsdPair s
  | .vandPair => Sys2Proof.Machine.execVandPair s
  | .vorPair => Sys2Proof.Machine.execVorPair s
  | .vxorPair => Sys2Proof.Machine.execVxorPair s
  | .vshlPair => Sys2Proof.Machine.execVshlPair s
  | .vshrPair => Sys2Proof.Machine.execVshrPair s
  | .vsraPair => Sys2Proof.Machine.execVsraPair s
  | .vpopcPair => Sys2Proof.Machine.execVpopcPair s
  | .vclzPair => Sys2Proof.Machine.execVclzPair s
  | .vaddsPair => Sys2Proof.Machine.execVaddsPair s
  | .vsubsPair => Sys2Proof.Machine.execVsubsPair s
  | .vfaddPair => Sys2Proof.Machine.execVfaddPair s
  | .vfsubPair => Sys2Proof.Machine.execVfsubPair s
  | .vfmulPair => Sys2Proof.Machine.execVfmulPair s
  | .vfminPair => Sys2Proof.Machine.execVfminPair s
  | .vfmaxPair => Sys2Proof.Machine.execVfmaxPair s
  | .txConflictAbort => Sys2Proof.Machine.execTxConflictAbort s
  | .arrayOpStart => Sys2Proof.Machine.execArrayOpStart s
  | .arrayOpCommit => Sys2Proof.Machine.execArrayOpCommit s
  | .arrayResidueError => Sys2Proof.Machine.execArrayResidueError s
  | .arrayUncorrectable => Sys2Proof.Machine.execArrayUncorrectable s
  | .copyEntryStart => Sys2Proof.Machine.execCopyEntryStart s
  | .copyCompletion => Sys2Proof.Machine.execCopyCompletion s
  | .userInterruptDelivery => Sys2Proof.Machine.execUserInterruptDelivery s
  | .cardStart => Sys2Proof.Machine.execCardStart s
  | .cardCompletion => Sys2Proof.Machine.execCardCompletion s
  | .queueAutoClose => Sys2Proof.Machine.execQueueAutoClose s
  | .mergeCompletion => Sys2Proof.Machine.execMergeCompletion s
  | .swmvCompletion => Sys2Proof.Machine.execSwmvCompletion s
  | .automaticAgeing => Sys2Proof.Machine.execAutomaticAgeing s
  | .splitInstantAct => Sys2Proof.Machine.execSplitInstantAct s
  | .fabricTargetWrite => Sys2Proof.Machine.execFabricTargetWrite s
  | .fabricTargetSignal => Sys2Proof.Machine.execFabricTargetSignal s
  | .fabricTargetRead => Sys2Proof.Machine.execFabricTargetRead s
  | .xgetReply => Sys2Proof.Machine.execXgetReply s
  | .collectivePacket => Sys2Proof.Machine.execCollectivePacket s
  | .collectiveCompletion => Sys2Proof.Machine.execCollectiveCompletion s
  | .collectiveAbort => Sys2Proof.Machine.execCollectiveAbort s
  | .flitCrcFail => Sys2Proof.Machine.execFlitCrcFail s
  | .routeFailure => Sys2Proof.Machine.execRouteFailure s
  | .laneFailure => Sys2Proof.Machine.execLaneFailure s
  | .illegalWord => Sys2Proof.Machine.execIllegalWord s
  | .longLatencyCompletion => Sys2Proof.Machine.execLongLatencyCompletion s
  | .waveRelease => Sys2Proof.Machine.execWaveRelease s
  | .groupHaltDelivery => Sys2Proof.Machine.execGroupHaltDelivery s
  | .groupResume => Sys2Proof.Machine.execGroupResume s
  | .preemptionRequest => Sys2Proof.Machine.execPreemptionRequest s
  | .compatSwapOut => Sys2Proof.Machine.execCompatSwapOut s
  | .pageFaultServiced => Sys2Proof.Machine.execPageFaultServiced s
  | .pageMapDeclined => Sys2Proof.Machine.execPageMapDeclined s
  | .replayLimit => Sys2Proof.Machine.execReplayLimit s
  | .copyDone => Sys2Proof.Machine.execCopyDone s
  | .copyFault => Sys2Proof.Machine.execCopyFault s
  | .cardDone => Sys2Proof.Machine.execCardDone s
  | .trapRecord => Sys2Proof.Machine.execTrapRecord s
  | .retired => Sys2Proof.Machine.execRetired s
  | .blocked => Sys2Proof.Machine.execBlocked s
  | .arrayReplay => Sys2Proof.Machine.execArrayReplay s
  | .eccCorrected => Sys2Proof.Machine.execEccCorrected s
  | .eccPoison => Sys2Proof.Machine.execEccPoison s
  | .uint => Sys2Proof.Machine.execUint s
  | .trapQueueRelease => Sys2Proof.Machine.execTrapQueueRelease s
  | .singleBitError => Sys2Proof.Machine.execSingleBitError s
  | .uncorrectableError => Sys2Proof.Machine.execUncorrectableError s
  | .machineCheck => Sys2Proof.Machine.execMachineCheck s
  | .patrolScrub => Sys2Proof.Machine.execPatrolScrub s
  | .pseudoChannelSparing => Sys2Proof.Machine.execPseudoChannelSparing s
  | .corePairRetirement => Sys2Proof.Machine.execCorePairRetirement s
  | .clockThrottle => Sys2Proof.Machine.execClockThrottle s
  | .resetBoot => Sys2Proof.Machine.execResetBoot s
  | .dispatchRound => Sys2Proof.Machine.execDispatchRound s
  | .recordReserving => Sys2Proof.Machine.execRecordReserving s
  | .launchDrain => Sys2Proof.Machine.execLaunchDrain s
  | .interruptCountReached => Sys2Proof.Machine.execInterruptCountReached s
  | .interruptWindowExpiry => Sys2Proof.Machine.execInterruptWindowExpiry s
  | .doorbell => Sys2Proof.Machine.execDoorbell s
  | .kill => Sys2Proof.Machine.execKill s
  | .ctxctlLive => Sys2Proof.Machine.execCtxctlLive s
  | .ctxctlRetire => Sys2Proof.Machine.execCtxctlRetire s
  | .registerWrite => Sys2Proof.Machine.execRegisterWrite s
  | .hostAccess => Sys2Proof.Machine.execHostAccess s
  | .setnode => Sys2Proof.Machine.execSetnode s
  | .setroute => Sys2Proof.Machine.execSetroute s
  | .bindjobBind => Sys2Proof.Machine.execBindjobBind s
  | .bindjobUnbind => Sys2Proof.Machine.execBindjobUnbind s
  | .windowExport => Sys2Proof.Machine.execWindowExport s
  | .windowUnexport => Sys2Proof.Machine.execWindowUnexport s
  | .extendmr => Sys2Proof.Machine.execExtendmr s
  | .attest => Sys2Proof.Machine.execAttest s
  | .readport => Sys2Proof.Machine.execReadport s
  | .fwstage => Sys2Proof.Machine.execFwstage s
  | .fwactivate => Sys2Proof.Machine.execFwactivate s
  | .raisesvn => Sys2Proof.Machine.execRaisesvn s
  | .fabricCommandCompletion => Sys2Proof.Machine.execFabricCommandCompletion s
  | .linkTrained => Sys2Proof.Machine.execLinkTrained s
  | .owlFirmwareReplaced => Sys2Proof.Machine.execOwlFirmwareReplaced s

end Sys2Proof.Machine
end

