-- ==== Sys2Proof/Machine/Issue.lean ====
section
/-! DEFINITION. What takes the next step: the readiness of slots (02_wave R46, R47), the fetch and the issue of a word with the
checks that every word meets (05 R110, R56, R193, R216), and the events that the machine's own agents may take next. -/

namespace Sys2Proof.Machine

/-! ### The fetch (R42, R68, R407) -/

/-- Fetching the word at an address: it needs X, and it stands outside transactions. The word, or the causes. -/
def fetchWord (s : State) (i : Nat) (w : Wave) (pc : W64) (mask : W32) : Except (List Raise) (W64 × List Part) :=
  let parts := partsOf s (waveAgent w i) .exec pc.toNat 8
  let rs := partRaises mask parts ++ mediumRaises s mask true parts
  if rs.isEmpty then
    .ok (BitVec.ofNat 64 (leNat ((partRanges parts).flatMap (fun r => s.readPA r.1 r.2))), parts)
  else .error rs

/-! ### Readiness (R46, R57, R326) -/

/-- Whether the slot's next word waits on the scoreboard (R57). A word that cannot be fetched or decoded does not. -/
def onScoreboard (s : State) (i : Nat) (w : Wave) (b : Bool) : Bool :=
  if w.windows.all (fun x => x.slotB == b || x.done) then false
  else match fetchWord s i w (w.slot b).pc 0 with
    | .error _ => false
    | .ok f => match decodeWord w.sysMode f.1 with
      | .error _ => false
      | .ok ins => (Instr.slots w f.1 ins).any (scoreboard w b)

/-- Whether what the slot waits for holds. -/
def waitOver (s : State) (i : Nat) (w : Wave) (x : Slot) : Bool := match x.wait with
  | none => true
  | some y => !servedWhere y.kind && waitHolds s i w y.kind

/-- Whether the words of a wave may issue: it runs on its core, has words of its skid left (R326), waits for no split
operation and has no cause of one to take (R417), waits for no eviction (R330), no abort of its transaction is due, and no
interrupt is to be delivered before its next word (R234). -/
def waveIssues (s : State) (i : Nat) (w : Wave) : Bool :=
  w.run.status == .running && !w.run.evicted && !(s.core w.place.core).fenced && w.run.skid != some 8
    && !(w.run.holdSplit && splitRuns s i) && !splitFailed s i && !w.run.evicting && !deliverable w && (match w.tx with
      | none => true
      | some t => !t.conflict)

/-- Whether a slot is ready (R46). -/
def slotReady (s : State) (i : Nat) (w : Wave) (b : Bool) : Bool :=
  let x := w.slot b
  x.valid && !x.parked && waveIssues s i w && waitOver s i w x
    && w.windows.all (fun y => y.slotB != b || y.left != 0 || y.done) && !onScoreboard s i w b

/-- The ready slots of the package. -/
def readySlots (s : State) : List (Nat × Wave × Bool) :=
  s.waves.zipIdx.flatMap (fun e => [false, true].filterMap (fun b =>
    if slotReady s e.2 e.1 b then some (e.2, e.1, b) else none))

/-! ### The choice of a partition (R47) -/

/-- How far a wave's number lies behind that of the wave that issued last. -/
def turnOf (s : State) (w : Wave) : Nat := match (s.core w.place.core).turns.getD w.place.part none with
  | none => w.place.num
  | some t => (w.place.num + 63 - t) % 64

/-- Whether a ready slot goes before another one of its partition. -/
def goesBefore (s : State) (x y : Nat × Wave × Bool) : Bool :=
  if x.1 = y.1 then x.2.2 != x.2.1.run.lastSlotB
  else if x.2.1.place.age = y.2.1.place.age then decide (turnOf s x.2.1 < turnOf s y.2.1)
  else decide (x.2.1.place.age < y.2.1.place.age)

def samePart (x y : Wave) : Bool := x.place.core == y.place.core && x.place.part == y.place.part

/-- The slot that each partition issues from next. -/
def chosenSlots (s : State) : List (Nat × Wave × Bool) :=
  let rs := readySlots s
  rs.filter (fun x => rs.all (fun y => (x.1 == y.1 && x.2.2 == y.2.2) || !samePart x.2.1 y.2.1 || goesBefore s x y))

/-! ### The issue of a word -/

/-- The words that a transaction forbids (R216). -/
def txForbids (ir : W64) (i : Instr) : Bool :=
  let opc := (ir.extractLsb' 52 10).toNat
  match i with
  | .vsts .. | .vstsI .. | .vatoms .. | .sptag .. | .sptagInv .. | .lfull .. | .lfullTake .. | .sfull .. | .sfullNb ..
  | .fempty .. | .forkpg .. | .txbegin .. | .exit | .eret | .halt | .tlbinv .. => true
  | .vsync .. | .gelect .. | .gelectI .. => false
  | _ => !ir.getLsbD 62 && (decide (0x280 ≤ opc ∧ opc ≤ 0x296) || decide (0x300 ≤ opc ∧ opc ≤ 0x31E))

/-- TX_FORBIDDEN for a word of an open transaction that has an effect (R43, R216). -/
def forbidRaises (w : Wave) (b : Bool) (ir : W64) (i : Instr) : List Raise :=
  let act := w.active b (wordPred ir)
  if w.tx.isSome && txForbids ir i && act != 0 then [{ cause := .txForbidden, lanes := act }] else []

/-- The row of the table that a decoded word stands for: the value written to WAKE tells its two rows apart (R430). -/
def refineWord (w : Wave) : Instr → Instr
  | .mtsr p idx a =>
    if idx = 0x81 then (match (w.getS a.toNat).toNat % 4 with
      | 0 => .wakeResume
      | 1 => .wakeKill
      | _ => .mtsr p idx a)
    else .mtsr p idx a
  | i => i

/-- The instruction that a word of a wave executes. -/
def wordInstr (w : Wave) (ir : W64) : Instr := match decodeWord w.sysMode ir with
  | .error _ => .illegalWord
  | .ok i => refineWord w i

/-- The causes that the issue of the word finds. -/
def wordRaises (w : Wave) (b : Bool) (ir : W64) : List Raise := match decodeWord w.sysMode ir with
  | .error _ => []
  | .ok i => issueRaises w b ir i ++ forbidRaises w b ir i

/-- Whether a word names a vector register that its wave does not have (R42). It then never runs, so no lane records a
further cause; the array class makes its own checks at issue (R283), and the slots of a P2 word count apart (R87). DEDUCED
(log 25). -/
def lacksRegister (w : Wave) (ir : W64) (i : Instr) : Bool :=
  let u := Instr.uses ir i
  !ir.getLsbD 62 && !u.array && u.vecs.any (fun e => decide (w.place.regs < e.2.1 + e.2.2))

/-- The clock of a core moves on to a word of a partition: a free number of clocks, and at least one where the partition
has issued a word in this clock (R46, log 5). -/
def tick (draw core part : Nat) (c : Core) : Core :=
  let n := Config.clockTicks core draw + if c.issued.contains part then 1 else 0
  { c with clock := c.clock + BitVec.ofNat 64 n, issued := part :: if n = 0 then c.issued else [] }

/-- The latches of a word that issues, the clock of its core, and the turn of its partition (R47). -/
def latchWord (s : State) (i : Nat) (w : Wave) (b : Bool) (ir : W64) (rs : List Raise) : State :=
  { s.updCore w.place.core (fun c => { tick s.fresh w.place.core w.place.part c with
      turns := updAt c.turns w.place.part (fun _ => some w.place.num) }) with
    cur := i, slotB := b, ir := ir, raised := rs }

/-- R220: a step of another agent that would conflict with a serialised transaction is held. -/
def breaksSerial (s t : State) : Bool :=
  (List.range s.waves.length).any (fun i => match (s.wave i).bind (·.tx), (t.wave i).bind (·.tx) with
    | some x, some y => x.serial && !x.conflict && y.conflict
    | _, _ => false)

/-- R220: a word whose access would conflict with a serialised transaction waits. -/
def heldWord (s : State) (o : Host.Outcome State Fault Refusal) : Host.Outcome State Fault Refusal := match o with
  | .next t => if breaksSerial s t then .next (waitWord s s (.txTurn none)) else .next t
  | x => x

/-- A slot issues its word. A cause of the fetch is raised at the word, which is not known (R137). -/
def issueWord (s : State) (i : Nat) (b : Bool) : Host.Outcome State Fault Refusal :=
  match s.wave i with
  | none => .refused .notEnabled
  | some w => match fetchWord s i w (w.slot b).pc (w.slot b).mask with
    | .error rs =>
      let s1 := latchWord s i w b 0 []
      finish s1 (.done s1 rs)
    | .ok f =>
      let s1 := fillParts (latchWord s i w b f.1 (wordRaises w b f.1)) (waveAgent w i) f.2
      if lacksRegister w f.1 (wordInstr w f.1) then finish s1 (.done s1 [])
      else heldWord s1 (exec (wordInstr w f.1) s1)

/-! ### Events of the machine's own agents -/

/-- An event, if it may happen. -/
def eventIf (b : Bool) (n : Instr) (t : Target) : List Event := if b then [{ name := n, target := t }] else []

def waveEvents (s : State) (i : Nat) (w : Wave) : List Event :=
  eventIf (match w.tx with
    | none => false
    | some t => t.conflict) .txConflictAbort (.wave i)
  ++ w.windows.zipIdx.flatMap (fun e => eventIf (windowCompletes s i e.1) .longLatencyCompletion (.window i e.2))
  ++ eventIf (deliverable w) .userInterruptDelivery (.wave i)
  ++ eventIf (w.run.status == .retiring) .waveRelease (.wave i)
  ++ eventIf (w.run.skid.isSome || w.run.haltDue) .groupHaltDelivery (.wave i)
  ++ eventIf w.run.limit.isSome .replayLimit (.wave i)
  ++ eventIf (w.run.preempt && resides w) .preemptionRequest (.wave i)

/-- The event that takes a record of a kind (R189, R321). -/
def recordEvent : Nat → Option Instr
  | 1 => some .copyDone
  | 2 => some .copyFault
  | 3 => some .cardDone
  | 4 => some .trapRecord
  | 5 => some .retired
  | 6 => some .blocked
  | 7 => some .arrayReplay
  | 8 => some .eccCorrected
  | 9 => some .eccPoison
  | 10 => some .uint
  | _ => none

def coreEvents (c : Core) (k : Nat) : List Event :=
  eventIf (!c.queue.isEmpty || (c.running.map (·.restart)).getD false) .arrayOpStart (.core k)
  ++ eventIf c.running.isSome .arrayOpCommit (.core k)
  ++ (match nextRing c with
    | some r => [{ name := .copyEntryStart, target := .ring k r }]
    | none => [])
  ++ (List.range c.rings.length).map (fun r => { name := .copyCompletion, target := .ring k r })
  ++ (match c.events.head?.bind (fun e => recordEvent e.kind) with
    | some n => [{ name := n, target := .core k }]
    | none => [])

def clusterEvents (c : Cluster) (k : Nat) : List Event :=
  c.cards.flatMap (fun x => eventIf (!x.started && !x.finished) .cardStart (.card k x.number)
    ++ eventIf x.finished .cardCompletion (.card k x.number))
  ++ eventIf (!c.mergeQueue.isEmpty) .mergeCompletion (.cluster k)
  ++ eventIf c.owlPaused .owlFirmwareReplaced (.cluster k)

/-- Whether a descriptor differs from what its context holds (R427). -/
def staleContext (s : State) (c : Context) : Bool :=
  hasDescriptor s c && softFields (s.readPA c.descAddr 128) c != c

def dieEvents (s : State) (waiting : Bool) (d : Die) (k : Nat) : List Event :=
  eventIf (waiting || !d.queue.isEmpty || !d.pipes.isEmpty) .dispatchRound (.die k)
  ++ eventIf (!d.queue.isEmpty) .recordReserving (.die k)
  ++ d.pipes.flatMap (fun p => (List.range p.queues.length).map (fun j => { name := .queueAutoClose, target := .queue k p.number j }))
  ++ d.splitOps.flatMap (fun o =>
    [{ name := .swmvCompletion, target := .op o.number }, { name := .automaticAgeing, target := .op o.number },
     { name := .splitInstantAct, target := .op o.number }])
  ++ (List.range 32).flatMap (fun p =>
    eventIf (retiresNow s (64 * k + 2 * p)) .corePairRetirement (.pair k p))

def fabricEvents (f : Fabric) : List Event :=
  f.cmds.flatMap (fun c => [{ name := .fabricCommandCompletion, target := .op c.number }, { name := .xgetReply, target := .op c.number }])
  ++ f.inbox.flatMap (fun a => [{ name := .fabricTargetWrite, target := .op a.number },
    { name := .fabricTargetSignal, target := .op a.number }, { name := .fabricTargetRead, target := .op a.number }])
  ++ f.colls.map (fun c => { name := .collectiveCompletion, target := .op c.number })

def contextEvents (c : Context) (k : Nat) : List Event :=
  eventIf (!c.trapHeld.isEmpty) .trapQueueRelease (.ctx k)
  ++ c.launches.map (fun l => { name := .launchDrain, target := .launch k l.launch })
  ++ eventIf (countReached c.port) .interruptCountReached (.ctx k)
  ++ eventIf (c.port.window != 0 && c.port.pending != 0) .interruptWindowExpiry (.ctx k)

/-- The rows that a pending mailbox command may take (R429). -/
def mailboxEvents : List Event :=
  [Instr.setnode, .setroute, .bindjobBind, .bindjobUnbind, .windowExport, .windowUnexport, .extendmr, .attest, .readport,
   .fwstage, .fwactivate, .raisesvn].map (fun n => { name := n, target := .none })

/-- The events that may be next, before each says itself whether it is. -/
def candidates (s : State) : List Event :=
  let waiting := s.waves.any (·.run.evicted) || s.ctxs.any (staleContext s)
  eventIf (!s.trust.booted && !s.trust.recovery) .resetBoot .none
  ++ s.waves.zipIdx.flatMap (fun e => waveEvents s e.2 e.1)
  ++ s.cores.zipIdx.flatMap (fun e => coreEvents e.1 e.2)
  ++ s.clusters.zipIdx.flatMap (fun e => clusterEvents e.1 e.2)
  ++ s.clusters.zipIdx.flatMap (fun e => e.1.groups.flatMap (fun g =>
    eventIf (s.ctx g.ctx).compat .compatSwapOut (.group e.2 g.ctx g.key)))
  ++ s.dies.zipIdx.flatMap (fun e => dieEvents s waiting e.1 e.2)
  ++ fabricEvents s.fabric
  ++ s.ctxs.zipIdx.flatMap (fun e => contextEvents e.1 e.2)
  ++ (if s.dev.mbBusy then mailboxEvents else [])

/-- Whether an event happens now. -/
def acts (s : State) (e : Event) : Bool := match exec e.name { s with target := e.target } with
  | .next t => !breaksSerial s t
  | _ => false

/-! ### The next step -/

/-- What takes a step: a slot that issues a word, or an event. -/
inductive Actor where
  | word (i : Nat) (b : Bool)
  | event (e : Event)
  deriving DecidableEq, Repr

/-- Everything that may take the next step. -/
def actors (s : State) : List Actor :=
  (chosenSlots s).map (fun x => .word x.1 x.2.2) ++ ((candidates s).filter (acts s)).map .event

/-- What takes the next step: among several, a free choice (log 5). -/
def nextActor (s : State) : Option Actor := match actors s with
  | [] => none
  | [a] => some a
  | l => l[Config.pickAgent s.fresh % l.length]?

/-- The rows of the table that are events, and not words. -/
def isEvent (i : Instr) : Bool := decide (302 ≤ i.ctorIdx) && i != .illegalWord

/-- What an actor does. -/
def enact (s : State) : Actor → Host.Outcome State Fault Refusal
  | .word i b => issueWord s i b
  | .event e => if isEvent e.name then exec e.name { s with target := e.target } else .refused .notEnabled

/-- The cores on which a request for frames waits. -/
def askingCores (s : State) : List Nat :=
  (s.waves.filterMap (fun w => if !w.run.evicted && w.run.status != .gone
      && ((askedFrames w.slotA).isSome || (askedFrames w.slotB).isSome) then some w.place.core else none)).foldl
    (fun l c => if l.contains c then l else l ++ [c]) []

/-- What a step leaves: abandoned merge operations have torn their outputs (R375), those that run may have got on (R376), and
the requests for frames that now fit have been granted (R277, R278). -/
def settleStep (s : State) : State :=
  let t := advanceMerges (settleTorn s)
  (askingCores t).foldl settleFrames t

def settled (o : Host.Outcome State Fault Refusal) : Host.Outcome State Fault Refusal := match o with
  | .next t => .next (settleStep t)
  | x => x

/-- An input from outside is taken first; else an agent of the machine acts; else nothing happens. -/
def stepOf (s : State) : Host.Outcome State Fault Refusal := match s.inputs with
  | e :: rest => settled (enact { s with inputs := rest }.nextFresh (.event e))
  | [] => match nextActor s with
    | some a => settled (enact s.nextFresh a)
    | none => .next s

end Sys2Proof.Machine
end

