-- ==== Sys2Proof/Machine/Step.lean ====
section
/-! DEFINITION. One step of the machine, and the state in which its next step fetches a given word. -/

namespace Sys2Proof.Machine

/-- One step: an input from outside, a word of a wave, or an event of the machine's own agents. -/
def step (s : State) : Host.Outcome State Fault Refusal := stepOf s

namespace Placed

/-- A valid page-table entry without a leaf, and a leaf of 1 GiB that may be read, written and executed (R407). -/
def tableEntry (next : Nat) : Nat := next + 1
def leafEntry (pa : Nat) : Nat := 2 ^ 64 + pa + 0x11F

/-- Where the tables, the page and the word lie. -/
def root : Nat := 0x1000
def second : Nat := 0x2000
def third : Nat := 0x3000
def page : Nat := 0x4000_0000
def pc : Nat := 0x1_0000
def priv : Nat := 0x2_0000

/-- A wave of context 0 at the word, alone on core 0. -/
def theWave : Wave :=
  { place := { ctx := 0, cluster := 0, core := 0, part := 0, num := 0, age := 0, frameAge := 0, regs := 2048
               scratchBase := 0, scratchLen := 0, frameMap := List.replicate 32 none, edgeMap := List.replicate 8 none
               depth := 0, stage := none }
    slotA := Slot.running (BitVec.ofNat 64 pc) allLanes none
    sys := { priv := BitVec.ofNat 64 priv } }

/-- Memory with the page table and the word. -/
def memory (m : Memory) (w : Nat) : Memory :=
  (((m.writeN root (leBytes 16 (tableEntry second))).writeN second (leBytes 16 (tableEntry third))).writeN third
    (leBytes 16 (leafEntry page))).writeN (page + pc) (leBytes 8 w)

end Placed

/-- The state whose next step fetches and runs the word: the device has booted, context 0 is live with one page, and one
wave of it, the only agent, stands at the word. From reset, a program comes to run through RESET_BOOT, the registers of the
host, DOORBELL and DISPATCH_ROUND; this stands for those steps (log 48). -/
def State.withFetchWord (s : State) (_nbits w : Nat) : State :=
  { s with
    mem := Placed.memory s.mem w
    waves := [Placed.theWave]
    cores := List.replicate Config.nCores {}
    clusters := List.replicate Config.nClusters {}
    dies := List.replicate Config.nDies {}
    ctxs := { live := true, root := BitVec.ofNat 64 Placed.root } :: List.replicate (Config.nContexts - 1) {}
    fabric := {}
    dev := { s.dev with mbBusy := false }
    trust := { s.trust with booted := true }
    inputs := [] }

end Sys2Proof.Machine
end

