-- ==== Sys2Proof/Safety.lean ====
section
/-! DEFINITION. What counts as a safe run: the machine goes on, and its memory keeps the canonical form. -/

namespace Sys2Proof.Safety

open Sys2Proof.Machine

/-- A step that answers a next state. -/
def GoesOn (s : State) : Prop := ∃ t, step s = .next t

/-- Every input that waits names an event, and not a word. -/
def InputsAreEvents (s : State) : Prop := ∀ e ∈ s.inputs, isEvent e.name = true

/-- Memory is in its canonical form. -/
def MemoryCanonical (s : State) : Prop := s.mem.wf = true

/-- The registers that a read finds fixed: s0 reads zero and m0 all ones, in every wave (R73, R126). -/
def FixedRegisters (s : State) : Prop := ∀ w ∈ s.waves, w.getS 0 = 0 ∧ w.getM 0 = allLanes

end Sys2Proof.Safety
end

