-- ==== Sys2Proof/WellFormed.lean ====
section
/-! DEFINITION. Which instructions a word can hold: the operands of a well-formed instruction pass every check of its
description (05_opcode_map R110). The operands of a row without operand fields stand in the current word `ir`. -/

namespace Sys2Proof

/-- The instruction of slot X that a `…Pair` row names. -/
def Instr.pairOp : Instr → Option PairOp
  | .smovPair => some .smov
  | .saddPair => some .sadd
  | .ssubPair => some .ssub
  | .smulPair => some .smul
  | .sandPair => some .sand
  | .sorPair => some .sor
  | .sxorPair => some .sxor
  | .sshlPair => some .sshl
  | .sshrPair => some .sshr
  | .ssraPair => some .ssra
  | .sminPair => some .smin
  | .smaxPair => some .smax
  | .spopcPair => some .spopc
  | .sclzPair => some .sclz
  | .mandPair => some .mand
  | .morPair => some .mor
  | .mxorPair => some .mxor
  | .mnotPair => some .mnot
  | .vmovPair => some .vmov
  | .vaddPair => some .vadd
  | .vsubPair => some .vsub
  | .vmulPair => some .vmul
  | .vminPair => some .vmin
  | .vmaxPair => some .vmax
  | .vabsdPair => some .vabsd
  | .vandPair => some .vand
  | .vorPair => some .vor
  | .vxorPair => some .vxor
  | .vshlPair => some .vshl
  | .vshrPair => some .vshr
  | .vsraPair => some .vsra
  | .vpopcPair => some .vpopc
  | .vclzPair => some .vclz
  | .vaddsPair => some .vadds
  | .vsubsPair => some .vsubs
  | .vfaddPair => some .vfadd
  | .vfsubPair => some .vfsub
  | .vfmulPair => some .vfmul
  | .vfminPair => some .vfmin
  | .vfmaxPair => some .vfmax
  | _ => none

/-- The slots of a P2 word pass the checks of R83-R86. -/
def pairWordOk (ir : W64) : Option PairOp → Bool
  | none => true
  | some p =>
    match codeY ir with
    | some op => (failing (pairChecks p (halfX ir) op (halfY ir))).isEmpty
    | none => false

/-- An instruction with a word whose operands pass every check. -/
def Instr.wellFormed (ir : W64) (i : Instr) : Bool :=
  (encode ir i).isSome && (failing i.checks).isEmpty && pairWordOk ir i.pairOp

end Sys2Proof
end

