-- ==== Sys2Proof/Certificates/Slice0/Obligations.lean ====
section
/-! DEFINITION. The statements about the model, written from the rules of spec/. The definitions in `Sys2Proof.Claims`
restate the rules in their own terms, so that a statement can be read beside the rule; the statements are the
`Obligations.*` at the end of each part. -/

namespace Sys2Proof.Claims

open Sys2Proof Sys2Proof.Machine

/-- The outcomes of this machine. -/
abbrev Out := Host.Outcome State Fault Refusal

/-- `w` is the wave whose word executes, and the issue checks recorded no cause for the word (R59). -/
structure Runs (s : State) (w : Wave) : Prop where
  wave : s.wave s.cur = some w
  clean : s.raised = []

/-- The word completes with the effect `t` on the state, and its slot goes on; what going on does to the wave is the
statement `WordPasses`. -/
def goesTo (s t : State) : Out := .next (commit s t true)

/-- The word completes, and all that it changes beside going on is its wave, which becomes `x`. -/
def goesOn (s : State) (x : Wave) : Out := goesTo s (s.setWave s.cur x)

/-- The word takes the cause `r` and nothing of its effect stands (R59, R64). -/
def traps (s : State) (r : Raise) : Out := .next (trapWord s s r)

end Sys2Proof.Claims
namespace Sys2Proof.Claims

open Sys2Proof Sys2Proof.Machine

/-! ### Scalar and mask words (R116-R127) -/

/-- A source read in the operation width of its type (R116). -/
def val : SType → W64 → Int
  | .i64, x => x.toInt
  | .n64, x => x.toNat
  | .i32, x => (x.setWidth 32).toInt
  | .n32, x => (x.setWidth 32).toNat

/-- A result formed in the operation width and extended to 64 bits (R116). -/
def res : SType → Int → W64
  | .i64, r => BitVec.ofInt 64 r
  | .n64, r => BitVec.ofInt 64 r
  | .i32, r => (BitVec.ofInt 32 r).signExtend 64
  | .n32, r => (BitVec.ofInt 32 r).setWidth 64

/-- The operation width of a type (R116). -/
def bits : SType → Nat
  | .i64 => 64
  | .n64 => 64
  | .i32 => 32
  | .n32 => 32

/-- The signed type of the same width, and the unsigned one. -/
def asSigned : SType → SType
  | .i64 => .i64
  | .n64 => .i64
  | .i32 => .i32
  | .n32 => .i32
def asUnsigned : SType → SType
  | .i64 => .n64
  | .n64 => .n64
  | .i32 => .n32
  | .n32 => .n32

/-- The number of ones of `x`. -/
def ones {n : Nat} (x : BitVec n) : Nat := ((List.range n).filter (fun k => x.getLsbD k)).length
/-- The number of leading zeros of `x`. -/
def leadingZeros {n : Nat} (x : BitVec n) : Nat :=
  ((List.range n).takeWhile (fun k => !(x.getLsbD (n - 1 - k)))).length

/-- The operations of R119 and R120. -/
def opAdd (t : SType) (x y : W64) : W64 := res t (val t x + val t y)
def opSub (t : SType) (x y : W64) : W64 := res t (val t x - val t y)
def opMul (t : SType) (x y : W64) : W64 := res t (val t x * val t y)
def opMulh (t : SType) (x y : W64) : W64 := res t (val t x * val t y / 2 ^ bits t)
def opDiv (t : SType) (x y : W64) : W64 := res t (Int.tdiv (val t x) (val t y))
def opRem (t : SType) (x y : W64) : W64 := res t (val t x - val t y * Int.tdiv (val t x) (val t y))
/-- The count of a shift is the whole 64-bit value. -/
def opShl (t : SType) (x y : W64) : W64 :=
  if bits t ≤ y.toNat then 0 else res t (val t x * 2 ^ y.toNat)
def opShr (t : SType) (x y : W64) : W64 :=
  if bits t ≤ y.toNat then 0 else res t (val (asUnsigned t) x / 2 ^ y.toNat)
def opSra (t : SType) (x y : W64) : W64 :=
  res t (if bits t ≤ y.toNat then (if val (asSigned t) x < 0 then -1 else 0) else val (asSigned t) x / 2 ^ y.toNat)
def opMin (t : SType) (x y : W64) : W64 := res t (min (val t x) (val t y))
def opMax (t : SType) (x y : W64) : W64 := res t (max (val t x) (val t y))
def opPopc (t : SType) (x : W64) : W64 :=
  BitVec.ofNat 64 (if bits t = 64 then ones x else ones (x.setWidth 32))
def opClz (t : SType) (x : W64) : W64 :=
  BitVec.ofNat 64 (if bits t = 64 then leadingZeros x else leadingZeros (x.setWidth 32))

/-- An immediate of a scalar form (R118). -/
def sext (imm : BitVec 17) : W64 := imm.signExtend 64
def zext (imm : BitVec 17) : W64 := imm.setWidth 64

/-- A word with one scalar destination: its predicate, its destination and the value that R45, R119 to R126 give it. -/
def scalarResult : Instr → Option (Pred × SReg × (Wave → W64))
  | .smov o => some (o.p, o.d, fun w => w.getS o.a.toNat)
  | .sli o => some (o.p, o.d, fun _ => o.imm.signExtend 64)
  | .slix o => some (o.p, o.d, fun w => (w.getS o.d.toNat <<< 28) ||| o.imm.setWidth 64)
  | .sadd o => some (o.p, o.d, fun w => opAdd o.t (w.getS o.a.toNat) (w.getS o.b.toNat))
  | .ssub o => some (o.p, o.d, fun w => opSub o.t (w.getS o.a.toNat) (w.getS o.b.toNat))
  | .smul o => some (o.p, o.d, fun w => opMul o.t (w.getS o.a.toNat) (w.getS o.b.toNat))
  | .smulI o => some (o.p, o.d, fun w => opMul o.t (w.getS o.a.toNat) (sext o.imm))
  | .smulh o => some (o.p, o.d, fun w => opMulh o.t (w.getS o.a.toNat) (w.getS o.b.toNat))
  | .sand o => some (o.p, o.d, fun w => w.getS o.a.toNat &&& w.getS o.b.toNat)
  | .sandI o => some (o.p, o.d, fun w => w.getS o.a.toNat &&& zext o.imm)
  | .sor o => some (o.p, o.d, fun w => w.getS o.a.toNat ||| w.getS o.b.toNat)
  | .sorI o => some (o.p, o.d, fun w => w.getS o.a.toNat ||| zext o.imm)
  | .sxor o => some (o.p, o.d, fun w => w.getS o.a.toNat ^^^ w.getS o.b.toNat)
  | .sxorI o => some (o.p, o.d, fun w => w.getS o.a.toNat ^^^ zext o.imm)
  | .sshl o => some (o.p, o.d, fun w => opShl o.t (w.getS o.a.toNat) (w.getS o.b.toNat))
  | .sshlI o => some (o.p, o.d, fun w => opShl o.t (w.getS o.a.toNat) (zext o.imm))
  | .sshr o => some (o.p, o.d, fun w => opShr o.t (w.getS o.a.toNat) (w.getS o.b.toNat))
  | .sshrI o => some (o.p, o.d, fun w => opShr o.t (w.getS o.a.toNat) (zext o.imm))
  | .ssra o => some (o.p, o.d, fun w => opSra o.t (w.getS o.a.toNat) (w.getS o.b.toNat))
  | .ssraI o => some (o.p, o.d, fun w => opSra o.t (w.getS o.a.toNat) (zext o.imm))
  | .smin o => some (o.p, o.d, fun w => opMin o.t (w.getS o.a.toNat) (w.getS o.b.toNat))
  | .sminI o => some (o.p, o.d, fun w => opMin o.t (w.getS o.a.toNat) (sext o.imm))
  | .smax o => some (o.p, o.d, fun w => opMax o.t (w.getS o.a.toNat) (w.getS o.b.toNat))
  | .smaxI o => some (o.p, o.d, fun w => opMax o.t (w.getS o.a.toNat) (sext o.imm))
  | .ssel o => some (o.p, o.d, fun w => if w.getS o.d.toNat ≠ 0 then w.getS o.a.toNat else w.getS o.b.toNat)
  | .spopc o => some (o.p, o.d, fun w => opPopc o.t (w.getS o.a.toNat))
  | .sclz o => some (o.p, o.d, fun w => opClz o.t (w.getS o.a.toNat))
  | .saddi o => some (o.p, o.d, fun w => opAdd o.t (w.getS o.a.toNat) (sext o.imm))
  | .mfm p d ma => some (p, d, fun w => (w.getM ma.toNat).setWidth 64)
  | .mcnt p d ma => some (p, d, fun w => BitVec.ofNat 64 (ones (w.getM ma.toNat)))
  | _ => none

/-- The conditions of R122, on exact values. -/
def meets (c : Cond) (x y : Int) : Prop :=
  match c with
  | .eq => x = y
  | .ne => x ≠ y
  | .lt => x < y
  | .le => x ≤ y
  | .gt => x > y
  | .ge => x ≥ y

/-- A word with one mask destination that it writes whole (R122, R126): `r` is the value that it writes. -/
def maskResult (w : Wave) : Instr → Pred → MReg → W32 → Prop
  | .scmp o, p, d, r => p = o.p ∧ d = o.md ∧
      (meets o.c (val o.t (w.getS o.a.toNat)) (val o.t (w.getS o.b.toNat)) → r = 0xFFFFFFFF) ∧
      (¬ meets o.c (val o.t (w.getS o.a.toNat)) (val o.t (w.getS o.b.toNat)) → r = 0)
  | .scmpI o, p, d, r => p = o.p ∧ d = o.md ∧
      (meets o.c (val o.t (w.getS o.a.toNat)) (val o.t (sext o.imm)) → r = 0xFFFFFFFF) ∧
      (¬ meets o.c (val o.t (w.getS o.a.toNat)) (val o.t (sext o.imm)) → r = 0)
  | .mtm p' d' sa, p, d, r => p = p' ∧ d = d' ∧ r = (w.getS sa.toNat).setWidth 32
  | .mand o, p, d, r => p = o.p ∧ d = o.d ∧ r = w.getM o.a.toNat &&& w.getM o.b.toNat
  | .mor o, p, d, r => p = o.p ∧ d = o.d ∧ r = w.getM o.a.toNat ||| w.getM o.b.toNat
  | .mxor o, p, d, r => p = o.p ∧ d = o.d ∧ r = w.getM o.a.toNat ^^^ w.getM o.b.toNat
  | .mnot p' d' ma, p, d, r => p = p' ∧ d = d' ∧ r = ~~~ w.getM ma.toNat
  | _, _, _, _ => False

/-- The division of R120. -/
def divides : Instr → Option (SBinT × (SType → W64 → W64 → W64))
  | .sdiv o => some (o, opDiv)
  | .srem o => some (o, opRem)
  | _ => none

/-- The lane that SRDV and SWRV select (R124). -/
def laneOf (w : Wave) (sb : SReg) : Nat := ((w.getS sb.toNat).extractLsb' 0 5).toNat

/-- SRDV: the lane that it reads. SWRV: the lane that it writes. -/
def reads : Instr → Option (Pred × SReg × VReg × (Wave → Nat))
  | .srdv p d va sb => some (p, d, va, fun w => laneOf w sb)
  | .srdvI p d va n => some (p, d, va, fun _ => n.toNat)
  | _ => none
def writes : Instr → Option (Pred × VReg × SReg × (Wave → Nat))
  | .swrv p vd sa sb => some (p, vd, sa, fun w => laneOf w sb)
  | .swrvI p vd sa n => some (p, vd, sa, fun _ => n.toNat)
  | _ => none

end Sys2Proof.Claims

section
open Sys2Proof Sys2Proof.Machine Sys2Proof.Claims

/-- R119, R121, R123, R126 with R116 to R118: a scalar word writes its result to sd when active(S) is not empty, and has no
effect otherwise; every other register, flag, special register and byte of memory stays (`WordPasses` says what going on
changes).

R122 and R126: a mask word writes all 32 bits of md when active(S) is not empty, and has no effect otherwise.

R120: the quotient rounds toward zero and the remainder is x - y * quotient; y = 0 raises INT_DIVIDE_ZERO with DETAIL 0
for the lanes of active(S) and writes nothing. -/
def Obligations.ScalarWords : Prop :=
  ((∀ (s : State) (w : Wave) (i : Instr) (p : Pred) (d : SReg) (f : Wave → W64),
      Runs s w → scalarResult i = some (p, d, f) →
      exec i s = goesOn s (if w.active s.slotB p = 0 then w else w.setS d.toNat (f w))) ∧
   (∀ (s : State) (w : Wave) (i : Instr) (p : Pred) (d : MReg) (r : W32),
      Runs s w → maskResult w i p d r →
      exec i s = goesOn s (if w.active s.slotB p = 0 then w else w.setM d.toNat r))) ∧
  (∀ (s : State) (w : Wave) (i : Instr) (o : SBinT) (f : SType → W64 → W64 → W64),
     Runs s w → divides i = some (o, f) → w.active s.slotB o.p ≠ 0 →
     (val o.t (w.getS o.b.toNat) ≠ 0 →
       exec i s = goesOn s (w.setS o.d.toNat (f o.t (w.getS o.a.toNat) (w.getS o.b.toNat)))) ∧
     (val o.t (w.getS o.b.toNat) = 0 →
       exec i s = traps s { cause := .intDivideZero, lanes := w.active s.slotB o.p, detail := 0 }))

end

namespace Sys2Proof.Claims

open Sys2Proof Sys2Proof.Machine

/-! ### Vector integer words (R9, R10, R77-R80, R91, R118, R128-R135) -/

/-- The width of an element in the view of a type (R77). -/
def wid : EType → Nat
  | .i32 | .n32 | .f32 | .b1 => 32
  | .i16 | .n16 | .f16 | .bf16 => 16
  | .i8 | .n8 | .e4m3 | .e5m2 => 8
  | .i4 | .n4 => 4

/-- Two's complement types (R9), and float types (R77). -/
def twos : EType → Bool
  | .i32 | .i16 | .i8 | .i4 => true
  | _ => false
def floats : EType → Bool
  | .f32 | .f16 | .bf16 | .e4m3 | .e5m2 => true
  | _ => false

/-- Element k of a register: its bits, and the number that they stand for (R9). -/
def el (t : EType) (x : W32) (k : Nat) : Nat := x.toNat / 2 ^ (wid t * k) % 2 ^ wid t
def num (t : EType) (e : Nat) : Int := if twos t ∧ 2 ^ (wid t - 1) ≤ e then (e : Int) - 2 ^ wid t else e
/-- The element that holds a number modulo 2^w (R10). -/
def low (t : EType) (x : Int) : Nat := (x % 2 ^ wid t).toNat

/-- The selection of a modifier code in the view of width w (R78). -/
def sigma (w c : Nat) : List Nat :=
  match w with
  | 16 => [[0, 1], [1, 0], [0, 0], [1, 1], [0, 1], [1, 0], [0, 0], [1, 1]].getD c []
  | 8 => [[0, 1, 2, 3], [3, 2, 1, 0], [0, 0, 0, 0], [2, 3, 0, 1], [1, 2, 3, 0]].getD c []
  | 4 => [[0, 1, 2, 3, 4, 5, 6, 7], [7, 6, 5, 4, 3, 2, 1, 0], [0, 0, 0, 0, 0, 0, 0, 0], [7, 7, 7, 7, 7, 7, 7, 7],
      [1, 0, 3, 2, 5, 4, 7, 6], [2, 3, 0, 1, 6, 7, 4, 5], [0, 1, 2, 3, 0, 1, 2, 3], [4, 5, 6, 7, 4, 5, 6, 7]].getD c []
  | _ => [0]

/-- The negation and the absolute value of an element (R79). -/
def negated (t : EType) (e : Nat) : Nat :=
  if floats t then (if 2 ^ (wid t - 1) ≤ e then e - 2 ^ (wid t - 1) else e + 2 ^ (wid t - 1)) else low t (-(e : Int))
def absolute (t : EType) (e : Nat) : Nat :=
  if floats t then e % 2 ^ (wid t - 1) else low t (num t e).natAbs

/-- Element k of an operand after its modifier (R78, R79). -/
def src (t : EType) (code : BitVec 3) (x : W32) (k : Nat) : Nat :=
  let e := el t x ((sigma (wid t) code.toNat).getD k 0)
  match wid t, code.toNat with
  | 32, 1 => negated t e
  | 32, 2 => absolute t e
  | 32, 3 => negated t (absolute t e)
  | 16, 4 | 16, 5 | 16, 6 | 16, 7 => negated t e
  | _, _ => e

/-- Element k of an immediate (R91, R118): the low w bits of the extended immediate; .f32 takes the immediate as its high bits
and a 16-bit float its low 16 bits. -/
def immEl (t : EType) (zero : Bool) (imm : BitVec 17) : Nat :=
  match t with
  | .f32 => imm.toNat * 2 ^ 15
  | _ => (if zero then imm.toNat else (imm.signExtend 32).toNat) % 2 ^ wid t

/-- The operations of R129 and R130 on elements. -/
def elAdd (t : EType) (x y : Nat) : Nat := low t (x + y)
def elSub (t : EType) (x y : Nat) : Nat := low t (x - y)
def elMul (t : EType) (x y : Nat) : Nat := low t (x * y)
def elMulh (t : EType) (x y : Nat) : Nat := low t (num t x * num t y / 2 ^ wid t)
def elMin (t : EType) (x y : Nat) : Nat := low t (min (num t x) (num t y))
def elMax (t : EType) (x y : Nat) : Nat := low t (max (num t x) (num t y))
def elAbsd (t : EType) (x y : Nat) : Nat := (num t x - num t y).natAbs
def elShl (t : EType) (x n : Nat) : Nat := if wid t ≤ n then 0 else low t (x * 2 ^ n)
def elShr (t : EType) (x n : Nat) : Nat := if wid t ≤ n then 0 else x / 2 ^ n
/-- The shift that fills with the element's top bit. -/
def elSra (t : EType) (x n : Nat) : Nat :=
  let top : Bool := decide (2 ^ (wid t - 1) ≤ x)
  low t ((if top then (x : Int) - 2 ^ wid t else x) / 2 ^ (min n (wid t)))
def elPopc (t : EType) (x : Nat) : Nat := ones (BitVec.ofNat (wid t) x)
def elClz (t : EType) (x : Nat) : Nat := leadingZeros (BitVec.ofNat (wid t) x)

/-- A vector word: the type of its result's view, its predicate, its destination, and element k of lane l. -/
abbrev VecRow := EType × Pred × VReg × (Wave → Nat → Nat → Nat)

/-- The rows of a binary form, of a form with an immediate and of a unary form. -/
def binRow (o : VBin) (f : EType → Nat → Nat → Nat) : Option VecRow :=
  some (o.t, o.p, o.d, fun w l k => f o.t (src o.t o.ma (w.getV o.a.toNat l) k) (src o.t o.mb (w.getV o.b.toNat l) k))
def immRow (o : VImm) (zero : Bool) (f : EType → Nat → Nat → Nat) : Option VecRow :=
  some (o.t, o.p, o.d, fun w l k => f o.t (el o.t (w.getV o.a.toNat l) k) (immEl o.t zero o.imm))
def shiftRow (o : VImm) (f : EType → Nat → Nat → Nat) : Option VecRow :=
  some (o.t, o.p, o.d, fun w l k => f o.t (el o.t (w.getV o.a.toNat l) k) o.imm.toNat)
def unRow (o : VUn) (f : EType → Nat → Nat) : Option VecRow :=
  some (o.t, o.p, o.d, fun w l k => f o.t (src o.t o.ma (w.getV o.a.toNat l) k))

/-- The offset and the length of a field (R134). -/
def fieldOff (w : Wave) (sb : SReg) : Nat := (w.getS sb.toNat).toNat % 64
def fieldLen (w : Wave) (sb : SReg) : Nat := min 32 ((w.getS sb.toNat).toNat / 2 ^ 8 % 64)

/-- The field of VBFX and its result (R134). -/
def fieldValue (t : EType) (f n : Nat) : Nat :=
  if n = 0 then 0
  else if t = .i32 ∧ 2 ^ (n - 1) ≤ f then low .i32 ((f : Int) - 2 ^ n) else f

/-- Every vector integer word but the compares and the clamped ones (R128-R130, R132-R135). -/
def vectorResult : Instr → Option VecRow
  | .vmov o => unRow o (fun _ x => x)
  | .vli p t d imm => some (t, p, d, fun _ _ _ => immEl t false imm)
  | .vadd o => binRow o elAdd
  | .vaddI o => immRow o false elAdd
  | .vsub o => binRow o elSub
  | .vsubI o => immRow o false elSub
  | .vmul o => binRow o elMul
  | .vmulI o => immRow o false elMul
  | .vmulh o => binRow o elMulh
  | .vmad o => some (o.t, o.p, o.d, fun w l k => low o.t (el o.t (w.getV o.d.toNat l) k +
      src o.t o.ma (w.getV o.a.toNat l) k * src o.t o.mb (w.getV o.b.toNat l) k))
  | .vmin o => binRow o elMin
  | .vminI o => immRow o false elMin
  | .vmax o => binRow o elMax
  | .vmaxI o => immRow o false elMax
  | .vabsd o => binRow o elAbsd
  | .vand o => binRow o (fun _ x y => x &&& y)
  | .vandI o => immRow o true (fun _ x y => x &&& y)
  | .vor o => binRow o (fun _ x y => x ||| y)
  | .vorI o => immRow o true (fun _ x y => x ||| y)
  | .vxor o => binRow o (fun _ x y => x ^^^ y)
  | .vxorI o => immRow o true (fun _ x y => x ^^^ y)
  | .vshl o => binRow o elShl
  | .vshlI o => shiftRow o elShl
  | .vshr o => binRow o elShr
  | .vshrI o => shiftRow o elShr
  | .vsra o => binRow o elSra
  | .vsraI o => shiftRow o elSra
  | .vpopc o => unRow o elPopc
  | .vclz o => unRow o elClz
  | .vsel o => some (o.t, o.p, o.d, fun w l k =>
      if o.t = .b1 then
        ((w.getV o.d.toNat l &&& w.getV o.a.toNat l) ||| (~~~ w.getV o.d.toNat l &&& w.getV o.b.toNat l)).toNat
      else if el o.t (w.getV o.d.toNat l) k ≠ 0 then src o.t o.ma (w.getV o.a.toNat l) k
      else src o.t o.mb (w.getV o.b.toNat l) k)
  | .vdot4 o => some (.i32, o.p, o.d, fun w l _ => low .i32 ((w.getV o.d.toNat l).toNat +
      ([0, 1, 2, 3].map (fun k => num o.t (src o.t o.ma (w.getV o.a.toNat l) k) *
        num o.t (src o.t o.mb (w.getV o.b.toNat l) k))).sum))
  | .vbfx o => some (o.t, o.p, o.d, fun w l _ =>
      fieldValue o.t ((w.getV o.a.toNat l).toNat / 2 ^ fieldOff w o.sb % 2 ^ fieldLen w o.sb) (fieldLen w o.sb))
  | .vbfi o => some (o.t, o.p, o.d, fun w l _ =>
      let m : Nat := (2 ^ fieldLen w o.sb - 1) * 2 ^ fieldOff w o.sb % 2 ^ 32
      ((w.getV o.d.toNat l &&& ~~~ BitVec.ofNat 32 m) |||
        (BitVec.ofNat 32 ((w.getV o.a.toNat l).toNat * 2 ^ fieldOff w o.sb) &&& BitVec.ofNat 32 m)).toNat)
  | .vlane p d => some (.n32, p, d, fun _ l _ => l)
  | _ => none

/-- The range of a type (R9). -/
def least (t : EType) : Int := if twos t then -(2 ^ (wid t - 1)) else 0
def most (t : EType) : Int := if twos t then 2 ^ (wid t - 1) - 1 else 2 ^ wid t - 1

/-- The clamped words: their exact results (R10, R129). -/
def exactResult : Instr → Option (EType × Pred × VReg × (Wave → Nat → Nat → Int))
  | .vadds o => some (o.t, o.p, o.d, fun w l k =>
      num o.t (src o.t o.ma (w.getV o.a.toNat l) k) + num o.t (src o.t o.mb (w.getV o.b.toNat l) k))
  | .vaddsI o => some (o.t, o.p, o.d, fun w l k =>
      num o.t (el o.t (w.getV o.a.toNat l) k) + num o.t (immEl o.t false o.imm))
  | .vsubs o => some (o.t, o.p, o.d, fun w l k =>
      num o.t (src o.t o.ma (w.getV o.a.toNat l) k) - num o.t (src o.t o.mb (w.getV o.b.toNat l) k))
  | .vsubsI o => some (o.t, o.p, o.d, fun w l k =>
      num o.t (el o.t (w.getV o.a.toNat l) k) - num o.t (immEl o.t false o.imm))
  | _ => none

/-- FPSTAT with some of its flags raised (R19). -/
def flagged (w : Wave) (f : W32) : Wave := { w with sys := { w.sys with fpstat := w.sys.fpstat ||| f } }

/-- Lane l is in active(S) (R43, R74). -/
def isActive (s : State) (w : Wave) (p : Pred) (l : Nat) : Prop := (w.active s.slotB p).getLsbD l = true

/-- The destination after a vector word: lane l of `d` holds `r l` for the lanes of active(S), and every other lane of every
register what it held (R74, R128). -/
def lanesPut (s : State) (w : Wave) (p : Pred) (d : VReg) (r : Nat → W32) : Wave :=
  w.setLanes d.toNat ((lanesOf (w.active s.slotB p)).map (fun l => (l, r l)))

/-- The compares of R131: the condition in lane l. -/
def compares : Instr → Option (Pred × MReg × (Wave → Nat → Prop))
  | .vcmp o => some (o.p, o.md, fun w l => meets o.c (num o.t (src o.t o.ma (w.getV o.a.toNat l) 0))
      (num o.t (src o.t o.mb (w.getV o.b.toNat l) 0)))
  | .vcmpI o => some (o.p, o.md, fun w l => meets o.c (num o.t (w.getV o.a.toNat l).toNat)
      (num o.t (o.imm.signExtend 32).toNat))
  | _ => none

end Sys2Proof.Claims

section
open Sys2Proof Sys2Proof.Machine Sys2Proof.Claims

/-- R128 to R130 and R132 to R135: in every lane of active(S) each element of vd takes the value of its operation on the
elements of the sources (after the modifiers of R78 and R79, or the immediate of R118); no other lane, register, flag or byte
of memory changes.

R10 with R129 (VADDS, VSUBS): each element is the exact sum or difference clamped to the range of the type, and FPSTAT.SAT
is set exactly if an element of a lane of active(S) was clamped.

R131: VCMP sets the bit of md for each lane of active(S) whose condition holds and clears every other bit of md. -/
def Obligations.VectorIntegerWords : Prop :=
  ((∀ (s : State) (w : Wave) (i : Instr) (t : EType) (p : Pred) (d : VReg) (f : Wave → Nat → Nat → Nat),
      Runs s w → Instr.wellFormed s.ir i = true → vectorResult i = some (t, p, d, f) →
      ∃ r : Nat → W32, exec i s = goesOn s (lanesPut s w p d r) ∧
        ∀ l, l < 32 → ∀ k, k < 32 / wid t → el t (r l) k = f w l k) ∧
   (∀ (s : State) (w : Wave) (i : Instr) (t : EType) (p : Pred) (d : VReg) (f : Wave → Nat → Nat → Int),
      Runs s w → Instr.wellFormed s.ir i = true → exactResult i = some (t, p, d, f) →
      ∃ (r : Nat → W32) (sat : Bool),
        exec i s = goesOn s (flagged (lanesPut s w p d r) (if sat then 0x80 else 0)) ∧
        (∀ l, l < 32 → ∀ k, k < 32 / wid t → num t (el t (r l) k) = max (least t) (min (most t) (f w l k))) ∧
        (sat = true ↔ ∃ l k, isActive s w p l ∧ k < 32 / wid t ∧ (f w l k < least t ∨ most t < f w l k)))) ∧
  (∀ (s : State) (w : Wave) (i : Instr) (p : Pred) (d : MReg) (c : Wave → Nat → Prop),
     Runs s w → Instr.wellFormed s.ir i = true → compares i = some (p, d, c) → Pred.dead p = false →
     ∃ m : W32, exec i s = goesOn s (w.setM d.toNat m) ∧
       ∀ l, l < 32 → (m.getLsbD l = true ↔ isActive s w p l ∧ c w l))

end

namespace Sys2Proof.Claims

open Sys2Proof Sys2Proof.Machine

/-! ### How a word goes on, traps, system registers and control flow (R42-R65, R125, R136-R143, R430-R434) -/

/-- The word completes on `t` and has placed the slots of its wave itself. -/
def goesAt (s t : State) : Out := .next (commit s t false)

/-- A slot that no rule of R50 or R51 moves: it does not run, or it runs and has not reached its RPC. -/
def Settled (x : Slot) : Prop := x.valid = false ∨ (x.parked = false ∧ x.rpc ≠ some x.pc)

/-- The windows after a word of slot `b`: each window of the slot lets one word less run, and a window whose instruction has
completed and that lets no word run any more is gone (R55). -/
def countedDown (ws : List Window) (b : Bool) : List Window :=
  (ws.map (fun x => if x.slotB = b then { x with left := x.left - 1 } else x)).filter (fun x => !(x.done && x.left == 0))

/-- The record of what the wave has issued, after a word of slot `b` (R326). -/
def issuedOne (w : Wave) (r : WaveRun) (b : Bool) : WaveRun :=
  { r with
    lastSlotB := b
    issued := r.issued + 1
    holdSplit := false
    skid := if waitedBefore w b then r.skid else r.skid.map (· + 1) }

/-- The slot of a word goes on at the next word, and the count of the word's faults ends (R409). -/
def nextWord (x : Slot) : Slot := { x with pc := x.pc + 8, wait := none, faults := 0 }

/-- A slot goes on at another word, and its windows end (R57). -/
def jumpTo (x : Wave) (b : Bool) (target : W64) : Wave :=
  { x.setSlot b { x.slot b with pc := target, wait := none } with
    windows := (x.windows.map (fun y => if y.slotB = b then { y with left := 0 } else y)).filter
      (fun y => !(y.done && y.left == 0)) }

/-- The transfers whose target is an offset from the word (R138-R140): the predicate, whether the branch is made, what else
the word writes, the offset. -/
def offsetJump (s : State) : Instr → Option (Pred × (Wave → Bool) × (Wave → Wave) × BitVec 28)
  | .bru p off => some (p, fun _ => true, fun w => w, off)
  | .jmp p off => some (p, fun _ => true, fun w => w, off)
  | .call p d off => some (p, fun _ => true, fun w => w.setS d.toNat ((w.slot s.slotB).pc + 8), off)
  | .loop p d off => some (p, fun w => w.getS d.toNat != 0, fun w => w, off)
  | _ => none

/-- The transfers whose target stands in a register (R139): the predicate, the register, what else the word writes. -/
def registerJump (s : State) : Instr → Option (Pred × SReg × (Wave → Wave))
  | .jmpReg p sa => some (p, sa, fun w => w)
  | .callReg p d sa => some (p, sa, fun w => w.setS d.toNat ((w.slot s.slotB).pc + 8))
  | .ret p sa => some (p, sa, fun w => w)
  | _ => none

/-- R139: the page that holds `x` is present and the wave may execute it. -/
def Executable (s : State) (w : Wave) (x : W64) : Prop :=
  ∃ q, (partOf s (waveAgent w s.cur) .exec x.toNat 8).page = .ok q

/-- The faulting lanes of a branch that is not uniform in its slot. -/
def notUniform (lanes : W32) : Raise := { cause := .illegalField, lanes := lanes, detail := 7 }

/-- The slot of a BR that splits: its lanes that are not taken go on at the next word, up to the reconvergence PC (R48). -/
def staySlot (x : Slot) (taken : W32) (r : W64) : Slot :=
  { x with mask := x.mask &&& ~~~ taken, pc := x.pc + 8, rpc := some r, wait := none }

/-- The user-mode system registers that hold a value (R45), and those of system mode (R430). -/
def regValue (s : State) (w : Wave) (idx : Nat) : Option W64 :=
  [(0x00, BitVec.ofNat 64 (w.place.core % 64 * 2 ^ 8 + w.place.part * 2 ^ 6 + w.place.num)),
   (0x01, w.sys.gkey), (0x02, w.sys.role), (0x03, w.sys.fpctl.setWidth 64), (0x04, w.sys.fpstat.setWidth 64),
   (0x05, w.sys.bound), (0x06, w.sys.txstat), (0x07, w.sys.uivec), (0x08, w.sys.ropepart), (0x09, w.sys.priv),
   (0x0A, BitVec.ofNat 64 (w.stack.length * 2 ^ 8 + w.slotB.parked.toNat * 8 + w.slotB.valid.toNat * 4
      + w.slotA.parked.toNat * 2 + w.slotA.valid.toNat)),
   (0x0B, w.exited.setWidth 64), (0x0C, (s.core w.place.core).clock), (0x0D, w.sys.launch.setWidth 64),
   (0x80, w.sys.sysvec), (0x81, (0 : W64)), (0x82, w.sys.ctxsel), (0x83, BitVec.ofNat 64 w.sys.inHandler.toNat)].lookup idx

/-- The wave belongs to no group, and no group of its cluster is without members (R348). -/
def Ungrouped (s : State) (w : Wave) : Prop :=
  s.groupOf w = none ∧ ∀ g ∈ (s.cluster w.place.cluster).groups,
    g.members.isEmpty = false ∧ ¬ (g.ctx = w.place.ctx ∧ g.key = w.sys.gkey)

/-- A register that a wave of this mode may name (R45). -/
def mayName (w : Wave) (idx : Nat) : Bool := decide (idx < 0x80) || w.place.ctx == 0

/-- The registers of a wave after an MTSR that is not to WAKE (R45, R125, R430); a read-only register keeps its value. -/
def written (r : SysRegs) (idx : Nat) (x : W64) : SysRegs :=
  match idx with
  | 0x02 => { r with role := x &&& 7 }
  | 0x03 => { r with fpctl := x.setWidth 32 &&& 0x000703FF }
  | 0x04 => { r with fpstat := r.fpstat &&& ~~~ x.setWidth 32 }
  | 0x05 => { r with bound := x }
  | 0x07 => { r with uivec := x }
  | 0x08 => { r with ropepart := x &&& 0xFFFFFF }
  | 0x80 => { r with sysvec := x }
  | 0x82 => { r with ctxsel := x &&& 0xFF }
  | _ => r

/-- Nothing of the wave is under way: no word waits, no window is open, no operation is pending, no transaction is open, the
divergence stack is empty and the wave belongs to no group. -/
structure Quiet (s : State) (w : Wave) : Prop where
  noWindows : w.windows = []
  noWaits : w.slotA.wait = none ∧ w.slotB.wait = none
  noSync : w.sync = []
  noOps : pendingOps s s.cur = []
  noneAbandoned : w.abandoned = []
  noGroup : s.groupOf w = none
  noStack : w.stack = []
  noTx : w.tx = none

/-- A slot in a trap frame (R62): PC - faulting PC in words, parked, valid, mask. -/
def framed (x : Slot) (pc : W64) : Nat :=
  let off : Int := (x.pc - pc).toInt / 8
  if x.valid then (if -(2 ^ 29) < off ∧ off < 2 ^ 29 then (off % 2 ^ 30).toNat else 2 ^ 29) * 2 ^ 34
    + x.parked.toNat * 2 ^ 33 + 2 ^ 32 + x.mask.toNat
  else 0

/-- The trap frame of R62 and R63 for a cause of kind P of a wave outside every group. -/
def trapFrame (w : Wave) (r : Raise) (b : Bool) (pc word : W64) : List Byte :=
  leBytes 8 (r.detail % 256 * 2 ^ 16 + r.pairY.toNat * 2 ^ 11 + b.toNat * 2 ^ 8 + r.cause.code)
    ++ leBytes 8 pc.toNat ++ leBytes 8 (framed w.slotA pc) ++ leBytes 8 (framed w.slotB pc) ++ leBytes 8 r.addr.toNat
    ++ leBytes 4 r.lanes.toNat ++ leBytes 4 0 ++ leBytes 8 w.sys.gkey.toNat ++ leBytes 8 word.toNat ++ leBytes 8 0
    ++ List.replicate 56 0

/-- The slot of the trapped word (R65): TRAP and BRK go on at the next word, any other cause of kind P at the word itself. The
count of the word's page faults ends (R409). -/
def trapSlot (w : Wave) (r : Raise) (b : Bool) : Wave :=
  let x := w.slot b
  w.setSlot b (if x.valid ∧ (r.cause = .softwareTrap ∨ r.cause = .breakpoint) then { x with pc := x.pc + 8, faults := 0 }
    else { x with faults := 0 })

/-- The causes of R21 that keep the flags which their word set. -/
def flagCauses : List Cause := [.fpTrap, .scaleNan, .outlierEscape]

/-- The word takes the cause `r` of R21: its flags `f` stand in FPSTAT, and nothing else of its effect stands (R21, R64). -/
def flagTraps (s : State) (w : Wave) (f : W32) (r : Raise) : Out := .next (trapWord s (s.setWave s.cur (flagged w f)) r)

/-- The record of a trap for the Owl (R60, R189). -/
def trapRecord (w : Wave) (c : Cause) (i : Nat) : EventRec :=
  { kind := 4, wave := w.place.num, token := 0, cause := c, data := 0, addr := w.sys.priv, who := i }

/-- A slot in the handler's save area (R432, R335). -/
def slotImage (x : Slot) : List Byte :=
  leBytes 8 x.pc.toNat ++ leBytes 8 (match x.rpc with
    | none => 2 ^ 64 - 1
    | some r => r.toNat) ++ leBytes 8 (x.parked.toNat * 2 ^ 33 + x.valid.toNat * 2 ^ 32 + x.mask.toNat)

/-- The wave enters its system trap handler and does not halt (R432). -/
def handled (w : Wave) : Prop := w.place.ctx = 0 ∧ w.sys.sysvec ≠ 0 ∧ w.sys.inHandler = false

/-- The words that take a trap when active(S) is not empty (R143). -/
def trapCause (ir : W64) : Instr → Option (Cause × Nat)
  | .trap => some (.softwareTrap, (ir.extractLsb' 0 8).toNat)
  | .brk => some (.breakpoint, 0)
  | _ => none

/-- A wave that was not retired is killed (R433): it retires with no lane left. -/
def Killed (y : Wave) : Prop :=
  y.run.status = .retiring ∧ y.run.killed = true ∧ y.slotA.valid = false ∧ y.slotB.valid = false

/-- A wave that WAKE can name (R430): the first halted, stopped or sleeping wave whose PRIV has the bits [55:12]. -/
def Woken (s : State) (x : W64) (j : Nat) (u : Wave) : Prop :=
  s.wave j = some u ∧ wokenWave s x = some j

end Sys2Proof.Claims

section
open Sys2Proof Sys2Proof.Machine Sys2Proof.Claims

/-- R43, R50, R51, R55: what going on does. When no slot of the wave parks or is resolved, the word's own slot goes on at
PC + 8 (or stands where the word placed it), its windows let one word less run, and nothing else in the whole state changes:
no register, no flag, no special register, no other wave, no byte of memory. -/
def Obligations.WordPasses : Prop :=
  ∀ (s : State) (w x : Wave), s.wave s.cur = some w → x.windows = w.windows → (x.slot s.slotB).valid = true →
    Settled (x.slot (!s.slotB)) →
    (Settled (nextWord (x.slot s.slotB)) →
      commit s (s.setWave s.cur x) true =
        { s with
          waves := s.waves.set s.cur { x.setSlot s.slotB (nextWord (x.slot s.slotB)) with
            windows := countedDown x.windows s.slotB, run := issuedOne w x.run s.slotB }
          fresh := s.fresh + 1 }) ∧
    (Settled (x.slot s.slotB) →
      commit s (s.setWave s.cur x) false =
        { s with
          waves := s.waves.set s.cur { x.setSlot s.slotB { x.slot s.slotB with faults := 0 } with
            windows := countedDown x.windows s.slotB, run := issuedOne w x.run s.slotB }
          fresh := s.fresh + 1 })

/-- R42, R73, R117, R126, R193: s0 reads zero and discards writes, m0 reads all ones, and a write of any other scalar, mask or
vector register is what the next read finds; every other register keeps its value. -/
def Obligations.RegistersHoldTheirValues : Prop :=
  ∀ w : Wave, Cells.wf 0 w.s = true → Cells.wf 0 w.m = true → Cells.wf 0 w.v = true →
    (∀ x, w.getS 0 = 0 ∧ w.setS 0 x = w ∧ w.getM 0 = 0xFFFFFFFF ∧ w.setM 0 (x.setWidth 32) = w) ∧
    (∀ n k x, n ≠ 0 → (w.setS n x).getS k = if k = n then x else w.getS k) ∧
    (∀ n k x, n ≠ 0 → (w.setM n x).getM k = if k = n then x else w.getM k) ∧
    (∀ n l k j x, l < 32 → j < 32 → (w.setV n l x).getV k j = if k = n ∧ j = l then x else w.getV k j)

/-- R45, R125, R430: MFSR reads every system register, and MTSR writes those that can be written: FPSTAT bit by bit (W1C), ROLE
three bits, FPCTL its defined bits, and no read-only one. Each raises PRIVILEGED for an index of 0x80 or more in user mode
and ILLEGAL_FIELD for an index that names no register. The model's choices in it: that the two causes are raised also while
active(S) is empty (logs 36 and 16), and that UIVEC and SYSVEC are held whole (log 85). (CLOCK's value is a free value of the
model, log 5; a write to ROLE also reaches the wave's group, which this statement takes to be absent.)

R430: a write to WAKE of a system-mode wave. Action 0 lets a wave that HALT stopped go on, and a wave outside every group
that a trap halted resumes at its slots with no operation to issue again; action 1 kills every wave of the named wave's context.
The two rows of the table for WAKE and the MTSR that writes it do the same. The model's choices in it: WAKE names the first
wave, of any context, with that PRIV (log 29), and action 1 kills the whole context (log 27). -/
def Obligations.SystemRegisters : Prop :=
  (∀ (s : State) (w : Wave) (p : Pred) (d a : SReg) (idx : BitVec 8), Runs s w →
     (∀ v, mayName w idx.toNat = true → regValue s w idx.toNat = some v →
       exec (.mfsr p d idx) s = goesOn s (if w.active s.slotB p = 0 then w else w.setS d.toNat v) ∧
       (idx ≠ 0x81 → Ungrouped s w →
         exec (.mtsr p idx a) s = goesOn s (if w.active s.slotB p = 0 then w
           else { w with sys := written w.sys idx.toNat (w.getS a.toNat) }))) ∧
     (mayName w idx.toNat = false →
       exec (.mfsr p d idx) s = traps s { cause := .privileged, lanes := w.active s.slotB p, detail := 2 } ∧
       exec (.mtsr p idx a) s = traps s { cause := .privileged, lanes := w.active s.slotB p, detail := 2 }) ∧
     (mayName w idx.toNat = true → regValue s w idx.toNat = none →
       exec (.mfsr p d idx) s = traps s { cause := .illegalField, lanes := w.active s.slotB p, detail := 3 } ∧
       exec (.mtsr p idx a) s = traps s { cause := .illegalField, lanes := w.active s.slotB p, detail := 2 })) ∧
  (∀ (s : State) (w u : Wave) (j : Nat) (p : Pred) (a : SReg), Runs s w → w.place.ctx = 0 → w.active s.slotB p ≠ 0 →
     Woken s (w.getS a.toNat) j u →
     ((w.getS a.toNat).toNat % 4 = 0 → u.run.status = .asleep →
       exec (.mtsr p 0x81 a) s = goesTo s (s.updWave j (fun y => { y with run := { y.run with status := .running } }))) ∧
     ((w.getS a.toNat).toNat % 4 = 0 → u.run.status = .halted → s.groupOf u = none → u.abandoned = [] →
       u.machineChecked = false → u.run.evicted = false →
       Settled u.slotA → Settled u.slotB → (u.slotA.valid = true ∨ u.slotB.valid = true) →
       exec (.mtsr p 0x81 a) s = goesTo s (s.updWave j (fun y => { y with
         abandoned := []
         run := { y.run with
           status := if (y.run.trap.map (·.asleep)) = some true then .asleep else .running
           trap := none } }))) ∧
     ((w.getS a.toNat).toNat % 4 = 1 → ∃ t, exec (.mtsr p 0x81 a) s = goesTo s t ∧
       ∀ k v, s.wave k = some v → v.place.ctx = u.place.ctx → v.run.status ≠ .retiring → v.run.status ≠ .gone →
         ∃ y, t.wave k = some y ∧ Killed y) ∧
     (p = wordPred s.ir → a = s.ir.extractLsb' 21 6 →
       ((w.getS a.toNat).toNat % 4 = 0 → exec .wakeResume s = exec (.mtsr p 0x81 a) s) ∧
       ((w.getS a.toNat).toNat % 4 = 1 → exec .wakeKill s = exec (.mtsr p 0x81 a) s)))

/-- R48, R49, R57, R137: BR. Nothing taken: the slot goes on. The whole slot: it goes on at the target. Otherwise the slot
splits: a join entry is pushed, and the taken lanes go to the free slot or, when it is busy, to a pending entry; with d = 0 it
raises ILLEGAL_FIELD and without room on the stack DIVERGE_OVERFLOW. -/
def Obligations.BranchAndSplit : Prop :=
  ∀ (s : State) (w : Wave) (p : Pred) (dist : BitVec 11) (off : BitVec 28), Runs s w → w.windows = [] →
    let x := w.slot s.slotB
    let y := w.slot (!s.slotB)
    let taken := w.active s.slotB p
    let target := x.pc + 8 * off.signExtend 64
    let r := x.pc + 8 * dist.setWidth 64
    (taken = 0 → exec (.br p dist off) s = goesOn s w) ∧
    (taken ≠ 0 → taken = x.mask → exec (.br p dist off) s = goesAt s (s.setWave s.cur (jumpTo w s.slotB target))) ∧
    (taken ≠ 0 → taken ≠ x.mask → dist = 0 → exec (.br p dist off) s = traps s (notUniform taken)) ∧
    (taken ≠ 0 → taken ≠ x.mask → dist ≠ 0 → 64 < w.stack.length + (if y.valid then 2 else 1) →
      exec (.br p dist off) s = traps s { cause := .divergeOverflow, lanes := taken, detail := 0 }) ∧
    (taken ≠ 0 → taken ≠ x.mask → dist ≠ 0 → y.valid = false → w.stack.length < 64 →
      exec (.br p dist off) s = goesAt s (s.setWave s.cur
        (({ w with stack := .join r x.mask x.rpc :: w.stack }.setSlot (!s.slotB) (Slot.running target taken (some r))).setSlot
          s.slotB (staySlot x taken r)))) ∧
    (taken ≠ 0 → taken ≠ x.mask → dist ≠ 0 → y.valid = true → w.stack.length < 63 →
      exec (.br p dist off) s = goesAt s (s.setWave s.cur
        ({ w with stack := .pending target taken r :: .join r x.mask x.rpc :: w.stack }.setSlot s.slotB (staySlot x taken r))))

/-- R136, R138, R140 and the offset forms of R139: with no lane taken the word has no effect; with all of the slot's lanes the
slot goes on at PC + 8 * sext(offset) (LOOP only while its counter, which it does not change, is not 0), and CALL writes the
link; any other set of lanes raises ILLEGAL_FIELD with DETAIL 7.

R136 with the register forms of R139: the target is checked before anything is written, and CALL reads it before it writes
the link. A misaligned target raises INDIRECT_TARGET with DETAIL 1, one above 56 bits with DETAIL 2 and one on no executable
page with DETAIL 3, each with the target as the fault address. -/
def Obligations.UniformBranches : Prop :=
  (∀ (s : State) (w : Wave) (i : Instr) (p : Pred) (c : Wave → Bool) (e : Wave → Wave) (off : BitVec 28),
     Runs s w → offsetJump s i = some (p, c, e, off) →
     let x := w.slot s.slotB
     let taken := w.active s.slotB p
     (taken = 0 → exec i s = goesOn s w) ∧
     (taken ≠ 0 → taken = x.mask → c w = true →
       exec i s = goesAt s (s.setWave s.cur (jumpTo (e w) s.slotB (x.pc + 8 * off.signExtend 64)))) ∧
     (taken ≠ 0 → taken = x.mask → c w = false → exec i s = goesOn s w) ∧
     (taken ≠ 0 → taken ≠ x.mask → exec i s = traps s (notUniform taken))) ∧
  (∀ (s : State) (w : Wave) (i : Instr) (p : Pred) (sa : SReg) (e : Wave → Wave),
     Runs s w → registerJump s i = some (p, sa, e) →
     let x := w.slot s.slotB
     let taken := w.active s.slotB p
     let target := w.getS sa.toNat
     (taken = 0 → exec i s = goesOn s w) ∧
     (taken ≠ 0 → taken ≠ x.mask → exec i s = traps s (notUniform taken)) ∧
     (taken ≠ 0 → taken = x.mask →
       (target.toNat % 8 = 0 → target.toNat < 2 ^ 56 → Executable s w target →
         exec i s = goesAt s (s.setWave s.cur (jumpTo (e w) s.slotB target))) ∧
       (target.toNat % 8 ≠ 0 →
         exec i s = traps s { cause := .indirectTarget, lanes := taken, detail := 1, addr := target }) ∧
       (target.toNat % 8 = 0 → 2 ^ 56 ≤ target.toNat →
         exec i s = traps s { cause := .indirectTarget, lanes := taken, detail := 2, addr := target }) ∧
       (target.toNat % 8 = 0 → target.toNat < 2 ^ 56 → ¬ Executable s w target →
         exec i s = traps s { cause := .indirectTarget, lanes := taken, detail := 3, addr := target })))

/-- R21, R60, R62, R63, R65: a cause of kind P taken by a wave that has nothing under way and belongs to no group. The frame is
written at PRIV, a trap record is queued on the core, the wave halts with its slots as R65 says, and nothing else changes: no
register that the word named. Only a cause of R21 keeps the flags `f` that the word raised. The model's choices in it: an
invalid slot is written as 0 in the frame and the slots hold their PCs as R65 leaves them (log 23), and the frame's bytes reach
memory through the page that holds PRIV (log 14).

R432: a system-mode wave with SYSVEC set does not halt: it writes its frame, saves both slots and the depth at
PRIV + 0x800, sets INHANDLER, and goes on in slot A at SYSVEC with every lane that has not exited; the flags of a cause of R21
stand in FPSTAT. The model's choices in it: the layout of the 64 bytes of the save area (log 24), an invalid slot written as 0
in the frame (log 23), the page through which they reach memory (log 14), the fault counts of the two slots kept aside, and
SYSVEC taken unmasked (log 85). -/
def Obligations.TakingATrap : Prop :=
  (∀ (s t : State) (w v : Wave) (f : W32) (r : Raise) (q : Page), s.wave s.cur = some w → Quiet s w → ¬ handled w →
     r.kind = .p → r.cause ≠ .pageNotPresent → r.eng = false → walk s w.place.ctx w.sys.priv.toNat = .ok q → w.sys.priv.toNat % 4096 = 0 →
     t.wave s.cur = some v → v.sys.fpstat = (flagged w f).sys.fpstat → (r.cause ∉ flagCauses → f = 0) →
     let pc := (w.slot s.slotB).pc
     let x := trapSlot (flagged w f) r s.slotB
     trapWord s t r =
       { s with
         mem := s.mem.writeN q.pa (trapFrame x r s.slotB pc s.ir)
         waves := s.waves.set s.cur { x with run := { x.run with
           status := .halted
           skid := none
           haltDue := false
           limit := none
           holdSplit := true
           trap := some { cause := r.cause, eng := false, pc := pc, slotB := s.slotB, orig := false, fromOp := false,
                          resumed := false, asleep := w.run.status == .asleep } } }
         cores := updAt s.cores w.place.core (fun c => c.record (trapRecord w r.cause s.cur))
         fresh := s.fresh + 1 }) ∧
  (∀ (s t : State) (w v : Wave) (f : W32) (r : Raise) (q q' : Page), s.wave s.cur = some w → Quiet s w → handled w →
     r.kind = .p → r.cause ≠ .pageNotPresent → r.eng = false → walk s w.place.ctx w.sys.priv.toNat = .ok q → w.sys.priv.toNat % 4096 = 0 →
     t.wave s.cur = some v → v.sys.fpstat = (flagged w f).sys.fpstat → (r.cause ∉ flagCauses → f = 0) →
     let pc := (w.slot s.slotB).pc
     let x := trapSlot (flagged w f) r s.slotB
     let frame := trapFrame x r s.slotB pc s.ir
     walk (s.writePA q.pa frame) w.place.ctx (w.sys.priv.toNat + 0x800) = .ok q' →
     trapWord s t r =
       { s with
         mem := (s.mem.writeN q.pa frame).writeN q'.pa (slotImage x.slotA ++ slotImage x.slotB ++ leBytes 8 0 ++ leBytes 8 0)
         waves := s.waves.set s.cur { x with
           sys := { x.sys with inHandler := true }
           slotA := { valid := true, parked := false, pc := w.sys.sysvec, mask := ~~~ w.exited, rpc := none, wait := none }
           slotB := { valid := false, parked := false, pc := 0, mask := 0, rpc := none, wait := none }
           run := { x.run with holdSplit := true, heldFaults := (x.slotA.faults, x.slotB.faults) } }
         fresh := s.fresh + 1 })

/-- R143, R65: TRAP takes SOFTWARE_TRAP with its code as DETAIL and BRK takes BREAKPOINT, for the lanes of active(S), and
without an active lane neither has an effect. The state that each reaches is that of `TakingATrap`: the frame holds the PC of
the word itself and the slot stands at the next word. -/
def Obligations.TrapWords : Prop :=
  ∀ (s : State) (w : Wave) (i : Instr) (c : Cause) (detail : Nat), Runs s w → trapCause s.ir i = some (c, detail) →
    (w.active s.slotB (wordPred s.ir) = 0 → exec i s = goesOn s w) ∧
    (w.active s.slotB (wordPred s.ir) ≠ 0 →
      exec i s = traps s { cause := c, lanes := w.active s.slotB (wordPred s.ir), detail := detail })

end

namespace Sys2Proof.Claims

open Sys2Proof Sys2Proof.Machine

/-! ### Vector float words (R11-R24, R33, R35, R144-R159) -/

/-- A register that holds elements: element k stands at bit w * k (R9). -/
def pack (t : EType) (f : Nat → Nat) : W32 :=
  BitVec.ofNat 32 (((List.range (32 / wid t)).map (fun k => f k % 2 ^ wid t * 2 ^ (wid t * k))).sum)

/-- The flags of all elements of a lane (R19). -/
def flagsOf (t : EType) (f : Nat → W32) : W32 := ((List.range (32 / wid t)).map f).foldl (· ||| ·) 0

/-- What a float word computes in a lane: values for registers, and flags. -/
abbrev LaneResult := List (Nat × W32) × W32

/-- A word that computes element by element (R144). -/
def fltRow (p : Pred) (t : EType) (d : VReg) (f : Wave → Nat → Nat → Nat × W32) :
    Option (Pred × (Wave → Nat → LaneResult)) :=
  some (p, fun w l => ([(d.toNat, pack t (fun k => (f w l k).1))], flagsOf t (fun k => (f w l k).2)))

/-- A word that computes one value in each lane. -/
def wordRow (p : Pred) (f : Wave → Nat → LaneResult) : Option (Pred × (Wave → Nat → LaneResult)) := some (p, f)

/-- Binary operations of R145 on encodings: under FPCTL.RM and FPCTL.FTZ (R17, R18). -/
abbrev FltOp := EType → Rm → Bool → Nat → Nat → Nat × W32

def fltBinRow (o : VBin) (f : FltOp) : Option (Pred × (Wave → Nat → LaneResult)) :=
  fltRow o.p o.t o.d (fun w l k => f o.t w.rm w.ftz (src o.t o.ma (w.getV o.a.toNat l) k) (src o.t o.mb (w.getV o.b.toNat l) k))
def fltImmRow (o : VImm) (f : FltOp) : Option (Pred × (Wave → Nat → LaneResult)) :=
  fltRow o.p o.t o.d (fun w l k => f o.t w.rm w.ftz (el o.t (w.getV o.a.toNat l) k) (immEl o.t false o.imm))

/-- A 32-bit operand after its modifier. -/
def src32 (code : BitVec 3) (x : W32) : W32 := BitVec.ofNat 32 (src .f32 code x 0)

/-- The exact sum of products of VFDOT2 (R157): d + a0 * b0 + a1 * b1, rounded once. -/
def dot2 (w : Wave) (o : VBin) (l : Nat) : Nat × W32 :=
  let x (r : VReg) (c : BitVec 3) (k : Nat) : FVal := Fmt.bf16.decodeFtz w.ftz (src .bf16 c (w.getV r.toNat l) k)
  let p0 := FVal.mul (x o.a o.ma 0) (x o.b o.mb 0)
  let p1 := FVal.mul (x o.a o.ma 1) (x o.b o.mb 1)
  let sum := sumExact w.rm [Fmt.fp32.decodeFtz w.ftz (w.getV o.d.toNat l).toNat, p0.1, p1.1]
  let r := roundVal Fmt.fp32 w.rm w.ftz sum.1
  (r.1, r.2 ||| ivIf (sum.2 || p0.2 || p1.2))

/-- The 16 products of VDOT16 (R158): bytes of four registers of A and four of B, as E4M3. -/
def dot16Terms (w : Wave) (a b : VReg) (l : Nat) : List FVal :=
  (List.range 16).map (fun n => (FVal.mul (Fmt.e4m3.decode (el .n8 (w.getV (a.toNat + n / 4) l) (n % 4)))
    (Fmt.e4m3.decode (el .n8 (w.getV (b.toNat + n / 4) l) (n % 4)))).1)

/-- The vector float words that are not long-latency: their predicate, and what each computes in a lane. -/
def floatResult : Instr → Option (Pred × (Wave → Nat → LaneResult))
  | .vfadd o => fltBinRow o Flt.add
  | .vfaddI o => fltImmRow o Flt.add
  | .vfsub o => fltBinRow o Flt.sub
  | .vfsubI o => fltImmRow o Flt.sub
  | .vfmul o => fltBinRow o Flt.mul
  | .vfmulI o => fltImmRow o Flt.mul
  | .vfmin o => fltBinRow o Flt.min
  | .vfminI o => fltImmRow o Flt.min
  | .vfmax o => fltBinRow o Flt.max
  | .vfmaxI o => fltImmRow o Flt.max
  | .vfma o => fltRow o.p o.t o.d (fun w l k => Flt.fma o.t w.rm w.ftz (src o.t o.ma (w.getV o.a.toNat l) k)
      (src o.t o.mb (w.getV o.b.toNat l) k) (el o.t (w.getV o.d.toNat l) k))
  | .vfcls o => fltRow o.p o.t o.d (fun w l k => (2 ^ fclass o.t.fmt (src o.t o.ma (w.getV o.a.toNat l) k), 0))
  | .vfrnd o rm => fltRow o.p o.t o.d (fun w l k =>
      fround o.t.fmt (RndSel.mode rm w.rm) w.ftz (src o.t o.ma (w.getV o.a.toNat l) k))
  | .vadd2 o => wordRow o.p (fun w l =>
      let r := pairAdd (src32 o.ma (w.getV o.a.toNat l)) (src32 o.ma (w.getV (o.a.toNat + 1) l)) (src32 o.mb (w.getV o.b.toNat l))
      ([(o.d.toNat, r.1), (o.d.toNat + 1, r.2.1)], r.2.2))
  | .vfma2 o => wordRow o.p (fun w l =>
      let r := pairFma (w.getV o.d.toNat l) (w.getV (o.d.toNat + 1) l) (src32 o.ma (w.getV o.a.toNat l))
        (src32 o.mb (w.getV o.b.toNat l))
      ([(o.d.toNat, r.1), (o.d.toNat + 1, r.2.1)], r.2.2))
  | .vscl o => fltRow o.p o.t o.d (fun w l k =>
      scaleElem o.t w.rm w.ftz (el .n8 (w.getV o.b.toNat l) 0) (src o.t o.ma (w.getV o.a.toNat l) k))
  | .vsclI p t d a code => fltRow p t d (fun w l k => scaleElem t w.rm w.ftz code.toNat (el t (w.getV a.toNat l) k))
  | .vfdot2 o => wordRow o.p (fun w l => ([(o.d.toNat, BitVec.ofNat 32 (dot2 w o l).1)], (dot2 w o l).2))
  | .vdot16 p d a b => wordRow p (fun w l => ([(d.toNat,
      rne32 (FVal.add rmRNE (val32 (w.getV d.toNat l)) (val26 (gsum 0 (dot16Terms w a b l)))).1)], 0))
  | _ => none

/-- The lanes of active(S) that raise one of some flags. -/
def flagLanes (s : State) (w : Wave) (p : Pred) (g : Nat → W32) (m : W32) : W32 :=
  maskOf (fun l => (w.active s.slotB p).getLsbD l && g l &&& m != 0)

/-- The flags of all lanes of active(S). -/
def gathered (s : State) (w : Wave) (p : Pred) (g : Nat → W32) : W32 :=
  ((lanesOf (w.active s.slotB p)).map g).foldl (· ||| ·) 0

/-- The flags whose trap FPCTL enables, at their places in FPSTAT (R18, R19), and those that may trap at all. -/
def fpEnabled (w : Wave) : W32 := (w.sys.fpctl >>> 2) &&& 0x1F
def mayTrap (w : Wave) : W32 :=
  fpEnabled w ||| (if w.sys.fpctl.getLsbD 8 then 0x100 else 0) ||| (if w.sys.fpctl.getLsbD 9 then 0x200 else 0)

/-- R21, R24, R59: the cause of a word whose lanes raised flags (`lanes m`: those that raised one of the flags `m`): FP_TRAP for
an enabled one, else SCALE_NAN, else OUTLIER_ESCAPE, each for exactly the lanes that raised it. -/
def flagCause (w : Wave) (lanes : W32 → W32) : Option Raise :=
  if lanes (fpEnabled w) ≠ 0 then some { cause := .fpTrap, lanes := lanes (fpEnabled w) }
  else if w.sys.fpctl.getLsbD 8 = true ∧ lanes 0x100 ≠ 0 then some { cause := .scaleNan, lanes := lanes 0x100 }
  else if w.sys.fpctl.getLsbD 9 = true ∧ lanes 0x200 ≠ 0 then some { cause := .outlierEscape, lanes := lanes 0x200 }
  else none

/-- R21: a word whose lanes raised the flags `f`. Without a cause `c` it completes with the wave `done`. With one it takes the
cause, FPSTAT receives the flags, and no destination is written. -/
def FlagEnds (s : State) (w : Wave) (i : Instr) (f : W32) (c : Option Raise) (done : Wave) : Prop :=
  (c = none → exec i s = goesOn s (flagged done f)) ∧ (∀ r, c = some r → exec i s = flagTraps s w f r)

/-- The wave after a word that writes registers lane by lane. -/
def lanesWritten (s : State) (w : Wave) (p : Pred) (f : Nat → LaneResult) : Wave :=
  (lanesOf (w.active s.slotB p)).foldl (fun x l => (f l).1.foldl (fun x e => x.setV e.1 l e.2) x) w

/-- A long-latency word has issued (R55): with LA = 0 its writes take effect; otherwise a window holds them. -/
def heldBy (s : State) (w : Wave) (la : BitVec 4) (ds ss : List Reg) (ws : List RegWrite) : Wave :=
  if la = 0 then applyWrites w ws
  else { w with windows := w.windows ++
    [{ slotB := s.slotB, left := la.toNat, done := false, dests := ds, srcs := ss, writes := ws }] }

/-- The writes of a vector word, lane by lane. -/
def laneWrites (s : State) (w : Wave) (p : Pred) (f : Nat → LaneResult) : List RegWrite :=
  (lanesOf (w.active s.slotB p)).flatMap (fun l => (f l).1.map (fun e => RegWrite.v e.1 l e.2))

/-- The special functions of R150 on the exact value of an FP32 operand. -/
def special : Instr → Option (SpecOp × (FVal → Nat × W32))
  | .vrcp o => some (o, rcpCr)
  | .vrsq o => some (o, rsqCr)
  | .vsqrt o => some (o, sqrtCr)
  | .vexp2 o => some (o, exp2Cr)
  | .vlog2 o => some (o, log2Cr)
  | .vtanh o => some (o, tanhCr)
  | .vsigm o => some (o, sigmCr)
  | .vsinpi o => some (o, sinpiCr)
  | .vcospi o => some (o, cospiCr)
  | _ => none

/-- The bands of ROPEPART (R45, R159): time, height and width, in channel pairs. -/
def bandT (w : Wave) : Nat := (w.sys.ropepart.toNat / 2 ^ 16) % 2 ^ 8
def bandH (w : Wave) : Nat := (w.sys.ropepart.toNat / 2 ^ 8) % 2 ^ 8
def bandW (w : Wave) : Nat := w.sys.ropepart.toNat % 2 ^ 8

/-- VROPE3 of one lane (R159): x and y, the positions t, h and w, the frequency and the pair's index stand in seven registers
from va; a pair beyond the bands passes. -/
def rope (w : Wave) (d a : VReg) (l : Nat) : LaneResult :=
  let x (k : Nat) : W32 := w.getV (a.toNat + k) l
  let i := (x 6).toNat
  let r : (W32 × W32) × W32 :=
    if i < bandT w then ropeLane (x 2) (x 5) (x 0) (x 1)
    else if i < bandT w + bandH w then ropeLane (x 3) (x 5) (x 0) (x 1)
    else if i < bandT w + bandH w + bandW w then ropeLane (x 4) (x 5) (x 0) (x 1)
    else ((x 0, x 1), 0)
  ([(d.toNat, r.1.1), (d.toNat + 1, r.1.2)], r.2)

/-- The compares of R146: the condition on element 0 and its flags. -/
def fcompares : Instr → Option (Pred × MReg × FCond × (Wave → Nat → FVal × FVal))
  | .vfcmp o => some (o.p, o.md, o.c, fun w l =>
      (o.t.fmt.decodeFtz w.ftz (src o.t o.ma (w.getV o.a.toNat l) 0), o.t.fmt.decodeFtz w.ftz (src o.t o.mb (w.getV o.b.toNat l) 0)))
  | .vfcmpI o => some (o.p, o.md, o.c, fun w l =>
      (o.t.fmt.decodeFtz w.ftz (el o.t (w.getV o.a.toNat l) 0), o.t.fmt.decodeFtz w.ftz (immEl o.t false o.imm)))
  | _ => none

/-- The table of R146 for numbers, infinities and NaNs: whether the condition holds, and whether IV is set. -/
def fmeets (c : FCond) (x y : FVal) : Bool × Bool :=
  let nan := x.isNan || y.isNan
  let sig := x.isSnan || y.isSnan
  let r := FVal.cmp x y
  match c with
  | .eq => (!nan && r == 0, sig)
  | .ne => (nan || r != 0, sig)
  | .lt => (!nan && decide (r < 0), nan)
  | .le => (!nan && decide (r ≤ 0), nan)
  | .gt => (!nan && decide (r > 0), nan)
  | .ge => (!nan && decide (r ≥ 0), nan)
  | .un => (nan, sig)
  | .ord => (!nan, sig)

/-- The conversion of R151: how many elements it converts, which source element each takes and which destination element it
becomes (the part selects the half or the quarter of the wider count). -/
def cvtCount (o : Cvt) : Nat := min (32 / wid o.dst) (32 / wid o.src)
def cvtFrom (o : Cvt) (k : Nat) : Nat := if 32 / wid o.dst < 32 / wid o.src then k + o.part.toNat * cvtCount o else k
def cvtTo (o : Cvt) (k : Nat) : Nat := if 32 / wid o.src < 32 / wid o.dst then k + o.part.toNat * cvtCount o else k
def cvtOne (w : Wave) (o : Cvt) (l k : Nat) : Nat × W32 :=
  convert o.src o.dst (if o.rz then rmRZ else w.rm) w.ftz o.sat o.ovnan (src o.src o.ma (w.getV o.a.toNat l) (cvtFrom o k))

/-- The number that a finite value stands for. -/
def ratio (n : Bool) (m : Nat) (e : Int) : Rat :=
  let x : Rat := if 0 ≤ e then ((m * 2 ^ e.toNat : Nat) : Rat) else (m : Rat) / ((2 ^ (-e).toNat : Nat) : Rat)
  if n then -x else x

/-- The magnitude of a number. -/
def mag (x : Rat) : Rat := if x < 0 then -x else x

/-- `b` encodes a finite number of the format, the number `z`. -/
def Encodes (f : Fmt) (b : Nat) (z : Rat) : Prop :=
  b < 2 * f.signBit ∧ ∃ n m e, f.decode b = .num n m e ∧ z = ratio n m e

/-- The encoding that the group scale of R154 gives for the active lanes. -/
def scaleOf (s : State) (w : Wave) (p : Pred) (a : VReg) : W32 :=
  BitVec.ofNat 32 (groupScale ((lanesOf (w.active s.slotB p)).map (fun l => Fmt.fp32.decode (w.getV a.toNat l).toNat)))

/-- The 32 values of VCVQ4 after the division by the scale (R35); an inactive lane counts as zero. -/
def q4Inputs (s : State) (w : Wave) (p : Pred) (a : VReg) (sc : Nat) : List FVal :=
  (List.range 32).map (fun l => if (w.active s.slotB p).getLsbD l then unscaled (Fmt.fp32.decodeFtz w.ftz (w.getV a.toNat l).toNat) sc
    else .num false 0 0)

/-- The active lanes whose signalling NaN VCVQ4 converts (R15): not those that stand behind a marker. -/
def q4Signals (s : State) (w : Wave) (p : Pred) (a : VReg) (dropped : W32) : W32 :=
  maskOf (fun l => (w.active s.slotB p).getLsbD l && !dropped.getLsbD l && (Fmt.fp32.decode (w.getV a.toNat l).toNat).isSnan)

/-- The scale byte of a Q4 word. -/
def q4Scale (w : Wave) (sb : SReg) : Nat := (w.getS sb.toNat).toNat % 256

/-- What VCVQ4 leaves in lane l (R35): the slots, the dropped mask, the clip mask, the scale. -/
def q4Lane (slots : Nat → Nat) (dropped clip : W32) (sc l : Nat) : W32 :=
  if l < 4 then pack .n4 (fun k => slots (8 * l + k))
  else if l = 4 then dropped else if l = 5 then clip else if l = 6 then BitVec.ofNat 32 sc else 0

/-- The 32 slots of a Q4 group: the nibbles of lanes 0 to 3 of va (R33). -/
def q4Slots (w : Wave) (a : VReg) : List Nat := (List.range 32).map (fun k => el .n4 (w.getV a.toNat (k / 8)) (k % 8))

end Sys2Proof.Claims

section
open Sys2Proof Sys2Proof.Machine Sys2Proof.Claims

/-- R16, R17, R19, R20 for a result that does not overflow, without FTZ: the encoding delivered is the one the rounding mode
names among all finite encodings of the format (the nearest, with ties to the even encoding; the nearest toward zero; the
least not below; the greatest not above), its sign bit is the sign of the exact value, also where it encodes zero, and NX says
whether it differs from the exact value. With FTZ the encoding is the same, or zero with the sign of the exact value for one that
lies below the smallest normal magnitude, with UF and NX. An exact zero keeps its sign; a sum of zeros of one sign keeps it, and
any other sum that is exactly zero is negative under RD only. -/
def Obligations.RoundingIsCorrect : Prop :=
  ∀ (f : Fmt) (rm : Rm) (neg : Bool) (m : Nat) (e : Int), f ∈ [Fmt.fp32, Fmt.fp16, Fmt.bf16] → rm < 4 →
    let r := roundNum f rm false neg m e false
    let x := ratio neg m e
    let zero : Nat := if neg then f.signBit else 0
    (m = 0 → ∀ ftz, roundNum f rm ftz neg m e false = (zero, 0)) ∧
    (0 < m → r.2 &&& flagOF = 0 →
      (f.signBit ≤ r.1 ↔ neg = true) ∧
      (∃ y, Encodes f r.1 y ∧ (r.2.getLsbD 0 = true ↔ y ≠ x) ∧
        ∀ b z, Encodes f b z →
          (rm = 0 → mag (y - x) ≤ mag (z - x) ∧ (mag (y - x) = mag (z - x) → y ≠ z → r.1 % 2 = 0)) ∧
          (rm = 1 → mag y ≤ mag x ∧ (mag z ≤ mag x → mag z ≤ mag y)) ∧
          (rm = 2 → x ≤ y ∧ (x ≤ z → y ≤ z)) ∧
          (rm = 3 → y ≤ x ∧ (z ≤ x → z ≤ y))) ∧
      (roundNum f rm true neg m e false = r ∨
        (roundNum f rm true neg m e false = (zero, flagUF ||| flagNX) ∧ mag x < ratio false 1 (1 - (f.bias : Int))))) ∧
    (∀ neg' m' e', ratio neg m e + ratio neg' m' e' = 0 →
      ∃ e'', FVal.add rm (.num neg m e) (.num neg' m' e') = (.num (if neg = neg' then neg else rm == 3) 0 e'', false))

/-- R144, R145, R147 to R149, R152, R153, R157, R158 with R19 and R21: in every lane of active(S) the destination holds the
results and FPSTAT gathers the flags of all these lanes. If a lane raised a flag whose trap is enabled, or SN under SNTE, no
destination is written: FP_TRAP, else SCALE_NAN, is taken for exactly the lanes that raised it, and the wave keeps its registers
with only the flags in FPSTAT added.

R146: VFCMP sets the bit of md for each lane of active(S) whose condition holds on element 0 and clears every other bit;
IV is set by a signalling NaN, and by any NaN under the ordering conditions. With IV enabled md keeps its value and FP_TRAP is
taken (R21). -/
def Obligations.FloatWords : Prop :=
  (∀ (s : State) (w : Wave) (i : Instr) (p : Pred) (f : Wave → Nat → LaneResult),
     Runs s w → Instr.wellFormed s.ir i = true → floatResult i = some (p, f) →
     let fl (l : Nat) : W32 := (f w l).2
     FlagEnds s w i (gathered s w p fl) (flagCause w (flagLanes s w p fl)) (lanesWritten s w p (f w))) ∧
  (∀ (s : State) (w : Wave) (i : Instr) (p : Pred) (d : MReg) (c : FCond) (v : Wave → Nat → FVal × FVal),
     Runs s w → Instr.wellFormed s.ir i = true → fcompares i = some (p, d, c, v) → Pred.dead p = false →
     let iv (l : Nat) : W32 := if (fmeets c (v w l).1 (v w l).2).2 then 0x10 else 0
     FlagEnds s w i (gathered s w p iv) (flagCause w (flagLanes s w p iv)) (w.setM d.toNat
       (maskOf (fun l => (w.active s.slotB p).getLsbD l && (fmeets c (v w l).1 (v w l).2).1))))

/-- R21, R23 and R151: VCVT converts elements of va; the elements of vd that it does not name keep their values. With an enabled
flag nothing is written and FP_TRAP is taken.

R15, R18, R21, R33, R35, R154 (VGSCL, VCVQ4, VDQ4): the scale of a group in every active lane; the slots, the dropped mask, the clip mask
and the scale of an encoded group in lanes 0 to 6 and zero in the lanes above, whatever lanes are active; the decoded and
scaled elements in the active lanes, with OE for a marker in slot 30 or 31. Each takes the cause of its enabled flags instead and
writes nothing. The model's choices in it: which signalling NaNs set IV in VCVQ4 (log 81), and that with no active lane OE still
counts in VDQ4 while its scale does not, and the scale does in VCVQ4 (log 82). -/
def Obligations.Conversions : Prop :=
  (∀ (s : State) (w : Wave) (o : Cvt), Runs s w → Instr.wellFormed s.ir (.vcvt o) = true →
     let fl (l : Nat) : W32 := ((List.range (cvtCount o)).map (fun k => (cvtOne w o l k).2)).foldl (· ||| ·) 0
     ∃ r : Nat → W32, FlagEnds s w (.vcvt o) (gathered s w o.p fl) (flagCause w (flagLanes s w o.p fl)) (lanesPut s w o.p o.d r) ∧
       ∀ l, isActive s w o.p l →
         (∀ k, k < cvtCount o → el o.dst (r l) (cvtTo o k) = (cvtOne w o l k).1) ∧
         (∀ j, j < 32 / wid o.dst → (∀ k, k < cvtCount o → cvtTo o k ≠ j) →
           el o.dst (r l) j = el o.dst (w.getV o.d.toNat l) j)) ∧
  (∀ (s : State) (w : Wave) (p : Pred) (d a : VReg) (sb : SReg), Runs s w → Pred.dead p = false →
     exec (.vgscl p d a) s = goesOn s (lanesPut s w p d (fun _ => scaleOf s w p a)) ∧
     (q4Scale w sb < 255 →
       let r := encodeQ4 w.q4thr (q4Inputs s w p a (q4Scale w sb)) 32 0
       let iv := q4Signals s w p a r.2.1
       FlagEnds s w (.vcvq4 p d a sb) ((if r.2.2 = 0 then 0 else 0x80) ||| (if iv = 0 then 0 else 0x10))
         (if iv ≠ 0 ∧ w.sys.fpctl.getLsbD 6 = true then some { cause := .fpTrap, lanes := iv } else none)
         (w.setLanes d.toNat
           ((List.range 32).map (fun l => (l, q4Lane (fun k => r.1.getD k 0) r.2.1 r.2.2 (q4Scale w sb) l))))) ∧
     (q4Scale w sb = 255 →
       FlagEnds s w (.vcvq4 p d a sb) 0x100
         (if w.sys.fpctl.getLsbD 8 then some { cause := .scaleNan, lanes := w.active s.slotB p } else none)
         (w.setLanes d.toNat ((List.range 32).map (fun l => (l, if l = 6 then 0xFF else 0))))) ∧
     (let g := decodeQ4 (q4Slots w a) 32 0
       let r (l : Nat) : Nat × W32 := if q4Scale w sb = 255 then (0x7FC00000, 0x100)
         else roundVal Fmt.fp32 w.rm w.ftz (scaled (g.1.getD l (.num false 0 0)) (q4Scale w sb))
       let fl (l : Nat) : W32 := (r l).2
       let lanes (m : W32) : W32 := flagLanes s w p fl m ||| (if 0x200 &&& m = 0 then 0 else maskOf (fun l => l ∈ g.2))
       poisonRaises w a.toNat 0xF = [] →
       FlagEnds s w (.vdq4 p d a sb) (gathered s w p fl ||| (if g.2 = [] then 0 else 0x200)) (flagCause w lanes)
         (lanesPut s w p d (fun l => BitVec.ofNat 32 (r l).1))))

end

namespace Sys2Proof.Claims

open Sys2Proof Sys2Proof.Machine

/-! ### Cross-lane words (R37, R39, R160-R174, R465) -/

/-- Whole lanes that move (R161): the lane of A that each lane of vd receives, and the modifier's view. -/
structure Move where
  p : Pred
  d : VReg
  a : VReg
  t : EType
  code : BitVec 3
  take : Wave → Nat → Nat

def moves : Instr → Option Move
  | .vshuf o => some ⟨o.p, o.d, o.a, o.t, o.ma, fun w l => (w.getV o.b.toNat l).toNat % 32⟩
  | .vbcast o => some ⟨o.p, o.d, o.a, o.t, o.ma, fun w _ => laneOf w o.sb⟩
  | .vbcastI o => some ⟨o.p, o.d, o.a, o.t, 0, fun _ _ => o.n.toNat⟩
  | .vrot o => some ⟨o.p, o.d, o.a, o.t, o.ma, fun w l => (l + laneOf w o.sb) % 32⟩
  | .vrotI o => some ⟨o.p, o.d, o.a, o.t, 0, fun _ l => (l + o.n.toNat) % 32⟩
  | _ => none

/-- The lanes of active(S). -/
def activeLanes (s : State) (w : Wave) (p : Pred) : List Nat := (List.range 32).filter (fun l => (w.active s.slotB p).getLsbD l)

/-- The leaders of R39 and R165: no lower active lane holds the same pattern in A. -/
def leads (s : State) (w : Wave) (p : Pred) (a : VReg) (l : Nat) : Bool :=
  (activeLanes s w p).contains l &&
    !((activeLanes s w p).any (fun j => decide (j < l) && w.getV a.toNat j == w.getV a.toNat l))

/-- Mask words that look across lanes (R165, R171): the bit of md in each lane. -/
def crossMask (s : State) (w : Wave) : Instr → Option (Pred × MReg × (Nat → Bool))
  | .vconfl p _ md a => some (p, md, leads s w p a)
  | .vballot p md a => some (p, md, fun l => (activeLanes s w p).contains l && w.getV a.toNat l != 0)
  | .vany p all md a => some (p, md, fun _ =>
      if all then (activeLanes s w p).all (fun l => w.getV a.toNat l != 0)
      else (activeLanes s w p).any (fun l => w.getV a.toNat l != 0))
  | _ => none

/-- The lanes of active(S) under mb (R170), in ascending order. -/
def selected (s : State) (w : Wave) (p : Pred) (mb : MReg) : List Nat :=
  (activeLanes s w p).filter (fun l => (w.getM mb.toNat).getLsbD l)

/-- The combinations of R162. -/
def combine (k : RedKind) (rm : Rm) (ftz : Bool) (p q : W32) : W32 × W32 :=
  match k with
  | .addI32 | .addN32 => (p + q, 0)
  | .minI32 => (if q.toInt < p.toInt then q else p, 0)
  | .minN32 => (if q.toNat < p.toNat then q else p, 0)
  | .maxI32 => (if p.toInt < q.toInt then q else p, 0)
  | .maxN32 => (if p.toNat < q.toNat then q else p, 0)
  | .and => (p &&& q, 0)
  | .or => (p ||| q, 0)
  | .xor => (p ^^^ q, 0)
  | .fadd => let r := Flt.add .f32 rm ftz p.toNat q.toNat; (BitVec.ofNat 32 r.1, r.2)
  | .fmin => let r := minMax Fmt.fp32 false ftz p.toNat q.toNat; (BitVec.ofNat 32 r.1, r.2)
  | .fmax => let r := minMax Fmt.fp32 true ftz p.toNat q.toNat; (BitVec.ofNat 32 r.1, r.2)

/-- A value, if some active lane entered it, the lanes that entered it, and the flags that each lane has raised on the way: those
of every operation that its value entered (R21). -/
structure Gathered where
  value : Option W32
  from' : W32
  flags : Nat → W32

/-- The combination of R37 and R164: with one operand absent, the other one. -/
def join (f : W32 → W32 → W32 × W32) (x y : Gathered) : Gathered :=
  let all := x.from' ||| y.from'
  let before (l : Nat) : W32 := x.flags l ||| y.flags l
  match x.value, y.value with
  | some p, some q => ⟨some (f p q).1, all, fun l => before l ||| (if all.getLsbD l then (f p q).2 else 0)⟩
  | some p, none => ⟨some p, all, before⟩
  | none, q => ⟨q, all, before⟩

/-- The balanced tree of R37: node n of level k combines the lanes n * 2^k to (n + 1) * 2^k - 1. -/
def node (f : W32 → W32 → W32 × W32) (x : Nat → Gathered) : Nat → Nat → Gathered
  | 0, n => x n
  | k + 1, n => join f (node f x k (2 * n)) (node f x k (2 * n + 1))

/-- A head of a segment at or before lane l, and the last lane of the segment (R164). -/
def headAt (heads : Nat → Bool) (l : Nat) : Nat := ((List.range (l + 1)).filter (fun j => j == 0 || heads j)).getLastD 0
def lastAt (heads : Nat → Bool) (l : Nat) : Nat :=
  (((List.range 32).filter (fun j => decide (l < j) && heads j)).headD 32) - 1

/-- The five steps of R164 with fixed distances: after k steps, lane l. -/
def pairing (f : W32 → W32 → W32 × W32) (scan : Bool) (heads : Nat → Bool) (x : Nat → Gathered) : Nat → Nat → Gathered
  | 0, l => x l
  | k + 1, l =>
    let d := 2 ^ k
    let y := pairing f scan heads x k
    if scan then (if headAt heads l + d ≤ l then join f (y (l - d)) (y l) else y l)
    else (if l + d ≤ lastAt heads l then join f (y l) (y (l + d)) else y l)

/-- A lane of A enters when it is active. -/
def enters (s : State) (w : Wave) (p : Pred) (x : Nat → W32) (l : Nat) : Gathered :=
  if (activeLanes s w p).contains l then ⟨some (x l), 1 <<< l, fun _ => 0⟩ else ⟨none, 0, fun _ => 0⟩

/-- The view of MODA (R162). -/
def redView : RedKind → EType
  | .addN32 | .minN32 | .maxN32 => .n32
  | .fadd | .fmin | .fmax => .f32
  | _ => .i32

/-- Addition in a segmented type, and what an absent value is written as (R164). -/
def addIn (t : EType) : RedKind := if t = .f32 then .fadd else .addI32
def zeroIn (t : EType) : W32 := if t = .f32 then 0x80000000 else 0

/-- The value of R37 for a tree of one value: a NaN under a minimum or a maximum becomes the canonical NaN. -/
def aloneValue (k : RedKind) (ftz : Bool) (x : W32) : W32 × W32 :=
  let v := Fmt.fp32.decodeFtz ftz x.toNat
  if (k = .fmin ∨ k = .fmax) ∧ v.isNan = true then (0x7FC00000, if v.isSnan then 0x10 else 0) else (x, 0)

/-- The scans and the segmented words (R163, R164): what each lane holds after the five steps. -/
def steps (s : State) (w : Wave) : Instr → Option (Pred × VReg × W32 × (Nat → Gathered))
  | .vscan o => some (o.p, o.d, 0, pairing (combine o.op w.rm w.ftz) true (fun _ => false)
      (enters s w o.p (fun l => BitVec.ofNat 32 (src (redView o.op) o.ma (w.getV o.a.toNat l) 0))) 5)
  | .vsegred o => some (o.p, o.d, zeroIn o.t, pairing (combine (addIn o.t) w.rm w.ftz) false
      (fun l => (w.getM o.mb.toNat).getLsbD l) (enters s w o.p (fun l => BitVec.ofNat 32 (src o.t o.ma (w.getV o.a.toNat l) 0))) 5)
  | .vsegscan o => some (o.p, o.d, zeroIn o.t, pairing (combine (addIn o.t) w.rm w.ftz) true
      (fun l => (w.getM o.mb.toNat).getLsbD l) (enters s w o.p (fun l => BitVec.ofNat 32 (src o.t o.ma (w.getV o.a.toNat l) 0))) 5)
  | _ => none

/-- The left fold of R39 over the values of a key, in lane order. -/
def foldOf (f : W32 → W32 → W32 × W32) : List Gathered → Gathered
  | [] => ⟨none, 0, fun _ => 0⟩
  | x :: xs => xs.foldl (join f) x

/-- The values of B under the key of lane l (R166). -/
def ofKey (s : State) (w : Wave) (p : Pred) (a b : VReg) (l : Nat) : List Gathered :=
  ((activeLanes s w p).filter (fun j => w.getV a.toNat j == w.getV a.toNat l)).map (enters s w p (fun j => w.getV b.toNat j))

/-- The flags that lane l has raised on the way to any of the 32 values. -/
def raisedBy (y : Nat → Gathered) (l : Nat) : W32 := ((List.range 32).map (fun q => (y q).flags l)).foldl (· ||| ·) 0

/-- Row lengths and row starts of VBAL (R167). -/
def rowLen (s : State) (w : Wave) (p : Pred) (a : VReg) (i : Nat) : Nat :=
  if (activeLanes s w p).contains i then (w.getV a.toNat i).toNat else 0
def rowStart (s : State) (w : Wave) (p : Pred) (a : VReg) (i : Nat) : Nat :=
  ((List.range i).map (rowLen s w p a)).sum

/-- The key of position n of Q, and the place of that position in the stable order (R169). -/
def keyAt (w : Wave) (a b : VReg) (n : Nat) : W32 := if n < 32 then w.getV a.toNat n else w.getV b.toNat (n - 32)
def below (uns : Bool) (x y : W32) : Bool := if uns then decide (x.toNat < y.toNat) else decide (x.toInt < y.toInt)
def placeOf (w : Wave) (uns : Bool) (a b : VReg) (n : Nat) : Nat :=
  ((List.range 64).filter (fun j => below uns (keyAt w a b j) (keyAt w a b n) ||
    (!below uns (keyAt w a b n) (keyAt w a b j) && decide (j < n)))).length

/-- VTRIPLE of one lane (R174): m and l, then the outputs, of two partials of n + 1 outputs. -/
def tripleLane (w : Wave) (d a : VReg) (n : BitVec 3) (l : Nat) : LaneResult :=
  let x (v : VReg) (k : Nat) : W32 := w.getV (v.toNat + k) l
  let m := BitVec.ofNat 32 (minMax Fmt.fp32 true false (x d 0).toNat (x a 0).toNat).1
  let f (y : W32) : W32 :=
    if FVal.cmp (Fmt.fp32.decode y.toNat) (Fmt.fp32.decode m.toNat) = 0 ∧ (Fmt.fp32.decode y.toNat).isNan = false ∧
      (Fmt.fp32.decode m.toNat).isNan = false then 0x3F800000
    else BitVec.ofNat 32 (exp2Cr (Fmt.fp32.decode (sub32 y m).toNat)).1
  let mix (k : Nat) : W32 := add32 (mul32 (f (x d 0)) (x d k)) (mul32 (f (x a 0)) (x a k))
  ((d.toNat, m) :: (List.range (n.toNat + 2)).map (fun k => (d.toNat + 1 + k, mix (k + 1))), 0)

end Sys2Proof.Claims

section
open Sys2Proof Sys2Proof.Machine Sys2Proof.Claims

/-- R124: SRDV copies one lane of a vector register into a scalar register and SWRV the low half of a scalar register into one
lane, whatever active(S) selects, and neither has an effect while active(S) is empty. (A poisoned lane that SRDV reads is
R193's.)

R160, R161, R165, R170, R171: whole lanes that move (VSHUF, VBCAST, VROT), lanes that are packed and unpacked (VCMPR,
VEXPD), and the masks that look across lanes (VCONFL, VBALLOT, VANY); every lane, bit and register that they do not name keeps
its value. (No unit of the wave is poisoned.) -/
def Obligations.LanesAcross : Prop :=
  (∀ (s : State) (w : Wave) (i : Instr), Runs s w →
     (∀ p d va n, reads i = some (p, d, va, n) →
       (w.active s.slotB p = 0 → exec i s = goesOn s w) ∧
       (w.active s.slotB p ≠ 0 → w.poison.has (32 * va.toNat + n w) = false →
         exec i s = goesOn s (w.setS d.toNat ((w.getV va.toNat (n w)).setWidth 64))) ∧
       (w.active s.slotB p ≠ 0 → w.poison.has (32 * va.toNat + n w) = true →
         exec i s = traps s { cause := .poisonConsumed, lanes := 1 <<< n w, detail := 0 })) ∧
     (∀ p vd sa n, writes i = some (p, vd, sa, n) →
       exec i s = goesOn s (if w.active s.slotB p = 0 then w
         else w.setV vd.toNat (n w) ((w.getS sa.toNat).setWidth 32)))) ∧
  (∀ (s : State) (w : Wave), Runs s w → w.poison = [] →
     (∀ i m, moves i = some m → (∀ l, l < 32 → m.take w l < 32) ∧
       exec i s = goesOn s (lanesPut s w m.p m.d (fun l => pack m.t (src m.t m.code (w.getV m.a.toNat (m.take w l)))))) ∧
     (∀ p d a mb, exec (.vcmpr p d a mb) s =
       goesOn s (w.setLanes d.toNat ((selected s w p mb).mapIdx (fun j l => (j, w.getV a.toNat l))))) ∧
     (∀ p d a mb, exec (.vexpd p d a mb) s =
       goesOn s (w.setLanes d.toNat ((selected s w p mb).mapIdx (fun j l => (l, w.getV a.toNat j))))) ∧
     (∀ i p md f, crossMask s w i = some (p, md, f) → Pred.dead p = false → exec i s = goesOn s (w.setM md.toNat (maskOf f))))

/-- R37, R39, R162 to R164 and R166: a reduction writes the value of the balanced tree to every active lane; a scan and the
segmented words leave in each active lane what the five fixed steps give; VDUPADD leaves the left fold of each key in its
leader and zero in the other active lanes. FPSTAT gathers the flags of every operation; with an enabled flag FP_TRAP is taken for
exactly the lanes whose value entered an operation that raised it (R21), and nothing is written. (What a reduction of one active
lane gives is the model's choice, log 83.) -/
def Obligations.Reductions : Prop :=
  ∀ (s : State) (w : Wave), Runs s w →
    (∀ o, w.active s.slotB o.p ≠ 0 →
      let x (l : Nat) : W32 := BitVec.ofNat 32 (src (redView o.op) o.ma (w.getV o.a.toNat l) 0)
      let g := node (combine o.op w.rm w.ftz) (enters s w o.p x) 5 0
      let one := aloneValue o.op w.ftz (g.value.getD 0)
      let alone : Prop := (activeLanes s w o.p).length = 1
      let fl (l : Nat) : W32 := if alone then one.2 else g.flags l
      FlagEnds s w (.vred o) (gathered s w o.p fl) (flagCause w (flagLanes s w o.p fl))
        (lanesPut s w o.p o.d (fun _ => if alone then one.1 else g.value.getD 0))) ∧
    (∀ o, w.active s.slotB o.p = 0 → exec (.vred o) s = goesOn s w) ∧
    (∀ i p d z y, steps s w i = some (p, d, z, y) →
      FlagEnds s w i (gathered s w p (raisedBy y)) (flagCause w (flagLanes s w p (raisedBy y)))
        (lanesPut s w p d (fun l => (y l).value.getD z))) ∧
    (∀ p t d a b,
      let r (l : Nat) : Gathered :=
        foldOf (combine (addIn t) w.rm w.ftz) (if leads s w p a l then ofKey s w p a b l else [])
      FlagEnds s w (.vdupadd p t d a b) (gathered s w p (raisedBy r)) (flagCause w (flagLanes s w p (raisedBy r)))
        (lanesPut s w p d (fun l => (r l).value.getD 0)))

/-- R167 to R169: VBAL marks the first lane of each row and, with .idx, names the row of every lane; VISECT finds the last
boundary that is not above; VMRG writes the keys of both sources in stable order, or their positions. -/
def Obligations.RowsAndOrder : Prop :=
  ∀ (s : State) (w : Wave), Runs s w → w.poison = [] →
    (∀ p idx md a b, Pred.dead p = false →
      let len := rowLen s w p a
      let start := rowStart s w p a
      ((∀ i, i < 32 → len i < 2 ^ 20) → start 32 ≤ 2 ^ 20 →
        ∃ (m : W32) (r : Nat → W32),
          exec (.vbal p idx md a b) s = goesOn s (if idx then (w.setM md.toNat m).setLanes b.toNat
            ((List.range 32).map (fun q => (q, r q))) else w.setM md.toNat m) ∧
          (∀ q, q < 32 → (m.getLsbD q = true ↔ ∃ i, i < 32 ∧ 0 < len i ∧ start i = q)) ∧
          (∀ q, q < 32 → (∀ i, i < 32 → start i ≤ q → q < start i + len i → (∀ j, j < 32 → start j ≤ q → q < start j + len j → j ≤ i) →
            r q = BitVec.ofNat 32 i) ∧ ((∀ i, i < 32 → ¬ (start i ≤ q ∧ q < start i + len i)) → r q = 0xFFFFFFFF))) ∧
      (((∃ i, i < 32 ∧ 2 ^ 20 ≤ len i) ∨ 2 ^ 20 < start 32) →
        exec (.vbal p idx md a b) s = traps s { cause := .balanceOverflow, lanes := w.active s.slotB p, detail := 1 })) ∧
    (∀ p t d a b, t ∈ [EType.i32, EType.n32] → ∃ r : Nat → W32, exec (.visect p t d a b) s = goesOn s (lanesPut s w p d r) ∧
      ∀ l, l < 32 →
        (∀ j, j < 32 → num t (w.getV b.toNat j).toNat ≤ num t (w.getV a.toNat l).toNat →
          (∀ k, k < 32 → num t (w.getV b.toNat k).toNat ≤ num t (w.getV a.toNat l).toNat → k ≤ j) → r l = BitVec.ofNat 32 j) ∧
        ((∀ j, j < 32 → num t (w.getV a.toNat l).toNat < num t (w.getV b.toNat j).toNat) → r l = 0xFFFFFFFF)) ∧
    (∀ p uns hi idx d a b, ∃ r : Nat → W32, exec (.vmrg p uns hi idx d a b) s = goesOn s (lanesPut s w p d r) ∧
      ∀ l, l < 32 → ∀ n, n < 64 → placeOf w uns a b n = (if hi then l + 32 else l) →
        r l = if idx then BitVec.ofNat 32 n else keyAt w a b n)

/-- R150, R159 with R55: a special function or a rotation of every lane of active(S), written at once or held by a window; the
flags reach FPSTAT when the word issues; with an enabled flag FP_TRAP is taken, no window opens and nothing is written. VROPE3
raises ROPE_PARTITION for bands of more than 128 pairs in all and for a pair index above 127.

R174: VTRIPLE merges two partials in every lane of active(S), with no flag and no trap, at once or held by a window. -/
def Obligations.SpecialFunctions : Prop :=
  (∀ (s : State) (w : Wave), Runs s w →
     (∀ i o f, special i = some (o, f) → w.active s.slotB o.p ≠ 0 →
       let r (l : Nat) : Nat × W32 := f (Fmt.fp32.decode (src .f32 o.ma (w.getV o.a.toNat l) 0))
       let g (l : Nat) : LaneResult := ([(o.d.toNat, BitVec.ofNat 32 (r l).1)], (r l).2)
       let fl (l : Nat) : W32 := (r l).2
       ∃ ds ss, FlagEnds s w i (gathered s w o.p fl) (flagCause w (flagLanes s w o.p fl))
         (heldBy s w o.la ds ss (laneWrites s w o.p g))) ∧
     (∀ p la d a, w.active s.slotB p ≠ 0 →
       let far := maskOf (fun l => (w.active s.slotB p).getLsbD l && decide (127 < (w.getV (a.toNat + 6) l).toNat))
       let fl (l : Nat) : W32 := (rope w d a l).2
       (bandT w + bandH w + bandW w ≤ 128 → far = 0 →
         ∃ ds ss, FlagEnds s w (.vrope3 p la d a) (gathered s w p fl) (flagCause w (flagLanes s w p fl))
           (heldBy s w la ds ss (laneWrites s w p (rope w d a)))) ∧
       (128 < bandT w + bandH w + bandW w →
         exec (.vrope3 p la d a) s = traps s { cause := .ropePartition, lanes := w.active s.slotB p, detail := 1 }) ∧
       (bandT w + bandH w + bandW w ≤ 128 → far ≠ 0 →
         exec (.vrope3 p la d a) s = traps s { cause := .ropePartition, lanes := far, detail := 2 }))) ∧
  (∀ (s : State) (w : Wave) (p : Pred) (la : BitVec 4) (d a : VReg) (n : BitVec 3), Runs s w → w.active s.slotB p ≠ 0 →
     ∃ ds ss, exec (.vtriple p la d a n) s = goesOn s (heldBy s w la ds ss (laneWrites s w p (tripleLane w d a n))))

end

namespace Sys2Proof.Claims

open Sys2Proof Sys2Proof.Machine

/-! ### Memory words (R58, R88, R89, R172-R173, R199-R214, R465) -/

/-- No transaction is open in any wave. -/
def NoTx (s : State) : Prop := ∀ u ∈ s.waves, u.tx = none

/-- Everything of a state but its memory, its waves and its cached translations. -/
def rest (s : State) : State :=
  { s with
    mem := {}
    waves := []
    cores := s.cores.map (fun c => { c with tlb := [] })
    clusters := s.clusters.map (fun c => { c with l2 := [] }) }

/-- The physical ranges of an access of the wave, in order (R201), and the parts that the translation finds. -/
def partsAt (s : State) (w : Wave) (need : Need) (va n : Nat) : List Part := partsOf s (waveAgent w s.cur) need va n
def rangesAt (s : State) (w : Wave) (need : Need) (va n : Nat) : List (Nat × Nat) := partRanges (partsAt s w need va n)

/-- An access that records no cause (R58, R201, R405, R407, R426): it is aligned, it translates with the rights that it needs,
it reads no poisoned line and no host access of it fails. -/
def Clear (s : State) (w : Wave) (need : Need) (va n align : Nat) : Prop :=
  va % align = 0 ∧ partRaises 1 (partsAt s w need va n) = [] ∧ mediumRaises s 1 need.reads (partsAt s w need va n) = []

/-- The bytes of physical ranges, and what they hold after a write of a value that spans them. -/
def bytesAt (m : Memory) (rs : List (Nat × Nat)) : List Byte := rs.flatMap (fun r => m.readN r.1 r.2)
def putAt (m : Memory) : List (Nat × Nat) → List Byte → Memory
  | [], _ => m
  | r :: more, bs => putAt (m.writeN r.1 (bs.take r.2)) more (bs.drop r.2)

/-- A byte that no range holds. -/
def Outside (rs : List (Nat × Nat)) (pa : Nat) : Prop := ∀ r ∈ rs, pa < r.1 ∨ r.1 + r.2 ≤ pa

/-- The form of a memory word: the element of lane l stands at base + term l; `size` bytes; `chk` says whether its term is held
to BOUND (R45); `align` is the alignment that it needs (R201); a scalar form has one element. -/
structure Form where
  p : Pred
  la : BitVec 4
  size : Nat
  align : Nat
  chk : Bool
  scalar : Bool
  base : SReg
  term : Wave → Nat → Int

/-- The lanes that access memory. -/
def Form.lanes (f : Form) (s : State) (w : Wave) : List Nat := if f.scalar then [0] else activeLanes s w f.p
/-- The address of an element, modulo 2^64 (R200). -/
def Form.at (f : Form) (w : Wave) (l : Nat) : Nat := (((w.getS f.base.toNat).toNat + f.term w l) % 2 ^ 64).toNat
/-- Every element lies within BOUND and is clear. -/
def Form.Clear (f : Form) (s : State) (w : Wave) (need : Need) : Prop :=
  w.active s.slotB f.p ≠ 0 ∧ ∀ l ∈ f.lanes s w,
    (f.chk = true → (f.term w l).toNat + f.size ≤ w.sys.bound.toNat) ∧ Claims.Clear s w need (f.at w l) f.size f.align
/-- Every element lies within BOUND, in the scratchpad ranges of the wave, on no poisoned granule when it is read. -/
def Form.Reaches (f : Form) (s : State) (w : Wave) (reads : Bool) : Prop :=
  w.active s.slotB f.p ≠ 0 ∧ ∀ l ∈ f.lanes s w,
    (f.chk = true → (f.term w l).toNat + f.size ≤ w.sys.bound.toNat) ∧ f.at w l % f.align = 0 ∧
    reaches (scratchRanges s s.cur) (f.at w l) f.size = true ∧
    (reads = true → (s.core w.place.core).spPoison (f.at w l) f.size = none)

/-- The bytes of a width (R88), and the alignment of an ordered access (R201). -/
def widthBytes : Width → Nat
  | .b8 => 1
  | .b16 => 2
  | .b32 => 4
  | .b64 => 8
def ordered (o : Ord) (n : Nat) : Nat := if o = .plain then 1 else min n 8

/-- The forms of R200: an offset vector, an offset scalar for a block, a scalar offset, and the immediates in elements (R89). -/
def vecForm (o : VMem) (n align : Nat) : Form :=
  ⟨o.p, o.la, n, align, o.chk, false, o.sa, fun w l => ((w.getV o.vb.toNat l).toNat * 2 ^ o.scale.toNat : Nat)⟩
def vecFormI (o : VMemI) (n align : Nat) : Form := ⟨o.p, o.la, n, align, false, false, o.sa, fun _ _ => o.imm.toInt * n⟩
def blockForm (o : BMem) (n align : Nat) : Form :=
  ⟨o.p, o.la, n, align, o.chk, false, o.sa, fun w l => ((w.getS o.sb.toNat).toNat * 2 ^ o.scale.toNat + l * n : Nat)⟩
def blockFormI (o : VMemI) (n : Nat) : Form := ⟨o.p, o.la, n, 1, false, false, o.sa, fun _ l => o.imm.toInt * n + (l * n : Nat)⟩
def scalarForm (o : SMem) (n align : Nat) : Form :=
  ⟨o.p, o.la, n, align, o.chk, true, o.sa, fun w _ => ((w.getS o.sb.toNat).toNat * 2 ^ o.scale.toNat : Nat)⟩
def scalarFormI (o : SMemI) (n : Nat) : Form := ⟨o.p, o.la, n, 1, false, true, o.sa, fun _ _ => o.imm.toInt * n⟩

/-- What a load writes for an element of value x: 32 bits to each register from vd (R205), or one scalar register. -/
abbrev Dest := Nat → Nat → List RegWrite
def toVec (d : VReg) (size : Nat) : Dest := fun l x =>
  (List.range ((size + 3) / 4)).map (fun k => RegWrite.v (d.toNat + k) l (BitVec.ofNat 32 (x / 2 ^ (32 * k))))
def toScalar (d : SReg) : Dest := fun _ x => [RegWrite.s d.toNat (BitVec.ofNat 64 x)]

/-- The loads: their form, their destination, whether they read the scratchpad. -/
def loads : Instr → Option (Form × Dest × Bool)
  | .vld o => let n := widthBytes o.w; some (vecForm o n (ordered o.ord n), toVec o.d n, false)
  | .vldI o => let n := widthBytes o.w; some (vecFormI o n 1, toVec o.d n, false)
  | .vldb o => let n := widthBytes o.w; some (blockForm o n (ordered o.ord n), toVec o.d n, false)
  | .vldbI o => let n := widthBytes o.w; some (blockFormI o n, toVec o.d n, false)
  | .sld o => let n := widthBytes o.w; some (scalarForm o n (ordered o.ord n), toScalar o.d, false)
  | .sldI o => let n := widthBytes o.w; some (scalarFormI o n, toScalar o.d, false)
  | .vldq o => some (vecForm o 16 (ordered o.ord 16), toVec o.d 16, false)
  | .vldqI o => some (vecFormI o 16 1, toVec o.d 16, false)
  | .vlds o => let n := widthBytes o.w; some (vecForm o n 1, toVec o.d n, true)
  | .vldsI o => let n := widthBytes o.w; some (vecFormI o n 1, toVec o.d n, true)
  | _ => none

/-- The bytes that a vector store takes from the registers at d, and those of a scalar store. -/
def fromVec (w : Wave) (d : VReg) (size l : Nat) : List Byte :=
  (List.range size).map (fun k => BitVec.ofNat 8 ((w.getV (d.toNat + k / 4) l).toNat / 2 ^ (8 * (k % 4))))
def fromScalar (w : Wave) (d : SReg) (size : Nat) : List Byte :=
  (List.range size).map (fun k => BitVec.ofNat 8 ((w.getS d.toNat).toNat / 2 ^ (8 * k)))

/-- The stores: their form, their data, whether they write the scratchpad. -/
def stores : Instr → Option (Form × (Wave → Nat → List Byte) × Bool)
  | .vst o => let n := widthBytes o.w; some (vecForm o n (ordered o.ord n), fun w => fromVec w o.d n, false)
  | .vstI o => let n := widthBytes o.w; some (vecFormI o n 1, fun w => fromVec w o.d n, false)
  | .vstb o => let n := widthBytes o.w; some (blockForm o n (ordered o.ord n), fun w => fromVec w o.d n, false)
  | .vstbI o => let n := widthBytes o.w; some (blockFormI o n, fun w => fromVec w o.d n, false)
  | .sst o => let n := widthBytes o.w; some (scalarForm o n (ordered o.ord n), fun w _ => fromScalar w o.d n, false)
  | .sstI o => let n := widthBytes o.w; some (scalarFormI o n, fun w _ => fromScalar w o.d n, false)
  | .vstq o a16 => some (vecForm o 16 (if a16 then 16 else ordered o.ord 16), fun w => fromVec w o.d 16, false)
  | .vstqI o a16 => some (vecFormI o 16 (if a16 then 16 else 1), fun w => fromVec w o.d 16, false)
  | .vsts o => let n := widthBytes o.w; some (vecForm o n 1, fun w => fromVec w o.d n, true)
  | .vstsI o => let n := widthBytes o.w; some (vecFormI o n 1, fun w => fromVec w o.d n, true)
  | _ => none

/-- The operations of R209 on a location of n bytes. -/
def atomic (op : AtomOp) (n old x : Nat) : Nat :=
  let signed (v : Nat) : Int := if 2 ^ (8 * n - 1) ≤ v then (v : Int) - 2 ^ (8 * n) else v
  match op with
  | .add => (old + x) % 2 ^ (8 * n)
  | .fadd => (add32 (BitVec.ofNat 32 old) (BitVec.ofNat 32 x)).toNat
  | .smin => if signed x < signed old then x else old
  | .smax => if signed old < signed x then x else old
  | .and => old &&& x
  | .or => old ||| x
  | .xor => old ^^^ x
  | .xchg => x

/-- The operand of a lane in `k` registers from `d`. -/
def operand (w : Wave) (d k l : Nat) : Nat := ((List.range k).map (fun j => (w.getV (d + j) l).toNat * 2 ^ (32 * j))).sum

/-- The vector form of an atomic: its offsets are scaled by its width (R200). -/
def atomForm (o : VMem) : Form :=
  let n := widthBytes o.w
  ⟨o.p, o.la, n, n, o.chk, false, o.sa, fun w l => ((w.getV o.vb.toNat l).toNat * n : Nat)⟩
def atomFormS (o : SMem) : Form :=
  let n := widthBytes o.w
  ⟨o.p, o.la, n, n, o.chk, true, o.sa, fun w _ => ((w.getS o.sb.toNat).toNat * n : Nat)⟩

/-- The atomics and compare-and-swaps (R209, R210): their form, their destination, the new value from the lane and the old one,
whether they act on the scratchpad, and whether host memory supports them (R211). -/
structure Atomic where
  form : Form
  dest : Dest
  new : Wave → Nat → Nat → Nat
  scratch : Bool
  host : Bool

def atomics : Instr → Option Atomic
  | .vatom o op => let n := widthBytes o.w
    some ⟨atomForm o, toVec o.d n, fun w l old => atomic op n old (operand w o.d.toNat (n / 4) l), false,
      !([AtomOp.fadd, .smin, .smax].contains op)⟩
  | .vatoms o op => let n := widthBytes o.w
    some ⟨atomForm o, toVec o.d n, fun w l old => atomic op n old (operand w o.d.toNat (n / 4) l), true, true⟩
  | .vcas o => let n := widthBytes o.w
    some ⟨atomForm o, toVec o.d n, fun w l old => if old = operand w o.d.toNat (n / 4) l
      then operand w (o.d.toNat + n / 4) (n / 4) l else old, false, true⟩
  | .satom o op => let n := widthBytes o.w
    some ⟨atomFormS o, toScalar o.d, fun w _ old => atomic op n old ((w.getS o.d.toNat).toNat % 2 ^ (8 * n)), false,
      !([AtomOp.fadd, .smin, .smax].contains op)⟩
  | .scas o => let n := widthBytes o.w
    some ⟨atomFormS o, toScalar o.d, fun w _ old => if old = (w.getS o.d.toNat).toNat % 2 ^ (8 * n)
      then (w.getS (o.d.toNat + 1)).toNat % 2 ^ (8 * n) else old, false, true⟩
  | _ => none

/-- The atomics of a word, lane after lane in ascending order (R209): what memory holds then, and the old value of each lane. -/
def atomRun (f : Nat → Nat → Nat) (size : Nat) (at_ : Nat → List (Nat × Nat)) (m : Memory) :
    List Nat → Memory × List (Nat × Nat)
  | [] => (m, [])
  | l :: ls =>
    let old := leNat (bytesAt m (at_ l))
    let r := atomRun f size at_ (putAt m (at_ l) (leBytes size (f l old))) ls
    (r.1, (l, old) :: r.2)

/-- The same in the scratchpad of a core. -/
def atomRunCore (f : Nat → Nat → Nat) (size : Nat) (at_ : Nat → Nat) (c : Core) : List Nat → Core × List (Nat × Nat)
  | [] => (c, [])
  | l :: ls =>
    let old := leNat (c.spRead (at_ l) size)
    let r := atomRunCore f size at_ (c.spWrite (at_ l) (leBytes size (f l old))) ls
    (r.1, (l, old) :: r.2)

/-- The transaction that TXBEGIN opens in a slot (R215). -/
def openedTx (b : Bool) (x : Slot) (depth : Nat) (abortPc : W64) (cl : Bool) (order : Nat) (serial : Bool) : Tx :=
  { slotB := b
    mask := x.mask
    rpc := x.rpc
    depth := depth
    abortPc := abortPc
    cluster := cl
    order := order
    reads := []
    writes := []
    written := []
    serial := serial
    conflict := false }

/-- A wave after an abort with CODE `code` (R219, R221). -/
def aborted (u : Wave) (t : Tx) (code cause ucode cnt : Nat) : Wave :=
  { ({ u with slotA := Slot.empty, slotB := Slot.empty }).setSlot t.slotB (Slot.running t.abortPc t.mask t.rpc) with
    tx := none
    sync := []
    stack := u.stack.drop (u.stack.length - t.depth)
    sys := { u.sys with txstat := BitVec.ofNat 64 (cause * 2 ^ 24 + ucode * 2 ^ 16 + cnt * 2 ^ 12 + t.serial.toNat * 2 ^ 11
      + t.cluster.toNat * 2 ^ 8 + code) } }

/-- A wave after a commit: CODE 0 (R217). -/
def committedTx (w : Wave) (t : Tx) : Wave :=
  { w with
    tx := none
    sys := { w.sys with txstat := BitVec.ofNat 64 (t.serial.toNat * 2 ^ 11 + t.cluster.toNat * 2 ^ 8) } }

/-- A word of memory that full/empty words may use (R212): aligned, on tagged pages, at physical address pa. -/
def Tagged (s : State) (w : Wave) (need : Need) (va pa : Nat) : Prop :=
  Clear s w need va 8 8 ∧ (∃ q, (partsAt s w need va 8) = [{ va := va, len := 8, page := .ok q }] ∧ q.tag = true ∧ q.pa = pa)

/-- Nobody waits on the word: no wave for full or for empty, no .fill signal (R213, R454). -/
def NoWaiters (s : State) (pa : Nat) : Prop :=
  waitersOf s pa true = [] ∧ waitersOf s pa false = [] ∧ s.fabric.fills.find? (fun e => e.2.2 == pa) = none

/-- Slot `b` of another resident wave is the only one that waits on the word, for full or for empty, and no .fill signal does:
it goes on at its next word once it is served. -/
structure OneWaiter (s : State) (pa : Nat) (full : Bool) (j : Nat) (b : Bool) (u : Wave) (x : Wait) (take : Bool) : Prop where
  other : j ≠ s.cur
  wave : s.wave j = some u
  slot : (u.slot b).valid = true ∧ (u.slot b).wait = some x
  only : waitersOf s pa full = [⟨j, b, x.ticket, take, x.word⟩] ∧ waitersOf s pa (!full) = []
  noFill : s.fabric.fills.find? (fun e => e.2.2 == pa) = none
  plain : u.windows = [] ∧ wordLa x.word = 0
  settled : Settled (nextWord (u.slot b)) ∧ Settled (u.slot (!b))

/-- The wave whose word waited in slot `b` and completes: its register writes, and its slot at the next word. -/
def passed (u : Wave) (b : Bool) (ws : List RegWrite) : Wave :=
  { (applyWrites u ws).setSlot b (nextWord (u.slot b)) with
    run := { u.run with lastSlotB := b, issued := u.run.issued + 1, holdSplit := false } }

/-- A page that the wave stores to in its transaction has been shared since (R412). -/
def SharedSince (s : State) (w : Wave) (t : Tx) : Prop :=
  ∃ va ∈ t.pages, ∃ r ∈ partRaises 1 (partsAt s w .write va 1), r.cause = .sharedPageWrite

/-- A serialised transaction of another wave whose scope meets that of a transaction of `w` (R220). -/
def SerialMeets (s : State) (w : Wave) (cl : Bool) : Prop :=
  ∃ j u t, j ≠ s.cur ∧ s.wave j = some u ∧ u.tx = some t ∧ t.serial = true ∧ t.conflict = false ∧
    (if t.cluster || cl then u.place.cluster = w.place.cluster else u.place.core = w.place.core)

/-- The address of a full/empty word, and the state it leaves: memory, the wave, and nothing else but cached translations and,
where a full bit is set, what the dispatchers see (R389). -/
def feAt (w : Wave) (o : FEOp) : Nat := (w.getS o.sa.toNat).toNat

/-- The distinct 8-byte words that KVSLOT and TOKROUTE read for lane l. -/
def tableAt (w : Wave) (sb : SReg) (n : Nat) : Nat := ((w.getS sb.toNat).toNat + 8 * n) % 2 ^ 64
def tableWord (s : State) (w : Wave) (sb : SReg) (n : Nat) : Nat := leNat (bytesAt s.mem (rangesAt s w .read (tableAt w sb n) 8))
def tableCount (w : Wave) (sb : SReg) : Nat := (w.getS (sb.toNat + 1)).toNat % 2 ^ 32

/-- KVSLOT of a lane (R172): the block's bitmap, and the lane's slot in it. -/
def kvHas (s : State) (w : Wave) (a : VReg) (sb : SReg) (l : Nat) : Bool :=
  (tableWord s w sb ((w.getV a.toNat l).toNat / 64)).testBit ((w.getV a.toNat l).toNat % 64)
def kvValue (s : State) (w : Wave) (a : VReg) (sb : SReg) (l : Nat) : W32 :=
  if kvHas s w a sb l then BitVec.ofNat 32 (ones (BitVec.ofNat 64
    (tableWord s w sb ((w.getV a.toNat l).toNat / 64) % 2 ^ ((w.getV a.toNat l).toNat % 64)))) else 0xFFFFFFFF

/-- TOKROUTE of a lane (R465): the placement entry of its expert, and its key. -/
def placement (s : State) (w : Wave) (a : VReg) (sb : SReg) (l : Nat) : Nat := tableWord s w sb (w.getV a.toNat l).toNat
def routeKey (s : State) (w : Wave) (a : VReg) (sb : SReg) (l : Nat) : Nat :=
  placement s w a sb l / 2 ^ 32 % 2 ^ 16 * 2 ^ 8 + placement s w a sb l / 2 ^ 24 % 2 ^ 8
def sameKey (s : State) (w : Wave) (p : Pred) (a : VReg) (sb : SReg) (l : Nat) : List Nat :=
  (activeLanes s w p).filter (fun k => routeKey s w a sb k == routeKey s w a sb l)

end Sys2Proof.Claims

section
open Sys2Proof Sys2Proof.Machine Sys2Proof.Claims

/-- R1 to R3, R58: a byte reads back as it was written, every other byte keeps its value, and both keep the canonical form. -/
def Obligations.MemoryReadsBack : Prop :=
  ∀ (m : Memory) (pa : Nat) (bs : List Byte), m.wf = true →
    (m.writeN pa bs).wf = true ∧ (∀ b, (m.write pa b).wf = true) ∧ (∀ b, (m.setFull pa b).wf = true) ∧
    (∀ k, (m.writeN pa bs).read k = if pa ≤ k ∧ k < pa + bs.length then bs.getD (k - pa) 0 else m.read k) ∧
    (∀ k n, m.readN k n = (List.range n).map (fun j => m.read (k + j))) ∧
    (∀ k b, (m.setFull pa b).isFull k = (if k / 8 = pa / 8 then b else m.isFull k) ∧ (m.setFull pa b).read k = m.read k)

/-- R199 to R206: a load whose elements are all clear reads each active lane's bytes, the lowest address first, and writes them
to its destination at once or through a window; memory, every other wave and every register that it does not name stay. -/
def Obligations.LoadWords : Prop :=
  ∀ (s : State) (w : Wave) (i : Instr) (f : Form) (d : Dest), Runs s w → NoTx s →
    (loads i = some (f, d, false) → f.Clear s w .read →
      ∃ t ds ss, exec i s = goesTo s t ∧ t.mem = s.mem ∧ rest t = rest s ∧
        t.waves = s.waves.set s.cur (heldBy s w f.la ds ss ((f.lanes s w).flatMap (fun l =>
          d l (leNat (bytesAt s.mem (rangesAt s w .read (f.at w l) f.size))))))) ∧
    (loads i = some (f, d, true) → f.Reaches s w true →
      ∃ ds ss, exec i s = goesOn s (heldBy s w f.la ds ss ((f.lanes s w).flatMap (fun l =>
        d l (leNat ((s.core w.place.core).spRead (f.at w l) f.size))))))

/-- R67, R199 to R206: a store whose elements are all clear writes each active lane's bytes at its address, lanes in ascending
order. Every byte of memory outside the stored ones reads as before; no register, no flag and no other part of the state but
cached translations changes. In the scratchpad the same holds of the core's bytes. -/
def Obligations.StoreWords : Prop :=
  ∀ (s : State) (w : Wave) (i : Instr) (f : Form) (data : Wave → Nat → List Byte), Runs s w → NoTx s →
    (stores i = some (f, data, false) → f.Clear s w .write →
      ∃ t, exec i s = goesTo s t ∧ t.waves = s.waves ∧ rest t = rest s ∧
        t.mem = (f.lanes s w).foldl (fun m l => putAt m (rangesAt s w .write (f.at w l) f.size) (data w l)) s.mem ∧
        (s.mem.wf = true → ∀ pa, (∀ l ∈ f.lanes s w, Outside (rangesAt s w .write (f.at w l) f.size) pa) →
          t.mem.read pa = s.mem.read pa)) ∧
    (stores i = some (f, data, true) → f.Reaches s w false →
      exec i s = goesTo s (s.updCore w.place.core (fun c =>
        (f.lanes s w).foldl (fun c l => c.spWrite (f.at w l) (data w l)) c)))

/-- R209 to R211: the atomics and compare-and-swaps of a word take place lane after lane; each lane's destination receives the
old value of its location, at once or through a window. -/
def Obligations.AtomicWords : Prop :=
  ∀ (s : State) (w : Wave) (i : Instr) (a : Atomic), Runs s w → NoTx s → atomics i = some a →
    (a.scratch = false → a.form.Clear s w .both →
      (a.host = true ∨ ∀ l ∈ a.form.lanes s w, ∀ r ∈ rangesAt s w .both (a.form.at w l) a.form.size, isHost r.1 = false) →
      let r := atomRun (a.new w) a.form.size (fun l => rangesAt s w .both (a.form.at w l) a.form.size) s.mem (a.form.lanes s w)
      ∃ t ds ss, exec i s = goesTo s t ∧ t.mem = r.1 ∧ rest t = rest s ∧
        t.waves = s.waves.set s.cur (heldBy s w a.form.la ds ss (r.2.flatMap (fun e => a.dest e.1 e.2)))) ∧
    (a.scratch = true → a.form.Reaches s w true →
      let r := atomRunCore (a.new w) a.form.size (a.form.at w) (s.core w.place.core) (a.form.lanes s w)
      ∃ ds ss, exec i s = goesTo s ((s.updCore w.place.core (fun _ => r.1)).setWave s.cur
        (heldBy s w a.form.la ds ss (r.2.flatMap (fun e => a.dest e.1 e.2)))))

/-- R202, R45: under .chk a lane whose element ends beyond BOUND records ELEM_RANGE with the address of its element; the other
lanes of the word are performed, and the trap, of kind L, is taken after them. Stated of a load from the scratchpad and of a
store to it; the frame of the trap names exactly the lanes out of range and the address of the lowest one's element.

R207, R208: SPLK finds the slot of a line or answers 0xFFFF_FFFF; SPTAG installs a line in a slot that the wave reaches and
SPTAG.inv makes the slot invalid; a second slot for a line raises SCRATCH_TAG_DUPLICATE. -/
def Obligations.ScratchpadChecks : Prop :=
  (∀ (s : State) (w : Wave) (o : VMem) (i : Instr), Runs s w → o.chk = true → (i = .vlds o ∨ i = .vsts o) →
     let n := widthBytes o.w
     let f := vecForm o n 1
     let out := maskOf (fun l => (w.active s.slotB o.p).getLsbD l && decide (w.sys.bound.toNat < (f.term w l).toNat + n))
     let inside := (activeLanes s w o.p).filter (fun l => !out.getLsbD l)
     out ≠ 0 → (∀ l ∈ inside, reaches (scratchRanges s s.cur) (f.at w l) n = true ∧
       (s.core w.place.core).spPoison (f.at w l) n = none) →
     ∀ low, out.getLsbD low = true → (∀ l, l < low → out.getLsbD l = false) →
     let r : Raise := { cause := .elemRange, lanes := out, detail := 0, addr := BitVec.ofNat 64 (f.at w low) }
     r.kind = .l ∧
     (i = .vsts o → exec i s = .next (trapWord s (s.updCore w.place.core (fun c =>
       inside.foldl (fun c l => c.spWrite (f.at w l) (fromVec w o.d n l)) c)) r)) ∧
     (i = .vlds o → ∃ ds ss, exec i s = .next (trapWord s (s.setWave s.cur (heldBy s w o.la ds ss (inside.flatMap (fun l =>
       toVec o.d n l (leNat ((s.core w.place.core).spRead (f.at w l) n)))))) r))) ∧
  (∀ (s : State) (w : Wave) (p : Pred) (d a b : SReg), Runs s w → w.active s.slotB p ≠ 0 →
     let c := s.core w.place.core
     let line (x : W64) : Nat := x.toNat / 2 ^ 7 % 2 ^ 49
     let tag (x : W64) : W64 := BitVec.ofNat 64 (2 ^ 63 + w.place.ctx * 2 ^ 55 + line x)
     let slot := (w.getS a.toNat).toNat
     exec (.splk p d a) s = goesOn s (w.setS d.toNat (match c.tags.find? (fun e => e.2 == tag (w.getS a.toNat)) with
       | some e => BitVec.ofNat 64 e.1
       | none => 0xFFFFFFFF)) ∧
     (slot < 2 ^ 12 → reaches (scratchRanges s s.cur) (128 * slot) 128 = true →
       ((∀ e, c.tags.find? (fun e => e.2 == tag (w.getS b.toNat)) = some e → e.1 = slot) →
         exec (.sptag p a b) s = goesTo s (s.updCore w.place.core (fun c =>
           { c with tags := Cells.set 0 c.tags slot (tag (w.getS b.toNat)) }))) ∧
       ((∃ e, c.tags.find? (fun e => e.2 == tag (w.getS b.toNat)) = some e ∧ e.1 ≠ slot) →
         exec (.sptag p a b) s = traps s { cause := .scratchTagDuplicate, lanes := w.active s.slotB p }) ∧
       exec (.sptagInv p a) s = goesTo s (s.updCore w.place.core (fun c =>
         { c with tags := Cells.set 0 c.tags slot (Cells.get 0 c.tags slot &&& 0x7FFFFFFFFFFFFFFF) }))))

/-- R212, R213: LFULL reads a full word and .take empties it; SFULL writes an empty word and makes it full; each waits in its
turn while the word is in the other state; SFULL.nb answers in md whether it wrote; FEMPTY empties the word and answers
whether it was full. (Nobody else waits on the word.)

R213: a change of the bit serves the wave that waits on the word, inside the word that changed it. An SFULL completes a waiting
LFULL, which reads the value stored and empties the word again if it is an LFULL.take; an LFULL.take completes a waiting SFULL,
which stores its register and makes the word full again. A word that finds others waiting for the same state waits behind them. -/
def Obligations.FullEmptyWords : Prop :=
  (∀ (s : State) (w : Wave) (o : FEOp) (md : MReg) (pa : Nat), Runs s w → NoTx s → NoWaiters s pa → w.active s.slotB o.p ≠ 0 →
     wordPred s.ir = o.p →
     let v := BitVec.ofNat 64 (leNat (s.mem.readN pa 8))
     let done (i : Instr) (m : Memory) (ws : List RegWrite) : Prop :=
       ∃ t ds ss, exec i s = goesTo s t ∧ t.mem = m ∧ { rest t with dies := [] } = { rest s with dies := [] } ∧
         t.waves = s.waves.set s.cur (heldBy s w o.la ds ss ws)
     let stored := (s.mem.writeN pa (leBytes 8 (w.getS o.d.toNat).toNat)).setFull pa true
     (Tagged s w .read (feAt w o) pa →
       (s.mem.isFull pa = true → done (.lfull o) s.mem [.s o.d.toNat v]) ∧
       (s.mem.isFull pa = false →
         exec (.lfull o) s = .next (waitWord s s (.wordFull pa false (w.getS o.sa.toNat))))) ∧
     (Tagged s w .both (feAt w o) pa →
       (s.mem.isFull pa = true →
         done (.lfullTake o) (s.mem.setFull pa false) [.s o.d.toNat v] ∧
         exec (.sfull o) s = .next (waitWord s s (.wordEmpty pa (w.getS o.sa.toNat))) ∧
         done (.sfullNb o md) s.mem [.m md.toNat 0] ∧
         done (.fempty o) (s.mem.setFull pa false) [.s o.d.toNat 1]) ∧
       (s.mem.isFull pa = false →
         exec (.lfullTake o) s = .next (waitWord s s (.wordFull pa true (w.getS o.sa.toNat))) ∧
         done (.sfull o) stored [] ∧
         done (.sfullNb o md) stored [.m md.toNat 0xFFFFFFFF] ∧
         done (.fempty o) s.mem [.s o.d.toNat 0]))) ∧
  (∀ (s : State) (w u : Wave) (o : FEOp) (pa j : Nat) (b : Bool) (x : Wait) (take : Bool), Runs s w → NoTx s →
     w.active s.slotB o.p ≠ 0 → wordPred s.ir = o.p → Tagged s w .both (feAt w o) pa →
     let bytes (y : W64) : List Byte := leBytes 8 y.toNat
     let ends (i : Instr) (m : Memory) (mine theirs : List RegWrite) : Prop :=
       ∃ t ds ss, exec i s = goesTo s t ∧ t.mem = m ∧ { rest t with dies := [] } = { rest s with dies := [] } ∧
         t.waves = (s.waves.set s.cur (heldBy s w o.la ds ss mine)).set j (passed u b theirs)
     (OneWaiter s pa true j b u x take → s.mem.isFull pa = false →
       let stored := (s.mem.writeN pa (bytes (w.getS o.d.toNat))).setFull pa true
       stored.poisoned pa 8 = false →
       ends (.sfull o) (if take then stored.setFull pa false else stored) []
         [.s (wordD x.word) (BitVec.ofNat 64 (leNat (stored.readN pa 8)))]) ∧
     (OneWaiter s pa false j b u x false → s.mem.isFull pa = true →
       ends (.lfullTake o) (((s.mem.setFull pa false).writeN pa (bytes (u.getS (wordD x.word)))).setFull pa true)
         [.s o.d.toNat (BitVec.ofNat 64 (leNat (s.mem.readN pa 8)))] []) ∧
     (waitersOf s pa true ≠ [] →
       exec (.lfullTake o) s = .next (waitWord s s (.wordFull pa true (w.getS o.sa.toNat)))) ∧
     (waitersOf s pa false ≠ [] → exec (.sfull o) s = .next (waitWord s s (.wordEmpty pa (w.getS o.sa.toNat)))))

/-- R127: NOP has no effect, and is the word of opcode 0 in F3 whose fields other than the predicate are zero. R214: a FENCE
without .eng completes; a FENCE.eng completes once nothing that the wave posted before it is left, and waits otherwise. That a
FENCE without .eng has nothing to do is the model's choice (log 38: every step already takes its place in one order), and so is
what counts as posted before it (log 77). -/
def Obligations.NopAndFence : Prop :=
  (∀ (sys : Bool) (word : W64), word.toNat / 2 ^ 52 = 0 → ∀ i : Instr,
    decodeWord sys word = .ok i ↔ i = .nop ∧ word.toNat / 2 ^ 48 % 2 ^ 4 = 0 ∧ word.toNat % 2 ^ 43 = 0) ∧
  (∀ (s : State) (w : Wave) (p : Pred) (k : FenceKind) (c : FenceScope), Runs s w →
     exec .nop s = goesOn s w ∧ exec (.fence p k c false) s = goesOn s w ∧
     (w.active s.slotB p ≠ 0 → (w.slot s.slotB).wait = none →
       (postedBefore s s.cur s.ticket = false → exec (.fence p k c true) s = goesOn s w) ∧
       (postedBefore s s.cur s.ticket = true → exec (.fence p k c true) s = .next (waitWord s s (.engines s.ticket)))))

/-- R215 to R221: TXBEGIN opens a transaction with the slot's mask, RPC, depth and abort PC; TXEND makes its writes visible and
writes TXSTAT with CODE 0; TXABORT and a conflict discard them and put the recorded slot at the abort PC, with CODE 5 and its
user code or CODE 1 and a higher CNT; a cause met inside a transaction aborts it with CODE 6 and the cause's code, and takes no
trap, and so does a page stored to that FORKPG has shared since (R412); a TXBEGIN waits while a serialised transaction of its
scope runs (R220); without a transaction TXEND and TXABORT have no effect. What TXBEGIN keeps in TXSTAT (CNT, CAUSE, UCODE, CODE)
and sets (OPEN, SCOPE, SER) is the model's choice (log 19). -/
def Obligations.Transactions : Prop :=
  ∀ (s : State) (w : Wave), Runs s w →
    (∀ p dist cl, w.active s.slotB p ≠ 0 → NoTx s → (w.slot (!s.slotB)).valid = false →
      let x := w.slot s.slotB
      let old := w.sys.txstat.toNat
      let cnt := old / 2 ^ 12 % 2 ^ 4
      exec (.txbegin p dist cl) s = goesTo s { s.setWave s.cur { w with
          tx := some (openedTx s.slotB x w.stack.length (x.pc + 8 * dist.setWidth 64) cl s.ticket (cnt == 8))
          sys := { w.sys with txstat := BitVec.ofNat 64 (old / 2 ^ 24 % 2 ^ 6 * 2 ^ 24 + old / 2 ^ 16 % 2 ^ 8 * 2 ^ 16
            + cnt * 2 ^ 12 + (cnt == 8).toNat * 2 ^ 11 + 2 ^ 10 + cl.toNat * 2 ^ 8 + old % 2 ^ 4) } } with
        ticket := s.ticket + 1 }) ∧
    (∀ p dist cl, w.active s.slotB p ≠ 0 → (w.tx.isSome = true ∨ (w.slot (!s.slotB)).valid = true) →
      exec (.txbegin p dist cl) s = traps s { cause := .txForbidden, lanes := w.active s.slotB p, detail := 0 }) ∧
    (w.tx = none → exec .txend s = goesOn s w ∧ exec .txabort s = goesOn s w) ∧
    (∀ t, w.tx = some t → w.active s.slotB (wordPred s.ir) ≠ 0 → w.windows = [] →
      (t.conflict = false → SharedSince s w t → ∃ r : Raise, r.cause = .sharedPageWrite ∧ r.kind = .p ∧
        exec .txend s = traps s r) ∧
      (t.conflict = false → ¬ SharedSince s w t → ∃ u, exec .txend s = goesTo s u ∧
        { u with mem := {} } = { s.setWave s.cur (committedTx w t) with mem := {} } ∧
        (s.mem.wf = true → Cells.wf none t.written = true → ∀ pa, u.mem.read pa = (match Cells.get none t.written pa with
          | some b => b
          | none => s.mem.read pa))) ∧
      (t.conflict = true → exec .txend s = goesAt s (s.setWave s.cur (aborted w t 1 0 0 (min 8 (w.sys.txstat.toNat / 2 ^ 12 % 2 ^ 4 + 1))))) ∧
      exec .txabort s = goesAt s (s.setWave s.cur (aborted w t 5 0 (s.ir.toNat % 2 ^ 8) 0))) ∧
    (∀ t r, w.tx = some t → w.windows = [] → Settled (Slot.running t.abortPc t.mask t.rpc) → r.kind = .p →
      r.cause ≠ .txForbidden → r.cause ≠ .pageNotPresent → r.cause ∉ flagCauses →
      trapWord s s r = { s.setWave s.cur (aborted w t 6 r.cause.code 0 0) with fresh := s.fresh + 1 }) ∧
    (∀ p dist cl, w.active s.slotB p ≠ 0 → w.tx = none → (w.slot (!s.slotB)).valid = false → SerialMeets s w cl →
      exec (.txbegin p dist cl) s = .next (waitWord s s (.txTurn (some cl)))) ∧
    (∀ i u t, s.target = .wave i → s.wave i = some u → u.tx = some t → u.windows = [] → t.conflict = true →
      Settled (Slot.running t.abortPc t.mask t.rpc) →
      exec .txConflictAbort s = .next (s.setWave i (aborted u t 1 0 0 (min 8 (u.sys.txstat.toNat / 2 ^ 12 % 2 ^ 4 + 1)))))

/-- R172, R173: KVSLOT reads the bitmap word of each block that its active lanes name and writes each lane's slot number, or all
ones, and md; a lane beyond the table raises KV_POSITION. R465: TOKROUTE writes the key, the physical expert, the rank and the
count of each lane; a lane beyond the table raises ROUTE_INVALID. -/
def Obligations.TableLookups : Prop :=
  ∀ (s : State) (w : Wave) (p : Pred) (la : BitVec 4) (d a : VReg) (sb : SReg) (md : MReg), Runs s w → NoTx s →
    w.active s.slotB p ≠ 0 → (w.getS sb.toNat).toNat % 8 = 0 →
    let lanes := activeLanes s w p
    let x (l : Nat) : Nat := (w.getV a.toNat l).toNat
    ((∀ l ∈ lanes, x l / 64 < tableCount w sb ∧ Clear s w .read (tableAt w sb (x l / 64)) 8 1) →
      ∃ t ds ss, exec (.kvslot p la d a sb md) s = goesTo s t ∧ t.mem = s.mem ∧ rest t = rest s ∧
        t.waves = s.waves.set s.cur (heldBy s w la ds ss (lanes.map (fun l => RegWrite.v d.toNat l (kvValue s w a sb l))
          ++ [RegWrite.m md.toNat (maskOf (fun l => lanes.contains l && kvHas s w a sb l))]))) ∧
    (let far := maskOf (fun l => lanes.contains l && decide (tableCount w sb ≤ x l / 64))
     far ≠ 0 → exec (.kvslot p la d a sb md) s = traps s { cause := .kvPosition, lanes := far, detail := 0 }) ∧
    ((∀ l ∈ lanes, x l < tableCount w sb ∧ Clear s w .read (tableAt w sb (x l)) 8 1 ∧
        placement s w a sb l / 2 ^ 63 % 2 = 1 ∧ placement s w a sb l / 2 ^ 48 % 2 ^ 15 = 0 ∧ placement s w a sb l / 2 ^ 16 % 2 ^ 8 = 0) →
      ∃ t ds ss, exec (.tokroute p la d a sb) s = goesTo s t ∧ t.mem = s.mem ∧ rest t = rest s ∧
        t.waves = s.waves.set s.cur (heldBy s w la ds ss (lanes.flatMap (fun l => [
          RegWrite.v d.toNat l (BitVec.ofNat 32 (routeKey s w a sb l)),
          RegWrite.v (d.toNat + 1) l (BitVec.ofNat 32 (placement s w a sb l % 2 ^ 16)),
          RegWrite.v (d.toNat + 2) l (BitVec.ofNat 32 ((sameKey s w p a sb l).filter (fun k => decide (k < l))).length),
          RegWrite.v (d.toNat + 3) l (BitVec.ofNat 32 (sameKey s w p a sb l).length)])))) ∧
    (let far := maskOf (fun l => lanes.contains l && decide (tableCount w sb ≤ x l))
     far ≠ 0 → exec (.tokroute p la d a sb) s = traps s { cause := .routeInvalid, lanes := far, detail := 1 })

end

namespace Sys2Proof.Claims

open Sys2Proof Sys2Proof.Machine

/-! ### Pair words, system words, forked pages (R51-R53, R81-R87, R142, R411, R431-R434) -/

/-- A scalar slot of a P2 word, on the old d and on s (R86, R119). -/
def pairS (op : PairOp) (t : SType) (d x : W64) : W64 :=
  match op with
  | .sadd => opAdd t d x
  | .ssub => opSub t d x
  | .smul => opMul t d x
  | .sand => d &&& x
  | .sor => d ||| x
  | .sxor => d ^^^ x
  | .sshl => opShl t d x
  | .sshr => opShr t d x
  | .ssra => opSra t d x
  | .smin => opMin t d x
  | .smax => opMax t d x
  | .spopc => opPopc t x
  | .sclz => opClz t x
  | _ => x

/-- A mask slot (R86, R126). -/
def pairM (op : PairOp) (d x : W32) : W32 :=
  match op with
  | .mand => d &&& x
  | .mor => d ||| x
  | .mxor => d ^^^ x
  | _ => ~~~ x

/-- An element of a vector slot, with its flags (R86, R129, R145). -/
def pairE (op : PairOp) (t : EType) (rm : Rm) (ftz : Bool) (d x : Nat) : Nat × W32 :=
  let sat (e : Int) : Nat × W32 := (low t (max (least t) (min (most t) e)), if e < least t ∨ most t < e then 0x80 else 0)
  match op with
  | .vadd => (elAdd t d x, 0)
  | .vsub => (elSub t d x, 0)
  | .vmul => (elMul t d x, 0)
  | .vmin => (elMin t d x, 0)
  | .vmax => (elMax t d x, 0)
  | .vabsd => (elAbsd t d x, 0)
  | .vand => (d &&& x, 0)
  | .vor => (d ||| x, 0)
  | .vxor => (d ^^^ x, 0)
  | .vshl => (elShl t d x, 0)
  | .vshr => (elShr t d x, 0)
  | .vsra => (elSra t d x, 0)
  | .vpopc => (elPopc t x, 0)
  | .vclz => (elClz t x, 0)
  | .vadds => sat (num t d + num t x)
  | .vsubs => sat (num t d - num t x)
  | .vfadd => Flt.add t rm ftz d x
  | .vfsub => Flt.sub t rm ftz d x
  | .vfmul => Flt.mul t rm ftz d x
  | .vfmin => Flt.min t rm ftz d x
  | .vfmax => Flt.max t rm ftz d x
  | _ => (x, 0)

/-- The writes of one slot and the flags of each lane, on the registers of `w` (R86, R87). The variant chooses the type (R84), and M = 1 the
modifier with code 1. -/
def halfResult (s : State) (w : Wave) (op : PairOp) (h : Half) (isY : Bool) : List RegWrite × (Nat → W32) :=
  let lanes := activeLanes s w ⟨false, 0⟩
  match op.kind with
  | .scalar =>
    let t : SType := [SType.i64, .n64, .i32, .n32].getD h.var.toNat .i64
    let d := h.d.toNat % 64
    (if lanes = [] then [] else [.s d (pairS op t (w.getS d) (w.getS (h.s.toNat % 64)))], fun _ => 0)
  | .mask =>
    let d := h.d.toNat % 16
    (if lanes = [] then [] else [.m d (pairM op (w.getM d) (w.getM (h.s.toNat % 16)))], fun _ => 0)
  | _ =>
    let t := (op.eType h.var).getD .i32
    let d := (pairVReg isY h.d).toNat
    let x := (pairVReg isY h.s).toNat
    let e (l k : Nat) : Nat × W32 :=
      pairE op t w.rm w.ftz (el t (w.getV d l) k) (src t (if h.m then 1 else 0) (w.getV x l) k)
    (lanes.map (fun l => RegWrite.v d l (pack t (fun k => (e l k).1))),
     fun l => flagsOf t (fun k => (e l k).2))

/-- A field of a page-table entry, replaced (R407). -/
def withField (e hi lo x : Nat) : Nat := e - e / 2 ^ lo % 2 ^ (hi + 1 - lo) * 2 ^ lo + x % 2 ^ (hi + 1 - lo) * 2 ^ lo

/-- A source page that FORKPG can share, and the free L0 slot of the destination (R411). -/
structure Forkable (s : State) (w : Wave) (sa sb : W64) (x : Page) (slot : Nat) : Prop where
  low : sa.toNat < 2 ^ 56 ∧ sb.toNat < 2 ^ 56
  source : walk s w.place.ctx sa.toNat = .ok x
  page : x.size = 2 ^ 16 ∧ x.user = true ∧ x.host = false
  free : slotFrom s sb.toNat ((s.ctx w.place.ctx).root.toNat / 4096 * 4096) pageLevels = .slot slot false

/-- The primary entry of a page: its own, or the one that a forked entry names (R410). -/
def primaryOf (x : Page) : Nat := if x.entry.testBit 127 then x.entry / 2 ^ 64 % 2 ^ 48 * 16 else x.pteAddr

/-- Memory after a fork that shares the page (R410, R411): the primary entry counts one reference more, and no entry of the
page lets a write through. -/
def sharedPage (m : Memory) (x : Page) (slot : Nat) : Memory :=
  let e (m : Memory) (a : Nat) : Nat := leNat (m.readN a 16)
  let refs := e m (primaryOf x) / 2 ^ 64 % 2 ^ 16
  let m1 := m.writeN (primaryOf x) (leBytes 16 (withField (withField (e m (primaryOf x)) 79 64 (max refs 1 + 1)) 3 3 0))
  let m2 := m1.writeN x.pteAddr (leBytes 16 (withField (e m1 x.pteAddr) 3 3 0))
  m2.writeN slot (leBytes 16 (withField (withField (withField x.entry 127 127 1) 111 64 (primaryOf x / 16)) 3 3 0))

/-- A cached translation survives the invalidation of the page of an address (R434). -/
def keptBy (ctx va code : Nat) (c : Cached) : Bool :=
  match code with
  | 0 => decide (c.ctx ≠ ctx) || decide (c.size = 0) || decide (c.va + c.size ≤ va / 2 ^ 16 * 2 ^ 16) || decide (va / 2 ^ 16 * 2 ^ 16 + 2 ^ 16 ≤ c.va)
  | 1 => decide (c.ctx ≠ ctx)
  | _ => false

/-- Every TLB and every L2 after an invalidation. -/
def droppedTlb (s : State) (keep : Cached → Bool) : State :=
  { s with
    cores := s.cores.map (fun c => { c with tlb := c.tlb.filter keep })
    clusters := s.clusters.map (fun c => { c with l2 := c.l2.filter keep }) }

/-- A wave that has retired (R51, R53). -/
def Retired (t : State) (i : Nat) : Prop :=
  ∃ y, t.wave i = some y ∧ y.run.status = .retiring ∧ y.slotA.valid = false ∧ y.slotB.valid = false ∧ y.stack = []

end Sys2Proof.Claims

section
open Sys2Proof Sys2Proof.Machine Sys2Proof.Claims

/-- R81 to R87: a P2 word executes both slots: each reads the registers as they stood before the word, then the writes of X and
of Y take effect, and FPSTAT gathers the flags of both. With an enabled flag in a slot neither slot writes, FPSTAT still gathers
the flags of both, and FP_TRAP is taken for the lanes that raised one, with PAIRY when slot Y alone did. -/
def Obligations.PairWords : Prop :=
  ∀ (s : State) (w : Wave) (i : Instr) (op q : PairOp), Runs s w → Instr.wellFormed s.ir i = true → i.pairOp = some op →
    codeY s.ir = some q →
    let x := halfResult s w op (halfX s.ir) false
    let y := halfResult s w q (halfY s.ir) true
    let p : Pred := ⟨false, 0⟩
    let fl (l : Nat) : W32 := x.2 l ||| y.2 l
    let lanes := flagLanes s w p fl (fpEnabled w)
    FlagEnds s w i (gathered s w p fl)
      (if lanes = 0 then none
       else some { cause := .fpTrap, lanes := lanes, pairY := flagLanes s w p x.2 (fpEnabled w) == 0 })
      (applyWrites w (x.1 ++ y.1))

/-- R51 to R53, R142: EXIT takes the lanes of active(S) out of the slot and adds them to EXITED; a slot without lanes becomes
invalid; when every lane has exited the wave retires. TDONE (R395) retires the wave whatever lanes are left.

R432 to R434: ERET brings back the slots and the divergence depth that the entry into the handler saved and clears INHANDLER
(the layout of the save area that it reads is the model's choice, log 24); outside a handler it
has no effect, and with slot B valid it raises ILLEGAL_FIELD with DETAIL 7. HALT stops the wave at its next word. TLBINV drops
the translations that its operands name from every TLB and L2 and raises ILLEGAL_FIELD with DETAIL 4 for a reserved operand. -/
def Obligations.ExitAndSystemWords : Prop :=
  (∀ (s : State) (w : Wave), Runs s w → w.sync = [] → w.run.status = .running →
     let b := s.slotB
     let act := w.active b (wordPred s.ir)
     let left := (w.slot b).mask &&& ~~~ act
     (act = 0 → exec .tdone s = goesOn s w) ∧
     (act = 0 → (w.slot b).valid = true → exec .exit s = goesOn s w) ∧
     (act ≠ 0 → left ≠ 0 → (w.slot b).valid = true →
       exec .exit s = goesOn s ({ w with exited := w.exited ||| act }.setSlot b { w.slot b with mask := left })) ∧
     (act ≠ 0 → left = 0 → (w.slot (!b)).valid = true → Settled (w.slot (!b)) →
       exec .exit s = goesAt s (s.setWave s.cur ({ w with exited := w.exited ||| act }.setSlot b Slot.empty))) ∧
     (act ≠ 0 → left = 0 → (w.slot (!b)).valid = false → w.stack = [] → ∃ t, exec .exit s = .next t ∧ Retired t s.cur) ∧
     (act ≠ 0 → ∃ t, exec .tdone s = .next t ∧ Retired t s.cur)) ∧
  (∀ (s : State) (w : Wave), Runs s w →
     (∀ q x y, w.active s.slotB (wordPred s.ir) ≠ 0 → w.slotB.valid = false → w.sys.inHandler = true → w.abandoned = [] →
       x.faults = w.run.heldFaults.1 → y.faults = w.run.heldFaults.2 →
       walk s w.place.ctx (w.sys.priv.toNat + 0x800) = .ok q → w.sys.priv.toNat % 4096 = 0 →
       (s.mem.readN q.pa 64).take 48 = slotImage x ++ slotImage y → x.wait = none → y.wait = none →
       x.rpc ≠ some (BitVec.allOnes 64) → y.rpc ≠ some (BitVec.allOnes 64) →
       x.valid = true → Settled x → Settled y →
       exec .eret s = goesAt s (s.setWave s.cur { w with
         sys := { w.sys with inHandler := false }
         slotA := x
         slotB := y
         stack := w.stack.drop (w.stack.length - leNat (s.mem.readN (q.pa + 48) 8))
         run := { w.run with heldFaults := (0, 0) } })) ∧
     (w.slotB.valid = false → w.sys.inHandler = false → exec .eret s = goesOn s w) ∧
     (w.active s.slotB (wordPred s.ir) ≠ 0 → w.slotB.valid = true →
       exec .eret s = traps s (notUniform (w.active s.slotB (wordPred s.ir)))) ∧
     exec .halt s = goesOn s (if w.active s.slotB (wordPred s.ir) = 0 then w
       else { w with run := { w.run with status := .asleep } }) ∧
     (∀ p sa sb, w.active s.slotB p ≠ 0 →
       let b := (w.getS sb.toNat).toNat
       let ctx := if b / 2 ^ 8 % 2 = 1 then b % 2 ^ 8 else w.sys.ctxsel.toNat % 2 ^ 8
       let code := b / 2 ^ 9 % 4
       (b < 2 ^ 11 → code ≠ 3 →
         exec (.tlbinv p sa sb) s = goesTo s (droppedTlb s (keptBy ctx ((w.getS sa.toNat).toNat % 2 ^ 56) code))) ∧
       (2 ^ 11 ≤ b ∨ code = 3 →
         exec (.tlbinv p sa sb) s = traps s { cause := .illegalField, lanes := w.active s.slotB p, detail := 4 })))

/-- R410, R411: FORKPG of a 64 KiB user page onto a free slot shares the page while its count of references has room: sd
becomes 0, every entry of the page loses W, and no cached translation of the source survives. A source that cannot be shared
or a slot that is taken raises PAGE_PROTECTION with DETAIL 0x10 or 0x11. -/
def Obligations.ForkedPages : Prop :=
  ∀ (s : State) (w : Wave) (p : Pred) (la : BitVec 4) (d a b : SReg), Runs s w → w.active s.slotB p ≠ 0 →
    let sa := w.getS a.toNat
    let sb := w.getS b.toNat
    (∀ x slot, Forkable s w sa sb x slot → leNat (s.mem.readN (primaryOf x) 16) / 2 ^ 64 % 2 ^ 16 < 0xFFFF →
      ∃ t ds ss, exec (.forkpg p la d a b) s = goesTo s t ∧ t.mem = sharedPage s.mem x slot ∧
        t.waves = s.waves.set s.cur (heldBy s w la ds ss [.s d.toNat 0]) ∧
        { t with mem := {}, waves := [] } =
          { droppedTlb s (keptBy w.place.ctx sa.toNat 0) with mem := {}, waves := [] }) ∧
    (∀ slot, sa.toNat < 2 ^ 56 → sb.toNat < 2 ^ 56 →
      (∀ x, walk s w.place.ctx sa.toNat = .ok x → x.size ≠ 2 ^ 16 ∨ x.user = false ∨ x.host = true) →
      slotFrom s sb.toNat ((s.ctx w.place.ctx).root.toNat / 4096 * 4096) pageLevels = .slot slot false →
      exec (.forkpg p la d a b) s =
        traps s { cause := .pageProtection, lanes := w.active s.slotB p, detail := 0x10, addr := sa }) ∧
    (∀ x slot, sa.toNat < 2 ^ 56 → sb.toNat < 2 ^ 56 → walk s w.place.ctx sa.toNat = .ok x → x.size = 2 ^ 16 →
      x.user = true → x.host = false →
      slotFrom s sb.toNat ((s.ctx w.place.ctx).root.toNat / 4096 * 4096) pageLevels = .slot slot true →
      exec (.forkpg p la d a b) s =
        traps s { cause := .pageProtection, lanes := w.active s.slotB p, detail := 0x11, addr := sb })

end

namespace Sys2Proof.Claims

open Sys2Proof Sys2Proof.Machine

/-! ### The array: words (R243-R308) -/

/-- The array words that enter the sequencer, with predicate and lookahead (R281). -/
def arrayForm : Instr → Option (Pred × BitVec 4)
  | .movtc p la _ _ | .movftc p la _ _ | .tld p la _ _ | .tst p la _ _ | .tzero p la _ | .tldv p la _ _ _
  | .mrule p la _ _ _ _ | .mepi p la _ _ _ | .azero p la _ | .ald p la _ _ _ _ | .ast p la _ _ _ _ | .amov p la _ _
  | .acfree p la _ | .eld p la _ _ _ | .est p la _ _ _ | .stexp p la _ _ _ | .stimp p la _ _ _ => some (p, la)
  | .mma o | .mbin o _ => some (o.p, o.la)
  | .mrec o _ _ | .mbwd o _ => some (o.p, o.la)
  | _ => none

/-- What the sequencer accepts (R275): the word, its PC, its slot, its lanes, the scalars and lanes that it reads. -/
def accepted (s : State) (w : Wave) (i : Instr) (p : Pred) : ArrayOp :=
  let sc := arrayScalars w.getS i
  { wave := s.cur
    card := none
    clock := (s.core w.place.core).clock
    part := w.place.part
    cap :=
      { instr := i
        word := s.ir
        pc := (w.slot s.slotB).pc
        slotB := s.slotB
        lanes := w.active s.slotB p
        scalars := sc
        vectors := arrayVectors w sc i
        order := w.run.issued } }

/-- R243: `new` is the queue with `o` behind the others, but before those of higher partitions whose words issued in the same core
clock. -/
def JoinsQueue (old new : List ArrayOp) (o : ArrayOp) : Prop :=
  ∃ front back, old = front ++ back ∧ new = front ++ o :: back ∧ (∀ x ∈ back, x.clock = o.clock ∧ o.part < x.part) ∧
    ∀ x, front.getLast? = some x → ¬ (x.clock = o.clock ∧ o.part < x.part)

/-- The frames that may be granted to a wave (R181, R279): at most 32 are owned at one time, and what other waves hold for the
ACALLOC at which they were evicted is not free. -/
def grantable (s : State) (w : Wave) : Nat :=
  32 - (ownedFrames s w.place.core).length - ((residents s w.place.core).map (·.place.frameHold)).sum + w.place.frameHold

/-- The wave after acceptance (R282): MOVFTC completes when its scalar is written, every other word at acceptance. -/
def acceptedWave (s : State) (w : Wave) (i : Instr) (la : BitVec 4) (ds ss : List Reg) : Wave :=
  match i with
  | .movftc _ _ d _ => { w with windows := w.windows ++
      [{ slotB := s.slotB
         left := la.toNat
         done := false
         dests := [.s d.toNat]
         srcs := ss
         writes := []
         ends := .op w.run.issued }] }
  | _ => heldBy s w la ds ss []

/-- The empty entries of a frame map. -/
def emptyMap (w : Wave) : List Nat := (List.range 32).filter (fun e => (w.place.frameMap.getD e none).isNone)

/-- The bitmap of entries. -/
def bitmapOf (es : List Nat) : W64 := BitVec.ofNat 64 (es.map (fun e => 2 ^ e)).sum

/-- `t` is `s` with frames granted to the entries `es` of the wave that runs: distinct frames of its core that no wave owned,
and every owned frame keeps its elements (R277, R300). -/
structure Granted (s t : State) (w : Wave) (fs : List (Option Nat)) (es : List Nat) : Prop where
  size : fs.length = 32
  old : ∀ e, e ∉ es → fs.getD e none = w.place.frameMap.getD e none
  new : ∀ e ∈ es, ∃ q, fs.getD e none = some q ∧ q ∉ ownedFrames s w.place.core
  distinct : (es.map (fun e => fs.getD e none)).Nodup
  elems : ∀ q ∈ ownedFrames s w.place.core, frameElems (t.core w.place.core) q = frameElems (s.core w.place.core) q
  rest : { t with
    waves := s.waves
    cores := s.cores
    fresh := s.fresh } = s
  waves : ∀ k, k ≠ s.cur → t.wave k = s.wave k
  cores : ∀ k, { t.core k with store := { (t.core k).store with frames := [] } } =
    { s.core k with store := { (s.core k).store with frames := [] } }

/-! ### The array: operations -/

/-- The operation at the head of a sequencer may start, and no wave waits for frames (R243, R271, R277). -/
structure HeadOp (s : State) (c : Nat) (o : ArrayOp) (w : Wave) (rest : List ArrayOp) : Prop where
  core : c < s.cores.length
  idle : (s.core c).running = none ∧ (s.core (partnerOf c)).running = none
  queue : (s.core c).queue = o :: rest
  word : o.card = none
  wave : s.wave o.wave = some w
  place : w.place.core = c ∧ w.place.frameMap.length = 32 ∧ w.run.status ≠ .gone
  owned : (ownedFrames s c).length ≤ 32
  nobody : frameRequests s c = []
  checks : arrayChecks w o.cap.lanes o.cap.scalars o.cap.instr = []
  cells : Cells.wf 0 (s.core c).store.frames = true

/-- ARRAY_OP_START and then ARRAY_OP_COMMIT of a core lead to `u`. -/
def RunsTo (s : State) (c : Nat) (u : State) : Prop :=
  ∃ t, exec .arrayOpStart { s with target := .core c } = .next t ∧ exec .arrayOpCommit { t with target := .core c } = .next u

/-- Frame `e` of a wave now holds `xs`; every other frame of the wave and every other wave of the core keeps its elements,
and memory and the registers stand (R181, R198). -/
structure FrameBecomes (s u : State) (i e : Nat) (w : Wave) (xs : List W32) : Prop where
  wave : ∃ y, u.wave i = some y ∧ frameOf u y e = xs ∧
    (∀ f, f ≠ e → ownsFrame w f = true → frameOf u y f = frameOf s w f) ∧
    { y with
      place := { y.place with frameMap := w.place.frameMap }
      windows := w.windows } = w
  others : ∀ k, k ≠ i → u.wave k = s.wave k
  frames : ∀ k x f, k ≠ i → s.wave k = some x → x.place.core = w.place.core → x.run.status ≠ .gone →
    ownsFrame x f = true → frameOf u x f = frameOf s x f
  mem : u.mem = s.mem

/-- The elements of a frame by row and column. -/
def asFrame (f : Nat → Nat → W32) : List W32 := (List.range 4096).map (fun x => f (x / 64) (x % 64))
def atFrame (s : State) (w : Wave) (e i j : Nat) : W32 := (frameOf s w e).getD (64 * i + j) 0

end Sys2Proof.Claims

section
open Sys2Proof Sys2Proof.Machine Sys2Proof.Claims

/-- R272, R275, R281 to R283: an array word captures its operands and enters the sequencer of its core; it waits while the wave
has four pending operations; a cause found at issue keeps it out; with an empty active(S) it has no effect. Words that issue in one
core clock stand in ascending partition (R243). -/
def Obligations.ArrayPosting : Prop :=
  ∀ (s : State) (w : Wave) (i : Instr) (p : Pred) (la : BitVec 4), Runs s w → arrayForm i = some (p, la) →
    wordPred s.ir = p →
    let act := w.active s.slotB p
    let o := accepted s w i p
    let rs := arrayChecks w act o.cap.scalars i ++ streamPoison w o.cap.scalars i
    (act = 0 → exec i s = goesOn s w) ∧
    (act ≠ 0 → rs = [] → arrayPending s s.cur < 4 → ∃ ds ss q, JoinsQueue (s.core w.place.core).queue q o ∧
      exec i s = goesTo s ((s.updCore w.place.core (fun c => { c with queue := q })).setWave s.cur
        (acceptedWave s w i la ds ss))) ∧
    (act ≠ 0 → rs = [] → 4 ≤ arrayPending s s.cur → exec i s = .next (waitWord s s .arrayRoom)) ∧
    (∀ r, act ≠ 0 → settleRaises rs = some r → exec i s = traps s r)

/-- R277, R280, R283, R300, R303: a frame that the wave does not own raises ACCUM_FRAME, an edge that is not bound
FOOTPRINT_INVALID. ACALLOC fills the lowest empty map entries with free frames and writes their bitmap, or waits; ACALLOC.nb
writes 0 when the frames are not free (what other waves hold for the ACALLOC at which they were evicted is not free, R279, and
what the wave itself holds is). MWAIT waits for the wave's array operations. -/
def Obligations.FrameWords : Prop :=
  ∀ (s : State) (w : Wave) (p : Pred) (la : BitVec 4), Runs s w → w.run.status = .running →
    let act := w.active s.slotB p
    let r0 : Raise := { cause := .accumFrame, lanes := act, detail := 1 }
    let e0 : Raise := { cause := .footprintInvalid, lanes := act, detail := 1 }
    (∀ ad, act ≠ 0 → w.place.frameMap.getD ad.toNat none = none → exec (.azero p la ad) s = traps s r0) ∧
    (∀ sp ad a b, act ≠ 0 → w.place.frameMap.getD ad.toNat none = none → exec (.ald p la sp ad a b) s = traps s r0) ∧
    (∀ sp a af b, act ≠ 0 → w.place.frameMap.getD af.toNat none = none → exec (.ast p la sp a af b) s = traps s r0) ∧
    (∀ sp ed a, act ≠ 0 → w.place.edgeMap.getD ed.toNat none = none → exec (.eld p la sp ed a) s = traps s e0) ∧
    (∀ sp a eb, act ≠ 0 → w.place.edgeMap.getD eb.toNat none = none → exec (.est p la sp a eb) s = traps s e0) ∧
    (∀ (d a : SReg), act ≠ 0 →
      let n := (w.getS a.toNat).toNat
      let owned := (w.place.frameMap.filter (·.isSome)).length
      let free := grantable s w
      let held (x : Wave) (v : W64) (ds ss : List Reg) : Wave := heldBy s x la ds ss [.s d.toNat v]
      (64 ≤ n → exec (.acallocNb p la d a) s = traps s { cause := .illegalField, lanes := act, detail := 3 }) ∧
      (n < 64 → 32 < owned + n → exec (.acallocNb p la d a) s = traps s { cause := .accumLimit, lanes := act }) ∧
      (n = 0 → owned ≤ 32 → ∃ ds ss, exec (.acallocNb p la d a) s = goesOn s (held w 0 ds ss)) ∧
      (n ≠ 0 → owned + n ≤ 32 → free < n → ∃ ds ss, exec (.acallocNb p la d a) s = goesOn s (held w 0 ds ss)) ∧
      (n ≠ 0 → owned + n ≤ 32 → free < n → frameRequests s w.place.core = [] →
        exec (.acalloc p la d a) s = .next (waitWord s s (.frames n))) ∧
      (∀ i ∈ [Instr.acalloc p la d a, .acallocNb p la d a], n ≠ 0 → owned + n ≤ 32 → n ≤ free →
        (ownedFrames s w.place.core).length + n ≤ 32 → w.place.frameMap.length = 32 → frameRequests s w.place.core = [] →
        Cells.wf 0 (s.core w.place.core).store.frames = true →
        ∃ t fs ds ss, Granted s t w fs ((emptyMap w).take n) ∧
          exec i s = goesTo s (t.setWave s.cur (held { w with place := { w.place with frameMap := fs, frameHold := 0 } }
            (bitmapOf ((emptyMap w).take n)) ds ss)))) ∧
    (w.active s.slotB (wordPred s.ir) ≠ 0 → arrayPending s s.cur = 0 →
      ∃ ds ss, exec .mwait s = goesOn s (heldBy s w (wordLa s.ir) ds ss [])) ∧
    (w.active s.slotB (wordPred s.ir) ≠ 0 → arrayPending s s.cur ≠ 0 → wordLa s.ir = 0 →
      exec .mwait s = .next (waitWord s s .arrayDrain))

end

namespace Sys2Proof.Claims

open Sys2Proof Sys2Proof.Machine

/-! ### The array: contraction and recurrence (R245-R263, R291, R292, R295) -/

/-- The code of element (r, k) of a tile whose elements take whole bytes. -/
def codeAt (t : TileData) (r k : Nat) : Nat :=
  let b := Tiles.width t.tcr.fmt / 8
  leNat ((t.bytes.drop (r * Tiles.rowBytes t.tcr + k * b)).take b)

/-- Bit k of row r of a B1 tile. -/
def bitAt (t : TileData) (r k : Nat) : Bool := (t.bytes.getD (r * (t.tcr.cols / 8) + k / 8) 0).getLsbD (k % 8)

/-- The exact value of an element, with the scale of its group (R249). -/
def valueAt (t : TileData) (r k : Nat) : FVal :=
  let f := [Fmt.e4m3, Fmt.e5m2, Fmt.e4m3, Fmt.bf16, Fmt.fp16].getD t.tcr.fmt Fmt.fp32
  let v := f.decode (codeAt t r k)
  if t.tcr.strip then scaled v (t.strips.getD (32 * r + k / 32) 0).toNat else v

/-- The loop of R249 over the groups of `n` products of one cell. -/
def groupSums (n aprom cols : Nat) (prod : Nat → FVal) (f : W32) : W32 :=
  let groups := (cols + n - 1) / n
  ((List.range groups).foldl (fun (x : W32 × Nat × Nat) g =>
    let t := (List.range n).map (fun u => if n * g + u < cols then prod (n * g + u) else FVal.zero)
    let sum := gsum x.2.1 t
    if x.2.2 + 1 = aprom ∨ g + 1 = groups then (add32 x.1 (promote26 sum), 0, 0) else (x.1, sum, x.2.2 + 1)) (f, 0, 0)).1

/-- One cell of a contraction (R249, R250). -/
def cellOf (a b : TileData) (aprom i j : Nat) (f : W32) : W32 :=
  let cols := a.tcr.cols
  let sx (x : Nat) : Int := if 128 ≤ x then (x : Int) - 256 else x
  match a.tcr.fmt with
  | 2 => f + BitVec.ofInt 32 ((List.range cols).map (fun k => sx (codeAt a i k) * sx (codeAt b j k))).sum
  | 5 => (List.range cols).foldl (fun x k => fma32 (BitVec.ofNat 32 (codeAt a i k)) (BitVec.ofNat 32 (codeAt b j k)) x) f
  | fmt => groupSums (if fmt ≤ 1 then 16 else 4) aprom cols (fun k => (FVal.mul (valueAt a i k) (valueAt b j k)).1) f

/-- One cell of binary mode (R251). -/
def bitCell (op : BinOp) (a b : TileData) (i j : Nat) (f : W32) : W32 :=
  let cols := a.tcr.cols
  let count (g : Bool → Bool → Bool) : Int := ((List.range cols).filter (fun k => g (bitAt a i k) (bitAt b j k))).length
  f + BitVec.ofInt 32 (match op with
    | .and => count (· && ·)
    | .xor => count (· != ·)
    | .pm => cols - 2 * count (· != ·))

/-- The A and the B tile of a contraction as it finds them: valid, of one class and shape, without poison, and no epilogue
(R248, R291). -/
structure Contracts (s : State) (w : Wave) (o : MmaOp) (v : W64) (bin : Bool) : Prop where
  plain : (ocwOf v).epi = none ∧ (ocwOf v).rv = none ∧ (ocwOf v).cv = none ∧ (ocwOf v).l = none ∧ (ocwOf v).u = none ∧
    (ocwOf v).h2 = none
  valid : tcrValid (s.core w.place.core) o.ta.toNat = true ∧ tcrValid (s.core w.place.core) o.tb.toNat = true
  shape : (tileOf (s.core w.place.core) o.ta.toNat).tcr.cols = (tileOf (s.core w.place.core) o.tb.toNat).tcr.cols ∧
    (tileOf (s.core w.place.core) o.ta.toNat).tcr.strip = (tileOf (s.core w.place.core) o.tb.toNat).tcr.strip ∧
    Tiles.formatClass (tileOf (s.core w.place.core) o.ta.toNat).tcr.fmt =
      Tiles.formatClass (tileOf (s.core w.place.core) o.tb.toNat).tcr.fmt
  fits : bin = decide ((tileOf (s.core w.place.core) o.ta.toNat).tcr.fmt = 6)
  clean : tilePoisoned (s.core w.place.core) o.ta.toNat = false ∧ tilePoisoned (s.core w.place.core) o.tb.toNat = false ∧
    framePoisoned s w o.ad.toNat (tileOf (s.core w.place.core) o.ta.toNat).tcr.rows
      (tileOf (s.core w.place.core) o.tb.toNat).tcr.rows = false

/-- The cell of a plane at row i and column j, from its neighbours (R255, R258). -/
def cellIn (p : Plane) (h : Nat → Nat → W32) (i j : Nat) : CellIn :=
  { l := if j = 0 then p.left.getD i 0 else h i (j - 1)
    u := if i = 0 then p.top.getD (1 + j) 0 else h (i - 1) j
    d := if i = 0 then p.top.getD j 0 else if j = 0 then p.left.getD (i - 1) 0 else h (i - 1) (j - 1)
    a := p.rowv.getD i 0
    b := p.colv.getD j 0
    c := (p.c.getD i []).getD j 0 }

/-- The lengths of a plane of m rows and n columns. -/
structure PlaneSize (p : Plane) (m n : Nat) : Prop where
  top : p.top.length = n + 1
  left : p.left.length = m
  rowv : p.rowv.length = m
  colv : p.colv.length = n
  c : p.c.length = m ∧ ∀ r ∈ p.c, r.length = n

/-- A MREC that R295 lets run on one core: a loaded rule, edges of fitting length, no epilogue, no poison. -/
structure Recurs (s : State) (w : Wave) (o : RecOp) (d : RecDesc) (m n : Nat) : Prop where
  single : o.pair = false
  plain : d.rv = none ∧ d.cv = none ∧ d.epi = none
  rule : ((s.core w.place.core).store.rules.getD d.rule {}).uops ≠ [] ∧
    ((s.core w.place.core).store.rules.getD d.rule {}).poisoned = false
  sizes : (edgeOf s w d.left).len = m ∧ (edgeOf s w d.top).len = n + 1 ∧ 1 ≤ m ∧ m ≤ 64 ∧ 1 ≤ n ∧ n ≤ 64
  clean : (edgeOf s w d.top).poisoned = false ∧ (edgeOf s w d.left).poisoned = false
  apart : physEdge w d.bot ≠ physEdge w d.right
  cells : Cells.wf 0 (s.core w.place.core).store.edges = true ∧ Cells.wf 0 (s.core w.place.core).store.edgeLen = true ∧
    Cells.wf 0 (s.core w.place.core).store.edgeBase = true

end Sys2Proof.Claims

section
open Sys2Proof Sys2Proof.Machine Sys2Proof.Claims

/-- R181, R198, R272, R283: an operation that starts and commits. AZERO zeroes a frame, AMOV copies one, ALD.sp loads rows from
the scratchpad and AST.sp stores them; MOVTC writes a tile control register, MOVFTC reads one, TZERO zeroes a tile, ACFREE
empties map entries. A cause at the start is taken as kind P at the array word (a page fault too, log 40).

R276: a residue error restarts the operation that runs, from the beginning, and records ARRAY_REPLAY with the attempt;
while that record finds no entry, the operation waits (R190). When the third restart fails too, the wave takes ARRAY_UNCORRECTABLE
at the array word. -/
def Obligations.ArrayOperations : Prop :=
  (∀ (s : State) (c : Nat) (o : ArrayOp) (w : Wave) (rest : List ArrayOp), HeadOp s c o w rest →
     let x0 := o.cap.scalars.getD 0 0
     let x1 := o.cap.scalars.getD 1 0
     let frame (e : FrameReg) (f : Nat → Nat → W32) : Prop :=
       ∃ u, RunsTo s c u ∧ FrameBecomes s u o.wave e.toNat w (asFrame f)
     (∀ p la ad, o.cap.instr = .azero p la ad → frame ad (fun _ _ => 0)) ∧
     (∀ p la ad af, o.cap.instr = .amov p la ad af → framePoisoned s w af.toNat 64 64 = false →
       frame ad (atFrame s w af.toNat)) ∧
     (∀ p la ad a b, o.cap.instr = .ald p la true ad a b →
       let at0 := x0.toNat % 2 ^ 19
       let row := x1.toNat % 64
       let n := if x1.toNat / 2 ^ 8 % 128 = 0 then 64 else x1.toNat / 2 ^ 8 % 128
       at0 % 8 = 0 → row + n ≤ 64 → reaches (scratchRanges s o.wave) at0 (256 * n) = true →
       (s.core c).spPoison at0 (256 * n) = none → Cells.wf 0 (s.core c).scratch = true →
       frame ad (fun i j => if row ≤ i ∧ i < row + n then
           BitVec.ofNat 32 (leNat (Cells.slice 0 (s.core c).scratch (at0 + 256 * (i - row) + 4 * j) 4))
         else atFrame s w ad.toNat i j)) ∧
     (∀ p la a af b, o.cap.instr = .ast p la true a af b →
       let at0 := x0.toNat % 2 ^ 19
       let row := x1.toNat % 64
       let n := if x1.toNat / 2 ^ 8 % 128 = 0 then 64 else x1.toNat / 2 ^ 8 % 128
       at0 % 8 = 0 → row + n ≤ 64 → reaches (scratchRanges s o.wave) at0 (256 * n) = true →
       (∀ q, physFrame w af.toNat = some q →
         (s.core c).store.framePoison.hasAny (2048 * q + 32 * row) (32 * n) = false) →
       Cells.wf 0 (s.core c).scratch = true →
       ∃ u, RunsTo s c u ∧ u.mem = s.mem ∧
         (∀ i j, row ≤ i → i < row + n → j < 64 →
           BitVec.ofNat 32 (leNat (Cells.slice 0 (u.core c).scratch (at0 + 256 * (i - row) + 4 * j) 4)) =
             atFrame s w af.toNat i j) ∧
         (∀ b, b < at0 ∨ at0 + 256 * n ≤ b → Cells.get 0 (u.core c).scratch b = Cells.get 0 (s.core c).scratch b)) ∧
     (∀ p la td a, o.cap.instr = .movtc p la td a → x0.toNat < 2 ^ 32 → Tiles.tcrOk (x0.setWidth 32) = true →
       Cells.wf 0 (s.core c).store.tcr = true →
       ∃ u, RunsTo s c u ∧ u.mem = s.mem ∧ ∀ t, Cells.get 0 (u.core c).store.tcr t =
         if t = td.toNat then x0.setWidth 32 else Cells.get 0 (s.core c).store.tcr t) ∧
     (∀ p la d ta, o.cap.instr = .movftc p la d ta → Cells.wf 0 w.s = true →
       ∃ u y, RunsTo s c u ∧ u.mem = s.mem ∧ u.wave o.wave = some y ∧
         ∀ r, y.getS r = if r = d.toNat ∧ r ≠ 0 then (Cells.get 0 (s.core c).store.tcr ta.toNat).setWidth 64 else w.getS r) ∧
     (∀ p la td, o.cap.instr = .tzero p la td → Cells.wf 0 (s.core c).store.tiles = true →
       ∃ u, RunsTo s c u ∧ u.mem = s.mem ∧ ∀ b, Cells.get 0 (u.core c).store.tiles b =
         if b / 8192 = td.toNat then 0 else Cells.get 0 (s.core c).store.tiles b) ∧
     (∀ p la a, o.cap.instr = .acfree p la a →
       (∀ e < 32, x0.toNat.testBit e = true → w.place.frameMap.getD e none ≠ none) →
       ∃ u y, RunsTo s c u ∧ u.mem = s.mem ∧ u.wave o.wave = some y ∧
         ∀ e < 32, y.place.frameMap.getD e none = if x0.toNat.testBit e then none else w.place.frameMap.getD e none) ∧
     (∀ rs r, startOp s o = .error rs → settleRaises rs = some r → w.run.status ≠ .retiring → w.tx = none →
       exec .arrayOpStart { s with target := .core c } = .next (takeTrap { s with
         target := .core c
         fresh := s.fresh + 1 } o.wave { r with declined := true } o.cap.slotB o.cap.pc o.cap.word false true))) ∧
  (∀ (s : State) (c : Nat) (r : Running) (w : Wave), s.target = .core c → (s.core c).running = some r → c < s.cores.length →
     s.wave r.op.wave = some w → w.place.core = c → r.op.card = none → w.run.status = .running → r.restart = false →
     (residueChecked r.op.cap.instr = true → r.attempts < 3 → (s.core c).eventRoom = false →
       exec .arrayResidueError s = .next (s.updCore c (fun k => { k with
         held := k.held ++ [{ kind := 7, wave := w.place.num, token := 0, cause := .noCause, data := r.attempts + 1, addr := 0
                              who := r.op.wave }]
         running := some { r with writes := [], restart := true, attempts := r.attempts + 1 } }))) ∧
     (∀ st, residueChecked r.op.cap.instr = true → r.attempts < 3 → (s.core c).eventRoom = true →
       let s1 := recordOf s r.op.wave 7 .noCause (r.attempts + 1) 0
       startOp s1 r.op = .ok st →
         exec .arrayResidueError s = .next (({ st.state with fresh := st.state.fresh + 1 }).updCore c (fun k => { k with
           running := some { r with
             writes := st.writes
             follower := st.follower
             attempts := r.attempts + 1 } }))) ∧
     (r.attempts = 3 → w.tx = none →
       exec .arrayUncorrectable s = .next (takeTrap s r.op.wave
         { cause := .arrayUncorrectable, lanes := r.op.cap.lanes, declined := true } r.op.cap.slotB r.op.cap.pc r.op.cap.word false true)))

end

namespace Sys2Proof.Claims

open Sys2Proof Sys2Proof.Machine

/-! ### The array: pairs of cores, the epilogue, the backward sweep (R264-R271, R291, R296, R297) -/

/-- A pair contraction has its follower `y`, wave `j` of the other core, which holds the frame and a B tile of the same control
register, without poison (R271, R291, R312). -/
structure Follows (s : State) (c : Nat) (w : Wave) (m : MmaOp) (j : Nat) (y : Wave) : Prop where
  follower : followerOf s w = some j
  wave : s.wave j = some y
  place : y.place.core = partnerOf c ∧ partnerOf c ≠ c ∧ partnerOf c < s.cores.length ∧ y.place.frameMap.length = 32
  owned : ownsFrame y m.ad.toNat = true ∧ (ownedFrames s (partnerOf c)).length ≤ 32
  tile : Cells.get 0 (s.core (partnerOf c)).store.tcr m.tb.toNat = Cells.get 0 (s.core c).store.tcr m.tb.toNat
  clean : tilePoisoned (s.core (partnerOf c)) m.tb.toNat = false ∧
    framePoisoned s y m.ad.toNat (tileOf (s.core c) m.ta.toNat).tcr.rows (tileOf (s.core c) m.tb.toNat).tcr.rows = false
  turn : c % 2 = 0 ∨ (s.core (partnerOf c)).queue = []
  cells : Cells.wf 0 (s.core (partnerOf c)).store.frames = true

/-- What MEPI finds (R297): a loaded rule, vectors that are long enough, no poison. -/
structure Epilogues (s : State) (w : Wave) (x : Ocw) (af k : Nat) : Prop where
  slot : x.epi = some k
  rule : ((s.core w.place.core).store.rules.getD (8 + k) {}).uops ≠ [] ∧
    ((s.core w.place.core).store.rules.getD (8 + k) {}).poisoned = false
  rows : ∀ e, x.rv = some e → x.m ≤ (edgeOf s w e).len ∧ (edgeOf s w e).poisoned = false
  columns : ∀ e, x.cv = some e → x.n ≤ (edgeOf s w e).len ∧ (edgeOf s w e).poisoned = false
  clean : ∀ f, f = af ∨ x.l = some f ∨ x.u = some f → framePoisoned s w f x.m x.n = false

/-- An element of the frame that an optional operand names, and a value of an optional edge. -/
def elementOf (s : State) (w : Wave) (f : Option Nat) (i j : Nat) : W32 := match f with
  | some f => atFrame s w f i j
  | none => 0
def valueOf (s : State) (w : Wave) (e : Option Nat) (k : Nat) : W32 := match e with
  | some e => (edgeOf s w e).vals.getD k 0
  | none => 0

/-- Element (i, j) of a plane given by its rows. -/
def atRows (h : List (List W32)) (i j : Nat) : W32 := (h.getD i []).getD j 0

/-- The weights wL, wU, wD and wC of a cell (R265), on the stored plane `h`. -/
def weights (p : Plane) (h : List (List W32)) (i j : Nat) : W32 × W32 × W32 × W32 := cellWeights p.us p.k (cellIn p (atRows h) i j)

/-- The seed of a cell (R266): the adjoints of the right and of the bottom edge. -/
def seedOf (m n : Nat) (gR gB : List W32) (i j : Nat) : W32 :=
  if i + 1 = m ∧ j + 1 = n then add32 (gR.getD i 0) (gB.getD n 0)
  else if j + 1 = n then gR.getD i 0
  else if i + 1 = m then gB.getD (1 + j) 0
  else 0

/-- What MBWD finds beside a plane that runs forward (R296): a rule that it can differentiate, the adjoints of both output edges,
the stored plane and its C frame without poison. -/
structure Differentiates (s : State) (w : Wave) (d : RecDesc) (ah m n : Nat) (cf : Option Nat) (outL outT : Nat) : Prop where
  rule : Rule.differentiable ((s.core w.place.core).store.rules.getD d.rule {}).uops = true
  adjoints : (edgeOf s w d.right).len = m ∧ (edgeOf s w d.bot).len = n + 1 ∧
    (edgeOf s w d.right).poisoned = false ∧ (edgeOf s w d.bot).poisoned = false
  clean : ∀ f, f = ah ∨ cf = some f → framePoisoned s w f m n = false
  apart : physEdge w outL ≠ physEdge w outT

/-! ### The array: tiles, rules, edges and streams (R286-R289, R293, R302, R304, R305) -/

/-- The operation changed no byte of memory and no register of a wave; the windows behind it have ended. -/
structure OnlyCore (s u : State) (i : Nat) (w : Wave) : Prop where
  mem : u.mem = s.mem
  wave : ∃ y, u.wave i = some y ∧ { y with windows := w.windows } = w
  others : ∀ k, k ≠ i → u.wave k = s.wave k

/-- The canonical layout of tile `t` at scratchpad offset `at0` may be used (R247, R287). -/
structure LaidOut (s : State) (c i t : Nat) (x0 : W64) : Prop where
  valid : tcrValid (s.core c) t = true
  aligned : x0.toNat % 128 = 0 ∧ x0.toNat < 2 ^ 19
  within : reaches (scratchRanges s i) x0.toNat (Tiles.layoutBytes (tileOf (s.core c) t).tcr) = true

/-- A store of a core without its tiles, without its edges. -/
def noTiles (c : Core) : ArrayStore := { c.store with tiles := [], strips := [], tilePoison := [] }
def noEdges (c : Core) : ArrayStore := { c.store with edges := [], edgeLen := [], edgeBase := [], edgePoison := [] }

/-- An edge register: its length, its base, its 129 values. -/
structure EdgeIs (c : Core) (q len : Nat) (base : W32) (vals : Nat → W32) : Prop where
  len : Cells.get 0 c.store.edgeLen q = len
  base : Cells.get 0 c.store.edgeBase q = base
  vals : ∀ k, k < 129 → Cells.get 0 c.store.edges (129 * q + k) = vals k

/-- The image of an edge register (R302). -/
def edgeBytes (c : Core) (q : Nat) : List Byte :=
  leBytes 4 (Cells.get 0 c.store.edgeLen q) ++ leBytes 4 (Cells.get 0 c.store.edgeBase q).toNat ++ List.replicate 8 0
    ++ (List.range 129).flatMap (fun k => leBytes 4 (Cells.get 0 c.store.edges (129 * q + k)).toNat) ++ List.replicate 12 0

/-- The word at a byte of an image. -/
def wordAt (img : List Byte) (k : Nat) : W32 := BitVec.ofNat 32 (leNat ((img.drop k).take 4))
/-- An edge image that stands at a byte of an image (R302). -/
def EdgeRead (c : Core) (q : Nat) (img : List Byte) (k : Nat) : Prop :=
  EdgeIs c q (wordAt img k).toNat (wordAt img (k + 4)) (fun n => wordAt img (k + 16 + 4 * n))

/-- The header of a stream image and its body as STEXP writes them (R304). -/
def streamHeader (sb format step : W64) : List Byte :=
  leBytes 4 1 ++ leBytes 4 0 ++ leBytes 8 format.toNat ++ leBytes 8 step.toNat ++ leBytes 4 (sb.toNat % 2 ^ 32)
    ++ leBytes 1 (sb.toNat / 2 ^ 32 % 2 ^ 8) ++ leBytes 1 (sb.toNat / 2 ^ 40 % 2 ^ 8) ++ leBytes 2 0
def streamFrames (sb : W64) : List Nat := (List.range 32).filter (fun k => sb.toNat.testBit k)
def streamEdges (sb : W64) : List Nat := (List.range 8).filter (fun k => sb.toNat.testBit (32 + k))
def streamPairs (sb : W64) : Nat := sb.toNat / 2 ^ 40 % 2 ^ 8
def streamBody (s : State) (w : Wave) (sb : W64) (pairs : List W32) : List Byte :=
  (streamFrames sb).flatMap (fun f => (frameOf s w f).flatMap (fun x => leBytes 4 x.toNat))
    ++ (streamEdges sb).flatMap (fun e => edgeBytes (s.core w.place.core) ((physEdge w e).getD 0))
    ++ pairs.flatMap (fun x => leBytes 4 x.toNat)
def streamSize (sb : W64) : Nat := 64 + 16384 * (streamFrames sb).length + 544 * (streamEdges sb).length + 256 * streamPairs sb

/-- The first check of R305 that an image fails, by its DETAIL; none when it passes. -/
def streamFails (sb format : W64) (img : List Byte) : Option Nat :=
  if wordAt img 0 ≠ 1 then some 1
  else if leNat ((img.drop 8).take 8) ≠ format.toNat then some 2
  else if (img.drop 0x18).take 6 ≠ ((streamHeader sb 0 0).drop 0x18).take 6 then some 3
  else if (img.drop 32).take 32 ≠ sha256 (img.take 32 ++ img.drop 64) then some 4
  else if (List.range (streamEdges sb).length).any (fun k =>
    decide (129 < (wordAt img (64 + 16384 * (streamFrames sb).length + 544 * k)).toNat)) then some 5
  else none

end Sys2Proof.Claims

section
open Sys2Proof Sys2Proof.Machine Sys2Proof.Claims

/-- R248 to R251, R291, R292: MMA adds A times B transposed to the rows and columns of its frame that the tiles cover, each
cell by the loop of its format; MBIN counts bits. Elements outside keep their values, and tiles of different shapes raise
TILE_SHAPE.

R271, R291: an MMA over a pair of cores leaves in the leader's frame the product with its own B tile, and in the follower's
frame that with the B tile of the other core; every other frame of both waves, memory and every other wave stay. R268, R297: MEPI
runs its rule over the M by N region of a frame and writes H into its destination and H2 into the frame that it names. -/
def Obligations.Contraction : Prop :=
  (∀ (s : State) (c : Nat) (o : ArrayOp) (w : Wave) (rest : List ArrayOp), HeadOp s c o w rest →
     let v := o.cap.scalars.getD 0 0
     let result (m : MmaOp) (cell : Nat → Nat → W32 → W32) : Prop :=
       let a := tileOf (s.core c) m.ta.toNat
       let b := tileOf (s.core c) m.tb.toNat
       ∃ u, RunsTo s c u ∧ FrameBecomes s u o.wave m.ad.toNat w (asFrame (fun i j =>
         if i < a.tcr.rows ∧ j < b.tcr.rows then cell i j (atFrame s w m.ad.toNat i j) else atFrame s w m.ad.toNat i j))
     (∀ m, o.cap.instr = .mma m → m.pair = false → Contracts s w m v false →
       result m (cellOf (tileOf (s.core c) m.ta.toNat) (tileOf (s.core c) m.tb.toNat) (ocwOf v).aprom)) ∧
     (∀ m op, o.cap.instr = .mbin m op → m.pair = false → Contracts s w m v true →
       result m (bitCell op (tileOf (s.core c) m.ta.toNat) (tileOf (s.core c) m.tb.toNat))) ∧
     (∀ m, o.cap.instr = .mma m → m.pair = false → tcrValid (s.core c) m.ta.toNat = true →
       tcrValid (s.core c) m.tb.toNat = true →
       (tileOf (s.core c) m.ta.toNat).tcr.cols ≠ (tileOf (s.core c) m.tb.toNat).tcr.cols → ∃ rs,
         startOp s o = .error rs ∧ ({ cause := .tileShape, lanes := o.cap.lanes, detail := 1 } : Raise) ∈ rs)) ∧
  (∀ (s : State) (c : Nat) (o : ArrayOp) (w : Wave) (rest : List ArrayOp), HeadOp s c o w rest →
     let v := o.cap.scalars.getD 0 0
     (∀ m j y, o.cap.instr = .mma m → m.pair = true → Contracts s w m v false → Follows s c w m j y →
       let a := tileOf (s.core c) m.ta.toNat
       let product (b : TileData) (z : Wave) : List W32 := asFrame (fun i k =>
         if i < a.tcr.rows ∧ k < b.tcr.rows then cellOf a b (ocwOf v).aprom i k (atFrame s z m.ad.toNat i k)
         else atFrame s z m.ad.toNat i k)
       ∃ u w' y', RunsTo s c u ∧ u.wave o.wave = some w' ∧ u.wave j = some y' ∧
         frameOf u w' m.ad.toNat = product (tileOf (s.core c) m.tb.toNat) w ∧
         frameOf u y' m.ad.toNat = product (tileOf (s.core (partnerOf c)) m.tb.toNat) y ∧
         (∀ f, f ≠ m.ad.toNat → (ownsFrame w f = true → frameOf u w' f = frameOf s w f) ∧
           (ownsFrame y f = true → frameOf u y' f = frameOf s y f)) ∧
         u.mem = s.mem ∧ ∀ k, k ≠ o.wave → k ≠ j → u.wave k = s.wave k) ∧
     (∀ p la ad af sc k, o.cap.instr = .mepi p la ad af sc →
       let x := ocwOf v
       let rule := (s.core c).store.rules.getD (8 + k) {}
       Epilogues s w x af.toNat k →
       let cell (i j : Nat) : CellRun := runCell rule.uops rule.consts
         { l := elementOf s w x.l i j, u := elementOf s w x.u i j, d := 0, a := valueOf s w x.rv i, b := valueOf s w x.cv j
           c := atFrame s w af.toNat i j }
       ∃ u y, RunsTo s c u ∧ u.wave o.wave = some y ∧ u.mem = s.mem ∧ (∀ k, k ≠ o.wave → u.wave k = s.wave k) ∧
         ∀ f, ownsFrame w f = true → frameOf u y f = asFrame (fun i j =>
           if i < x.m ∧ j < x.n then
             (if f = ad.toNat then (cell i j).h
              else if x.h2 = some f then ((cell i j).x2).getD (atFrame s w f i j) else atFrame s w f i j)
           else atFrame s w f i j)))

/-- R255 to R262, R295: MREC computes every cell of its plane by its rule from the cells to the left, above and on the diagonal
and from its edges, writes the plane into its frame and the last row and column into its output edges.

R264 to R267, R296: MBWD runs over its plane from the last cell to the first: the adjoint of a cell is its seed and then the
adjoints of the cells to its right, below and below to its right, each times its weight, added in this order; the gradient is the
adjoint times wC, and the left and the top output edge receive the adjoints that leave the plane. -/
def Obligations.RecurrencePlane : Prop :=
  ((∀ (p : Plane) (m n : Nat), PlaneSize p m n → ∀ i j, i < m → j < n →
     let h (i j : Nat) : W32 := ((p.sweep.getD i []).getD j (0, none)).1
     let r := runCell p.us p.k (cellIn p h i j)
     (p.sweep.getD i []).getD j (0, none) = (r.h, r.x2)) ∧
   (∀ (s : State) (c : Nat) (o : ArrayOp) (w : Wave) (rest : List ArrayOp) (x : RecOp) (m n : Nat), HeadOp s c o w rest →
     o.cap.instr = .mrec x none false → let d := recDesc (o.cap.scalars.getD 0 0)
     Recurs s w x d m n →
     let pb := recPlane s w none x d none
     let h (i j : Nat) : W32 := ((pb.1.sweep.getD i []).getD j (0, none)).1
     ∃ u y, RunsTo s c u ∧ u.wave o.wave = some y ∧
       FrameBecomes s u o.wave x.ad.toNat w (asFrame (fun i j =>
         if i < m ∧ j < n then h i j else atFrame s w x.ad.toNat i j)) ∧
       (edgeOf u y d.bot).len = n + 1 ∧ (edgeOf u y d.bot).base = pb.2 ∧
       (edgeOf u y d.bot).vals = pb.1.left.getD (m - 1) 0 :: (List.range n).map (h (m - 1)) ∧
       (edgeOf u y d.right).len = m ∧ (edgeOf u y d.right).base = pb.2 ∧
       (edgeOf u y d.right).vals = (List.range m).map (fun i => h i (n - 1)))) ∧
  ((∀ (p : Plane) (m n : Nat) (h : List (List W32)) (gR gB : List W32), PlaneSize p m n → h.length = m →
     (∀ r ∈ h, r.length = n) → 0 < n →
     let b := p.backward h gR gB
     let wt := weights p h
     ∃ e : Nat → Nat → W32,
       (∀ i j, i < m → j < n →
         let e0 := seedOf m n gR gB i j
         let e1 := if j + 1 < n then add32 e0 (mul32 (e i (j + 1)) (wt i (j + 1)).1) else e0
         let e2 := if i + 1 < m then add32 e1 (mul32 (e (i + 1) j) (wt (i + 1) j).2.1) else e1
         e i j = (if i + 1 < m ∧ j + 1 < n then add32 e2 (mul32 (e (i + 1) (j + 1)) (wt (i + 1) (j + 1)).2.2.1) else e2) ∧
         atRows b.g i j = mul32 (e i j) (wt i j).2.2.2) ∧
       (∀ i, i < m →
         let v := add32 (if i + 1 = m then gB.getD 0 0 else 0) (mul32 (e i 0) (wt i 0).1)
         b.ladj.getD i 0 = if i + 1 < m then add32 v (mul32 (e (i + 1) 0) (wt (i + 1) 0).2.2.1) else v) ∧
       (0 < m → b.tadj.getD 0 0 = add32 0 (mul32 (e 0 0) (wt 0 0).2.2.1) ∧
         ∀ j, j < n →
           let v := add32 0 (mul32 (e 0 j) (wt 0 j).2.1)
           b.tadj.getD (1 + j) 0 = if j + 1 < n then add32 v (mul32 (e 0 (j + 1)) (wt 0 (j + 1)).2.2.1) else v)) ∧
   (∀ (s : State) (c : Nat) (o : ArrayOp) (w : Wave) (rest : List ArrayOp) (x : RecOp) (ah : FrameReg) (m n : Nat),
     HeadOp s c o w rest → o.cap.instr = .mbwd x ah →
     let d := recDesc (o.cap.scalars.getD 0 0)
     let y := (o.cap.scalars.getD 1 0).toNat
     let cf : Option Nat := if y.testBit 15 then some (y / 2 ^ 10 % 32) else none
     let outL := y / 2 ^ 3 % 8
     let outT := y / 2 ^ 6 % 8
     Recurs s w x d m n → Differentiates s w d ah.toNat m n cf outL outT →
     let h := (List.range m).map (fun i => (List.range n).map (fun j => atFrame s w ah.toNat i j))
     let b := (recPlane s w none x d cf).1.backward h (edgeOf s w d.right).vals (edgeOf s w d.bot).vals
     ∃ u z, RunsTo s c u ∧ u.wave o.wave = some z ∧
       FrameBecomes s u o.wave x.ad.toNat w (asFrame (fun i j =>
         if i < m ∧ j < n then atRows b.g i j else atFrame s w x.ad.toNat i j)) ∧
       (edgeOf u z outL).len = m ∧ (edgeOf u z outL).base = 0 ∧ (edgeOf u z outL).vals = b.ladj ∧
       (edgeOf u z outT).len = n + 1 ∧ (edgeOf u z outT).base = 0 ∧ (edgeOf u z outT).vals = b.tadj))

/-- R286 to R289, R293, R302, R304, R305: what the tile, rule, edge and stream operations leave. TLD and TST move a tile and its
scales between its canonical layout in the scratchpad and the tile; TLDV writes the words of the active lanes; MRULE loads a rule
slot or raises its cause; ELD and EST move the image of an edge; STEXP writes a stream image with its digest, and STIMP checks one
and writes its frames, edges and pair registers. Nothing else changes. (Global reads and writes are those of the shared functions
that every engine uses.) -/
def Obligations.TileAndEdgeWords : Prop :=
  ∀ (s : State) (c : Nat) (o : ArrayOp) (w : Wave) (rest : List ArrayOp), HeadOp s c o w rest → NoTx s →
    let k := s.core c
    let x0 := o.cap.scalars.getD 0 0
    let tcr (t : Nat) : Tcr := (tileOf k t).tcr
    let store (u : State) : ArrayStore := (u.core c).store
    (∀ p la td a, o.cap.instr = .tld p la td a → LaidOut s c o.wave td.toNat x0 →
      Cells.wf 0 k.store.tiles = true → Cells.wf 0 k.store.strips = true →
      let t := tcr td.toNat
      let n := Tiles.rowBytes t
      let rs := Tiles.rowStride t
      let ss := Tiles.stripStride t
      (∀ r, r < t.rows → k.spPoison (x0.toNat + r * rs) n = none ∧
        k.spPoison (x0.toNat + t.rows * rs + r * ss) (if t.strip then t.cols / 32 else 0) = none) →
      ∃ u, RunsTo s c u ∧ OnlyCore s u o.wave w ∧ noTiles (u.core c) = noTiles k ∧
        (∀ b, Cells.get 0 (store u).tiles b =
          let j := b - 8192 * td.toNat
          if 8192 * td.toNat ≤ b ∧ j < t.rows * n then Cells.get 0 k.scratch (x0.toNat + j / n * rs + j % n)
          else Cells.get 0 k.store.tiles b) ∧
        (∀ b, Cells.get 0 (store u).strips b =
          let j := b - 2048 * td.toNat
          if t.strip = true ∧ 2048 * td.toNat ≤ b ∧ j < 32 * t.rows ∧ j % 32 < t.cols / 32 then
            Cells.get 0 k.scratch (x0.toNat + t.rows * rs + j / 32 * ss + j % 32)
          else Cells.get 0 k.store.strips b)) ∧
    (∀ p la a tb, o.cap.instr = .tst p la a tb → LaidOut s c o.wave tb.toNat x0 → tilePoisoned k tb.toNat = false →
      Cells.wf 0 k.scratch = true →
      let t := tcr tb.toNat
      let n := Tiles.rowBytes t
      let rs := Tiles.rowStride t
      let ss := Tiles.stripStride t
      ∃ u, RunsTo s c u ∧ OnlyCore s u o.wave w ∧ store u = k.store ∧
        ∀ b, Cells.get 0 (u.core c).scratch b =
          let j := b - x0.toNat
          let i := j - t.rows * rs
          if x0.toNat ≤ b ∧ j < t.rows * rs then
            (if j % rs < n then Cells.get 0 k.store.tiles (8192 * tb.toNat + j / rs * n + j % rs) else 0)
          else if x0.toNat ≤ b ∧ j < Tiles.layoutBytes t then
            (if i % ss < t.cols / 32 then Cells.get 0 k.store.strips (2048 * tb.toNat + i / ss * 32 + i % ss) else 0)
          else Cells.get 0 k.scratch b) ∧
    (∀ p la td va sb, o.cap.instr = .tldv p la td va sb → tcrValid k td.toNat = true → Cells.wf 0 k.store.tiles = true →
      let off := x0.toNat % 2 ^ 14
      let size := Tiles.elemBytes (tcr td.toNat)
      off % 128 = 0 → off < size →
      ∃ u, RunsTo s c u ∧ OnlyCore s u o.wave w ∧ noTiles (u.core c) = noTiles k ∧
        ∀ b, Cells.get 0 (store u).tiles b =
          let j := b - (8192 * td.toNat + off)
          if 8192 * td.toNat + off ≤ b ∧ j < 128 ∧ off + j < size ∧ o.cap.lanes.getLsbD (j / 4) = true then
            BitVec.ofNat 8 ((o.cap.vectors.getD (j / 4) 0).toNat / 2 ^ (8 * (j % 4)))
          else Cells.get 0 k.store.tiles b) ∧
    (∀ p la epi slot a b, o.cap.instr = .mrule p la epi slot a b → x0.toNat % 8 = 0 →
      readRaises s w o.wave false o.cap.lanes x0.toNat 40 = [] → k.store.rules.length = 16 →
      let img := (readBytes s w false x0.toNat 40).2
      let count := (wordAt img 0).toNat
      let uops := (List.range count).map (fun j => wordAt img (8 + 4 * j))
      let consts := [1, 2].flatMap (fun j =>
        [(o.cap.scalars.getD j 0).setWidth 32, ((o.cap.scalars.getD j 0) >>> 32).setWidth 32])
      (1 ≤ count → count ≤ 8 → wordAt img 4 = 0 → Rule.ok epi uops = true →
        ∃ u, RunsTo s c u ∧ OnlyCore s u o.wave w ∧ { store u with rules := [] } = { k.store with rules := [] } ∧
          ∀ j, j < 16 → (store u).rules.getD j {} =
            if j = (if epi then 8 else 0) + slot.toNat then { uops := uops, consts := consts, poisoned := false }
            else k.store.rules.getD j {}) ∧
      (count = 0 ∨ 8 < count ∨ wordAt img 4 ≠ 0 ∨ Rule.ok epi uops = false → startOp s o = .error
        [{ cause := if epi then .epilogueInvalid else .ruleInvalid, lanes := o.cap.lanes, detail := 1 }])) ∧
    (∀ p la sp ed a q, o.cap.instr = .eld p la sp ed a → physEdge w ed.toNat = some q →
      let at0 := if sp then x0.toNat % 2 ^ 19 else x0.toNat
      at0 % 16 = 0 → readRaises s w o.wave sp o.cap.lanes at0 544 = [] →
      Cells.wf 0 k.store.edges = true → Cells.wf 0 k.store.edgeLen = true → Cells.wf 0 k.store.edgeBase = true →
      let img := (readBytes s w sp at0 544).2
      ((wordAt img 0).toNat ≤ 129 → ∃ u, RunsTo s c u ∧ OnlyCore s u o.wave w ∧ noEdges (u.core c) = noEdges k ∧
        EdgeRead (u.core c) q img 0 ∧ ∀ e, e ≠ q → edgeBytes (u.core c) e = edgeBytes k e) ∧
      (129 < (wordAt img 0).toNat → startOp s o = .error [{ cause := .edgeLength, lanes := o.cap.lanes, detail := 6 }])) ∧
    (∀ p la sp a eb q, o.cap.instr = .est p la sp a eb → physEdge w eb.toNat = some q →
      let at0 := if sp then x0.toNat % 2 ^ 19 else x0.toNat
      at0 % 16 = 0 → writeRaises s w o.wave sp o.cap.lanes at0 544 = [] → k.store.edgePoison.hasAny (68 * q) 68 = false →
      Cells.wf 0 k.scratch = true →
      ∃ u, RunsTo s c u ∧ store u = k.store ∧
        (sp = true → OnlyCore s u o.wave w ∧ ∀ b, Cells.get 0 (u.core c).scratch b =
          if at0 ≤ b ∧ b < at0 + 544 then (edgeBytes k q).getD (b - at0) 0 else Cells.get 0 k.scratch b) ∧
        (sp = false → u.mem = (rangeWrite s (engineAgent w) at0 (edgeBytes k q)).mem)) ∧
    (let sb := o.cap.scalars.getD 1 0
     let format := o.cap.scalars.getD 2 0
     let size := streamSize sb
     (∀ p la v a b, o.cap.instr = .stexp p la v a b → x0.toNat % 64 = 0 →
       writeRaises s w o.wave false o.cap.lanes x0.toNat size = [] →
       o.cap.vectors.length = 64 * streamPairs sb →
       (∀ f ∈ streamFrames sb, framePoisoned s w f 64 64 = false) →
       (∀ e ∈ streamEdges sb, k.store.edgePoison.hasAny (68 * (physEdge w e).getD 0) 68 = false) →
       let head := streamHeader sb format (o.cap.scalars.getD 3 0)
       let body := streamBody s w sb o.cap.vectors
       ∃ u, RunsTo s c u ∧ store u = k.store ∧
         u.mem = (rangeWrite s (engineAgent w) x0.toNat (head ++ sha256 (head ++ body) ++ body)).mem) ∧
     (∀ p la v a b, o.cap.instr = .stimp p la v a b → x0.toNat % 64 = 0 →
       readRaises s w o.wave false o.cap.lanes x0.toNat size = [] →
       Cells.wf 0 k.store.edges = true → Cells.wf 0 k.store.edgeLen = true → Cells.wf 0 k.store.edgeBase = true →
       (∀ e ∈ streamEdges sb, ∀ f ∈ streamEdges sb, e ≠ f → physEdge w e ≠ physEdge w f) → Cells.wf 0 w.v = true →
       let img := (readBytes s w false x0.toNat size).2
       let frames := streamFrames sb
       let edges := streamEdges sb
       let edgeAt := 64 + 16384 * frames.length
       let pairAt := edgeAt + 544 * edges.length
       (streamFails sb format img = none → ∃ u y, RunsTo s c u ∧ u.wave o.wave = some y ∧ u.mem = s.mem ∧
         (∀ j, j < frames.length → frameOf u y (frames.getD j 0) =
           asFrame (fun r q => wordAt img (64 + 16384 * j + 256 * r + 4 * q))) ∧
         (∀ f, ownsFrame w f = true → f ∉ frames → frameOf u y f = frameOf s w f) ∧
         (∀ j, j < edges.length → EdgeRead (u.core c) ((physEdge w (edges.getD j 0)).getD 0) img (edgeAt + 544 * j)) ∧
         (∀ r l, l < 32 → y.getV r l = if v.toNat ≤ r ∧ r < v.toNat + 2 * streamPairs sb then
             wordAt img (pairAt + 128 * (r - v.toNat) + 4 * l)
           else w.getV r l)) ∧
       (∀ d, streamFails sb format img = some d → ∃ rs r, startOp s o = .error rs ∧ settleRaises rs = some r ∧
         r.cause = .streamImport ∧ r.detail = d ∧ r.lanes = o.cap.lanes)))

end

namespace Sys2Proof.Claims

open Sys2Proof Sys2Proof.Machine

/-! ### The copy engine, tokens, user interrupts (R53, R187-R192, R222-R235) -/

/-- The words that post a copy: predicate, lookahead, and the four words of the entry (R222, R225, R226): the low 20 bits of the
last register are replaced by format, flags and operation. -/
def copyForm : Instr → Option (Pred × BitVec 4 × (Wave → List W64))
  | .cpy o out => some (o.p, o.la, fun w => entryOf w o 1 0 out)
  | .cgath o fmt => some (o.p, o.la, fun w => entryOf w o 2 fmt.toNat false)
  | .cscat o fmt => some (o.p, o.la, fun w => entryOf w o 3 fmt.toNat false)
  | .cexp o fmt => some (o.p, o.la, fun w => entryOf w o 4 fmt.toNat false)
  | .cpack o fmt => some (o.p, o.la, fun w => entryOf w o 5 fmt.toNat false)
  | .cpost p la a => some (p, la, fun w => (List.range 4).map (fun k => w.getS (a.toNat + k)))
  | _ => none
where
  entryOf (w : Wave) (o : CopyOp) (op fmt : Nat) (out : Bool) : List W64 :=
    let last := (w.getS (o.sa.toNat + 3)).toNat
    (List.range 3).map (fun k => w.getS (o.sa.toNat + k)) ++
      [BitVec.ofNat 64 (last - last % 2 ^ 20 + fmt * 2 ^ 16 + out.toNat * 2 ^ 13 + o.int.toNat * 2 ^ 12 +
        o.rows.toNat * 2 ^ 11 + o.tok.toNat * 2 ^ 8 + op)]

/-- The registers of a copy post leave bits [19:0] of the last one zero (R225); CPOST has no such rule. -/
def copyPlain (w : Wave) : Instr → Prop
  | .cpy o _ | .cgath o _ | .cscat o _ | .cexp o _ | .cpack o _ => (w.getS (o.sa.toNat + 3)).toNat % 2 ^ 20 = 0
  | _ => True

/-- The checks of R227 pass: the entry is valid, its scratchpad ranges are in reach, a counting entry has a group, an
interrupting one a handler. -/
structure Postable (s : State) (w : Wave) (ws : List W64) : Prop where
  entry : entryBad ws = false
  reach : ∀ p ∈ (copyCmd ws).places, reaches (scratchRanges s s.cur) p.1 p.2 = true
  rows : (copyCmd ws).countsRows = true → s.groupOf w ≠ none
  handler : (copyCmd ws).interrupts = true → w.sys.uivec ≠ 0

/-- The core after a post (R191, R227): the entry stands at TAIL, TAIL has moved on, and the engine knows the entry. -/
def postedCore (s : State) (w : Wave) (r : Ring) (ws : List W64) : Core :=
  let c := s.core w.place.core
  let tail := leNat (c.spRead r.base 4) % r.size
  let e : CopyEntry :=
    { words := ws
      bound := w.sys.bound
      wave := s.cur
      oete := w.sys.fpctl.getLsbD 9
      order := s.ticket
      index := tail }
  let c1 : Core := { c with rings := c.rings.map (fun x =>
    if x.bound = true ∧ x.ctx = w.place.ctx ∧ x.key = w.sys.gkey then { x with entries := x.entries ++ [e] } else x) }
  (c1.spWrite (r.base + 32 + 32 * tail) (ws.flatMap (fun x => leBytes 8 x.toNat))).spWrite r.base
    (leBytes 4 ((tail + 1) % r.size))

/-- Entry `e` of ring `k` of a core is the one that the engine serves next, in a state without transactions. -/
structure Serves (s : State) (core k : Nat) (r : Ring) (e : CopyEntry) (w : Wave) : Prop where
  target : s.target = .ring core k
  inRange : core < s.cores.length
  ring : (s.core core).rings[k]? = some r
  entry : r.entries = [e] ∧ e.started = false ∧ e.serving = {}
  wave : s.wave e.wave = some w ∧ w.place.core = core
  quiet : NoTx s
  cells : Cells.wf 0 (s.core core).scratch = true

/-- A CPY of one row that stays inside 64 KiB, away from its ring's header. -/
structure OneRow (r : Ring) (c : CopyCmd) : Prop where
  op : c.op = 1
  rows : c.rows = 1
  len : c.len ≠ 0 ∧ c.gaddr.toNat % 2 ^ 16 + c.len ≤ 2 ^ 16
  apart : c.soff + c.len ≤ r.base ∨ r.base + 32 ≤ c.soff

/-- The parts of the row in global memory. -/
def rowParts (s : State) (w : Wave) (need : Need) (c : CopyCmd) : List Part :=
  partsOf s (engineAgent w) need c.gaddr.toNat c.len
def rowClear (s : State) (w : Wave) (need : Need) (c : CopyCmd) : Prop :=
  partRaises 1 (rowParts s w need c) = [] ∧ mediumRaises s 1 need.reads (rowParts s w need c) = []

/-- WAITTK finds every token of its mask clear (R230). -/
def allClear (w : Wave) (mask : Nat) : Prop := ∀ k < 8, mask.testBit k = true → w.token k = 0

/-- The forms of WAITTK and TKINT with their masks, and whether TKINT names the group (R230, R233). -/
def waitForms (s : State) (w : Wave) : Instr → Option (Pred × Nat)
  | .waittk => some (wordPred s.ir, s.ir.toNat % 256)
  | .waittkReg p a => some (p, (w.getS a.toNat).toNat % 256)
  | _ => none
def armForms (s : State) (w : Wave) : Instr → Option (Pred × Nat × Bool)
  | .tkint => some (wordPred s.ir, s.ir.toNat % 256, s.ir.getLsbD 17)
  | .tkintReg p g a => some (p, (w.getS a.toNat).toNat % 256, g)
  | _ => none

/-- A slot that comes back from a handler without its exited lanes (R235): a word that was blocked executes again, and only
an arrival at a barrier, which stands (R319), is remembered. -/
def backSlot (x : Slot) (exited : W32) : Slot :=
  if x.mask &&& ~~~ exited = 0 then {}
  else { x with
    mask := x.mask &&& ~~~ exited
    wait := match x.wait with
      | some y => match y.kind with
        | .barrier _ | .roleBarrier _ _ => some y
        | _ => none
      | none => none }

/-- A wave without the undelivered interrupts that wave `i` armed earlier (R233). -/
def unasked (i : Nat) (w : Wave) : Wave :=
  { w with intr := { w.intr with requests := w.intr.requests.filter (fun x => x ≠ some i) } }

/-- The wave `i` of a state becomes `x`, and no wave has an undelivered interrupt that wave `i` armed earlier (R233). -/
def rearmed (s : State) (i : Nat) (x : Wave) : State :=
  { s with waves := (s.waves.map (unasked i)).set i x }

/-- The slot whose next word an interrupt comes before, and that word (R234). -/
def nextSlotB (w : Wave) : Bool := if (w.slot w.run.lastSlotB).valid then w.run.lastSlotB else !w.run.lastSlotB
def nextWordOf (s : State) (w : Wave) : W64 :=
  BitVec.ofNat 64 (leNat (privRead s w.place.ctx (w.slot (nextSlotB w)).pc.toNat 8))

end Sys2Proof.Claims

section
open Sys2Proof Sys2Proof.Machine Sys2Proof.Claims

/-- R191, R222, R225 to R227: a copy word writes its entry at TAIL of the ring of its key, moves TAIL on and raises its token's
count; it waits while the ring or the token is full. Without a ring it raises RING_FORMAT with DETAIL 4, with an invalid entry
DETAIL 5. CPOST.bind binds a ring. That a scratchpad range must lie in one range in reach, and that an invalid entry records
no other cause of R227, is the model's choice (log 88). -/
def Obligations.CopyPosts : Prop :=
  ∀ (s : State) (w : Wave), Runs s w →
    (∀ i p la words, copyForm i = some (p, la, words) → wordPred s.ir = p → w.active s.slotB p ≠ 0 →
      let ws := words w
      let c := copyCmd ws
      let act := w.active s.slotB p
      (∀ r, copyPlain w i → Postable s w ws → ringOf s w = some r →
        ringSize (s.core w.place.core) r.base w.sys.gkey ≠ none → (s.core w.place.core).spPoison r.base 32 = none →
        (r.entries.length + 1 < r.size → w.token c.token < 63 → ∃ ds ss,
          exec i s = goesTo s { s with
            ticket := s.ticket + 1
            cores := s.cores.set w.place.core (postedCore s w r ws)
            waves := s.waves.set s.cur (heldBy s (w.setToken c.token (w.token c.token + 1)) la ds ss []) }) ∧
        (r.size ≤ r.entries.length + 1 → exec i s = .next (waitWord s s (.ringRoom w.place.core r.base))) ∧
        (r.entries.length + 1 < r.size → 63 ≤ w.token c.token → exec i s = .next (waitWord s s (.tokenRoom c.token)))) ∧
      (copyPlain w i → Postable s w ws → ringOf s w = none →
        exec i s = traps s { cause := .ringFormat, lanes := act, detail := 4 }) ∧
      (∀ r, entryBad ws = true → ringOf s w = some r → ringSize (s.core w.place.core) r.base w.sys.gkey ≠ none →
        (s.core w.place.core).spPoison r.base 32 = none →
        exec i s = traps s { cause := .ringFormat, lanes := act, detail := 5 })) ∧
    (∀ p la (a : SReg) size, w.active s.slotB p ≠ 0 → wordPred s.ir = p →
      let base := (w.getS a.toNat).toNat
      let c := s.core w.place.core
      ringSize c base w.sys.gkey = some size → reaches (scratchRanges s s.cur) base (32 + 32 * size) = true →
      c.spPoison base 32 = none → ringOf s w = none → (c.rings.filter (·.bound)).length < 64 → ∃ ds ss,
        exec (.cpostBind p la a) s = goesTo s ((s.updCore w.place.core (fun k => { k with rings := k.rings ++
          [{ base := base
             size := size
             ctx := w.place.ctx
             key := w.sys.gkey }] })).setWave s.cur (heldBy s w la ds ss [])))

/-- R192, R224, R229: COPY_ENTRY_START moves what the entry names, here the bytes of a CPY; the other way the scratchpad's bytes
go to memory and no other byte changes. COPY_COMPLETION advances DONE, lowers the entry's token and records COPY_DONE, or
COPY_FAULT with the fault that the entry met. -/
def Obligations.CopyEvents : Prop :=
  (∀ (s : State) (core k : Nat) (r : Ring) (e : CopyEntry) (w : Wave), Serves s core k r e w →
    (∃ t, exec .copyEntryStart s = .next t) ∧
    (let c := copyCmd e.words
     OneRow r c →
      (c.flags.testBit 5 = false → rowClear s w .read c → ∃ t, exec .copyEntryStart s = .next t ∧ t.mem = s.mem ∧
        (t.core core).spRead c.soff c.len = bytesAt s.mem (partRanges (rowParts s w .read c)) ∧
        t.waves = s.waves) ∧
      (c.flags.testBit 5 = true → rowClear s w .write c → (s.core core).spPoison c.soff c.len = none →
        ∃ t, exec .copyEntryStart s = .next t ∧ t.waves = s.waves ∧
          t.mem = putAt s.mem (partRanges (rowParts s w .write c)) ((s.core core).spRead c.soff c.len)))) ∧
  (∀ (s : State) (core k : Nat) (r : Ring) (e : CopyEntry) (w : Wave), s.target = .ring core k →
    core < s.cores.length → (s.core core).rings[k]? = some r → r.entries.head? = some e → e.started = true →
    (s.core core).eventRoom = true →
    (∃ t, exec .copyCompletion s = .next t) ∧
    (let c := copyCmd e.words
     s.wave e.wave = some w → w.run.status = .running → w.run.evicted = false → w.intr.armed = none → c.countsRows = false →
      c.interrupts = false → e.escape = false → ∃ t y, exec .copyCompletion s = .next t ∧ t.mem = s.mem ∧
        t.wave e.wave = some y ∧
        y = { w with
          tokens := Cells.set 0 w.tokens c.token (w.token c.token - 1)
          faults := w.faults ++ (match e.fault with
            | none => []
            | some f => [{ order := e.order
                           token := c.token
                           cause := f.2.1
                           detail := 0
                           addr := f.2.2 }]) } ∧
        (t.core core).events = (s.core core).events ++ [match e.fault with
          | none =>
            { kind := 1
              wave := w.place.num
              token := c.token
              cause := .noCause
              data := c.rows
              addr := c.gaddr
              who := e.wave }
          | some f =>
            { kind := 2
              wave := w.place.num
              token := c.token
              cause := f.2.1
              data := f.1
              addr := f.2.2
              who := e.wave }] ∧
        (Cells.wf 0 (s.core core).scratch = true →
          leNat ((t.core core).spRead (r.base + 8) 4) = (r.done + 1) % 2 ^ 32)))

/-- R230, R233 to R235: WAITTK waits until its tokens are clear, then takes the first posted fault of the commands that it
observed; TKINT arms an interrupt, in place of any undelivered one of the wave, that fires when its tokens are clear; delivery
saves both slots and runs slot A at UIVEC, or raises UIVEC_UNSET at the next word; UIRET brings the slots back without the
lanes that have exited. That UIVEC enters the PC unmasked is the model's choice (log 85). -/
def Obligations.TokensAndInterrupts : Prop :=
  ∀ (s : State) (w : Wave), Runs s w → w.run.status = .running →
    (∀ i p m, waitForms s w i = some (p, m) → w.active s.slotB p ≠ 0 →
      (¬ allClear w m → exec i s = .next (waitWord s s (.tokens m))) ∧
      (allClear w m → (∀ f ∈ w.faults, m.testBit f.token = false) → exec i s = goesOn s w) ∧
      (∀ f, allClear w m → f ∈ w.faults → m.testBit f.token = true →
        (∀ g ∈ w.faults, m.testBit g.token = true → g = f ∨ f.order < g.order) →
        exec i s = .next (trapWord s
          (s.setWave s.cur { w with faults := w.faults.filter (fun g => !m.testBit g.token) })
          { cause := f.cause
            lanes := 0
            detail := f.detail
            addr := f.addr
            eng := true }))) ∧
    (∀ i p m g, armForms s w i = some (p, m, g) → w.active s.slotB p ≠ 0 →
      (w.sys.uivec = 0 → g = false →
        exec i s = traps s { cause := .uivecUnset, lanes := w.active s.slotB p }) ∧
      (w.sys.uivec ≠ 0 → g = true → s.groupOf w = none →
        exec i s = traps s { cause := .notMember, lanes := w.active s.slotB p }) ∧
      (w.sys.uivec ≠ 0 → (g = true → s.groupOf w ≠ none) → ¬ allClear w m →
        exec i s = goesTo s (rearmed s s.cur { w with intr := { (unasked s.cur w).intr with
          armed := some { mask := m, group := if g then some w.sys.gkey else none } } })) ∧
      (w.sys.uivec ≠ 0 → g = false → allClear w m →
        exec i s = goesTo s (rearmed s s.cur { w with intr := { (unasked s.cur w).intr with
          armed := none
          requests := (unasked s.cur w).intr.requests ++ [some s.cur] } })) ∧
      (∀ x, w.sys.uivec ≠ 0 → g = true → s.groupOf w = some x → allClear w m → ∃ t, exec i s = goesTo s t ∧
        ∀ j y, s.wave j = some y → y.run.status = .running → ∃ z, t.wave j = some z ∧
          z.intr.requests = (unasked s.cur y).intr.requests ++
            List.replicate (x.members.filter (fun n => n.wave = j)).length (some s.cur))) ∧
    (w.active s.slotB (wordPred s.ir) ≠ 0 →
      (w.intr.inHandler = false → exec .uiret s = goesOn s w) ∧
      (w.intr.inHandler = true → (w.slotB.valid = true ∨ w.stack.length ≠ w.intr.savedDepth) →
        exec .uiret s = traps s (notUniform (w.active s.slotB (wordPred s.ir)))) ∧
      (w.intr.inHandler = true → w.slotB.valid = false → w.stack.length = w.intr.savedDepth →
        exec .uiret s = goesAt s (s.setWave s.cur { w.endWindows false with
          slotA := backSlot w.intr.savedA w.exited
          slotB := backSlot w.intr.savedB w.exited
          intr := { w.intr with
            inHandler := false
            savedA := {}
            savedB := {}
            savedDepth := 0 } }))) ∧
    (s.target = .wave s.cur → w.intr.requests ≠ [] → w.intr.inHandler = false → w.tx = none → w.run.evicted = false →
      w.run.evicting = false → (w.slotA.valid || w.slotB.valid) = true → (s.core w.place.core).eventRoom = true →
      w.sys.uivec = 0 → exec .userInterruptDelivery s = .next (takeTrap
        (s.setWave s.cur { w with intr := { w.intr with requests := w.intr.requests.tail } }) s.cur
        { cause := .uivecUnset, lanes := w.active (nextSlotB w) (wordPred (nextWordOf s w)) } (nextSlotB w)
        (w.slot (nextSlotB w)).pc (nextWordOf s w) false false)) ∧
    (s.target = .wave s.cur → w.intr.requests ≠ [] → w.intr.inHandler = false → w.tx = none → w.run.evicted = false →
      w.run.evicting = false → (w.slotA.valid || w.slotB.valid) = true → (s.core w.place.core).eventRoom = true →
      w.sys.uivec ≠ 0 → w.sys.gkey = 0 → frameRequests s w.place.core = [] → ∃ t y, exec .userInterruptDelivery s = .next t ∧
        t.mem = s.mem ∧ t.wave s.cur = some y ∧ y.slotA = Slot.running w.sys.uivec (~~~ w.exited) none ∧ y.slotB = {} ∧
        y.intr = { w.intr with
          requests := w.intr.requests.tail
          inHandler := true
          savedA := w.slotA
          savedB := w.slotB
          savedDepth := w.stack.length } ∧
        y.v = w.v ∧ y.s = w.s ∧ y.m = w.m ∧ y.stack = w.stack ∧ y.sys = w.sys ∧ y.tokens = w.tokens)

end

namespace Sys2Proof.Claims

open Sys2Proof Sys2Proof.Machine

/-! ### Job cards and chains (R236-R240, R306, R322-R324) -/

/-- The cached translations that the wave's accesses may use agree with its page table (R408). -/
def Coherent (s : State) (w : Wave) : Prop :=
  ∀ x ∈ (s.core w.place.core).tlb ++ (s.cluster (clusterOf w.place.core)).l2, x.ctx = w.place.ctx →
    ∀ va, x.va ≤ va → va < x.va + x.size → walk s x.ctx va = .ok (cachedPage x va)

/-- A write that changes no translation of a context. -/
def KeepsMap (s : State) (ctx : Nat) (m : Memory) : Prop := ∀ va, walk { s with mem := m } ctx va = walk s ctx va

/-- a is ahead of b modulo 2^32 (R239). -/
def ahead (a b : Nat) : Prop := let d := (a + 2 ^ 32 - b) % 2 ^ 32; 1 ≤ d ∧ d ≤ 2 ^ 31 - 1

/-- The descriptor at `desc` and the card at `addr` of a CHAIN lie at the physical addresses pd and pc, and every access of the
word is clear. -/
structure Chainable (s : State) (w : Wave) (desc addr : W64) (pd pc : Nat) : Prop where
  quiet : NoTx s
  fresh : Coherent s w
  dClear : Clear s w .both desc.toNat 16 64
  cClear : Clear s w .read addr.toNat 128 128
  dAt : rangesAt s w .both desc.toNat 16 = [(pd, 16)]
  cAt : rangesAt s w .read addr.toNat 128 = [(pc, 128)]
  room : (s.cluster w.place.cluster).cards.length < 64
  inRange : w.place.cluster < s.clusters.length

/-- A range of the engine for a card's wave, clear and in one piece at a physical address. -/
def EngineAt (s : State) (w : Wave) (va n pa : Nat) : Prop :=
  rangeRaises s (engineAgent w) .write va n = [] ∧ chunks va n = [(va, n)] ∧
    partRanges (partsOf s (engineAgent w) .write va n) = [(pa, n)]

/-- A card that has finished may complete (R190, R239). -/
structure Completes (s : State) (cl n : Nat) (k : Card) (w : Wave) (pa : Nat) : Prop where
  target : s.target = .card cl n
  found : findCard s cl n = some k
  wave : s.wave k.wave = some w ∧ w.run.evicted = false
  done : k.finished = true ∧ k.serving = {}
  room : (s.core k.core).eventRoom = true
  quiet : NoTx s ∧ frameRequests s k.core = []
  full : (fieldAt k.header 0x0C 4).testBit 10 = false
  at_ : EngineAt s w (fieldAt k.header 0x10 8) 8 pa
  inRange : cl < s.clusters.length ∧ k.core < s.cores.length

/-- The causes that a chain's cards have recorded and that stand in its parts, with the cards' places in the chain (R240). -/
def chainCauses (s : State) (ctx : Nat) (desc : W64) : List (Nat × Cause × Nat × W64) :=
  (chainParts s ctx desc).flatMap (·.causes)

/-- The cause of the earliest card in chain order (R240). -/
def EarliestCause (s : State) (ctx : Nat) (desc : W64) (x : Nat × Cause × Nat × W64) : Prop :=
  x ∈ chainCauses s ctx desc ∧ ∀ y ∈ chainCauses s ctx desc, y = x ∨ x.1 < y.1

/-! ### The Merge Unit (R364-R377) -/

/-- Token maps of a merge of n tokens that takes r away (R367, R369, R370). -/
structure TokenMaps (n r : Nat) (keys : List (List W32)) (m : Merged) : Prop where
  kept : m.src.length = n - r ∧ m.src.Pairwise (· < ·) ∧ ∀ i ∈ m.src, i < n
  odd : ∀ i < n, i % 2 = 1 → i ∈ m.src
  sizes : m.rows.length = n - r ∧ m.sizes.length = n - r ∧ m.dest.length = n
  back : ∀ j < n - r, m.dest.getD (m.src.getD j 0) n = j
  below : ∀ i < n, m.dest.getD i n < n - r
  gone : ∀ i < n, i ∉ m.src → m.dest.getD i n = m.dest.getD (bestOf keys n i).1 n
  best : ∀ i < n, i ∉ m.src → ∀ a < n, a % 2 = 0 → a ∈ m.src → (bestOf keys n a).2 ≤ (bestOf keys n i).2

/-! ### Split weights (R413-R420) -/

/-- The words of the split unit: predicate, lookahead, what they capture. -/
def splitForm (w : Wave) : Instr → Option (Pred × BitVec 4 × List W64)
  | .swmv p la _ a => some (p, la, [w.getS a.toNat])
  | .swmig p la _ a b => some (p, la, [w.getS a.toNat, w.getS b.toNat])
  | .swage p la a => some (p, la, [w.getS a.toNat])
  | _ => none

/-- Where a split word's operation stands when it is posted (R417, R419): a product holds its parameter block once it could be
read; the descriptor is the one that the block or an instant's register names, at its physical address if it translates. -/
structure Posted (s : State) (w : Wave) (i : Instr) (va : Nat) (x : SplitOp) : Prop where
  instant : (∀ p la d a, i ≠ .swmv p la d a) → x.block = [] ∧ x.desc = physOf s w va
  unread : ∀ p la d a, i = .swmv p la d a → (va % 64 ≠ 0 ∨ rangeRaises s (dieAgent w) .read va 64 ≠ []) →
    x.block = [] ∧ x.desc = none
  block : ∀ p la d a, i = .swmv p la d a → va % 64 = 0 → rangeRaises s (dieAgent w) .read va 64 = [] →
    x.block = rangeRead s (dieAgent w) va 64 ∧ (x.block ≠ [] → x.desc = physOf s w (fieldAt x.block 0 8))
/-- The die that serves it: that of the descriptor's physical address, else the wave's own (R419). -/
def splitDie (w : Wave) (x : SplitOp) : Nat := match x.desc with
  | some pa => bitsOf pa 39 38
  | none => dieOf w.place.core

/-- An update of n bytes at an address by the die's unit: what it makes of the bytes that stand there. -/
structure Update where
  va : Nat
  n : Nat
  f : List Byte → List Byte
def dieRanges (s : State) (w : Wave) (va n : Nat) : List (Nat × Nat) :=
  (chunks va n).flatMap (fun c => partRanges (partsOf s (dieAgent w) .write c.1 c.2))
def Update.apply (s : State) (w : Wave) (m : Memory) (u : Update) : Memory :=
  putAt m (dieRanges s w u.va u.n) (u.f (bytesAt m (dieRanges s w u.va u.n)))
/-- Memory after some updates in their order, none of which touches the translations of the wave's context. -/
def updated (s : State) (w : Wave) (us : List Update) : Memory := us.foldl (Update.apply s w) s.mem
def KeepMaps (s : State) (w : Wave) (us : List Update) : Prop := ∀ k, KeepsMap s w.place.ctx (updated s w (us.take k))

/-- What a product writes (R416): the outputs, one more use of each fired row, one more product since the last ageing. -/
def productUpdates (r : ProductOut) : List Update :=
  r.outputs.map (fun e => { va := e.1, n := e.2.length, f := fun _ => e.2 }) ++
    r.fired.map (fun k =>
      { va := (r.desc.counters + k) % 2 ^ 64, n := 1, f := fun b => leBytes 1 (min 255 (leNat b + 1)) }) ++
    [{ va := r.descVa + 0x36, n := 2, f := fun b => leBytes 2 ((leNat b + 1) % 2 ^ 16) }]
/-- AGECNT after it. -/
def ageCount (s : State) (w : Wave) (r : ProductOut) : Nat :=
  leNat (bytesAt (updated s w (productUpdates r)) (dieRanges s w (r.descVa + 0x36) 2))
/-- What ageing writes (R416): every counter halved, AGECNT 0. -/
def ageUpdates (d : SplitDesc) (va : Nat) : List Update :=
  [{ va := d.counters, n := d.nrows, f := List.map (fun x => x >>> 1) }, { va := va + 0x36, n := 2, f := fun _ => leBytes 2 0 }]

/-- Ageing that is due waits for the products of its descriptor that are in flight before it (R416, R419). -/
def AgeingWaits (s : State) (o : SplitOp) (due : Nat) : Prop :=
  ∃ x ∈ splitOpsOf s, x.number ≠ o.number ∧ x.desc = o.desc ∧ x.instant = false ∧ x.cause = none ∧ x.ageDue = none ∧
    x.number < due ∧ mayAct s x = true

/-- An operation of a wave's word whose block has been read and which may run now. -/
structure Runnable (s : State) (o : SplitOp) (w : Wave) : Prop where
  target : s.target = .op o.number
  found : findSplit s o.number = some o
  wave : s.wave o.wave = some w ∧ w.run.status = .running ∧ w.run.evicted = false
  word : o.card = none ∧ o.cause = none ∧ o.ageDue = none
  turn : mayAct s (withBlock s w o) = true

end Sys2Proof.Claims

section
open Sys2Proof Sys2Proof.Machine Sys2Proof.Claims

/-- R237 to R240: CHAIN links the old tail to the new card, sets TAIL and hands the card over with the cards that it must
follow; CHWAIT waits until DONE has reached its number and takes the cause of the earliest card that has one, which stays for
other CHWAITs. That BOUND and OETE are those of the CHAIN, that the engine holds the previous SEQ and that CHAIN waits at 64
cards before any cause but MISALIGNED is the model's choice (log 53), and that a chain's causes end when it begins anew with
TAIL 0 (log 54).

R239, R323: a card starts when the cards that it follows have completed; an invalid one is not run, and CHAIN_FORMAT is
recorded against it. A completion writes SEQ to the completion word, advances DONE past the completed cards at the head of the
chain, keeps the card's cause for CHWAIT, records CARD_DONE with cause 0 (log 53) and forgets the card. -/
def Obligations.ChainWords : Prop :=
  (∀ (s : State) (w : Wave) (p : Pred) (a b : SReg), Runs s w → w.active s.slotB p ≠ 0 →
     let desc := w.getS a.toNat
     let addr := w.getS b.toNat
     (∀ la pd pc prev, Chainable s w desc addr pd pc → wordPred s.ir = p →
       let tail := leNat (s.mem.readN pd 8)
       let link := if tail = 0 then [] else rangesAt s w .write tail 7
       let m1 := putAt s.mem link (leBytes 7 addr.toNat)
       (tail ≠ 0 → Clear s w .write tail 7 1) → KeepsMap s w.place.ctx m1 →
       (tail = 0 → prev = leNat (s.mem.readN (pd + 8) 4)) →
       (tail ≠ 0 → ∃ c, findChain s w.place.cluster w.place.ctx desc = some c ∧ c.lastSeq = prev) →
       ∃ t ds ss k late, exec (.chain p la a b) s = goesTo s t ∧ t.mem = m1.writeN pd (leBytes 8 addr.toNat) ∧
         (tail = 0 → chainCauses t w.place.ctx desc = []) ∧
         (tail ≠ 0 → chainCauses t w.place.ctx desc = chainCauses s w.place.ctx desc) ∧
         t.waves = s.waves.set s.cur (heldBy s w la ds ss []) ∧
         (t.cluster w.place.cluster).cards = (s.cluster w.place.cluster).cards ++ [k] ∧
         k = { addr := addr
               wave := s.cur
               ctx := w.place.ctx
               core := w.place.core
               chain := desc
               header := t.mem.readN pc 128
               bound := w.sys.bound
               oete := w.sys.fpctl.getLsbD 9
               late := late
               deps := ((s.cluster w.place.cluster).cards.filter (fun x => cardsConflict x k)).map (·.number)
               number := s.ticket
               order := s.ticket } ∧
         (late = true ↔ ¬ ahead (fieldAt k.header 8 4) prev)) ∧
     (∀ la, (s.cluster w.place.cluster).cards.length = 64 → Clear s w .both desc.toNat 16 64 →
       Clear s w .read addr.toNat 128 128 → exec (.chain p la a b) s = .next (waitWord s s .cards)) ∧
     (∀ pd, NoTx s → Clear s w .read desc.toNat 16 64 → rangesAt s w .read desc.toNat 16 = [(pd, 16)] →
       let seq := (w.getS b.toNat).toNat % 2 ^ 32
       let done := leNat (s.mem.readN (pd + 8) 4)
       (2 ^ 31 ≤ (done + 2 ^ 32 - seq) % 2 ^ 32 → exec (.chwait p a b) s = .next (waitWord s s (.chain desc seq))) ∧
       ((done + 2 ^ 32 - seq) % 2 ^ 32 < 2 ^ 31 → ∃ t, t.mem = s.mem ∧ t.waves = s.waves ∧ rest t = rest s ∧
         (chainCauses s w.place.ctx desc = [] → exec (.chwait p a b) s = goesTo s t) ∧
         (∀ x, EarliestCause s w.place.ctx desc x → exec (.chwait p a b) s = .next (trapWord s t
           { cause := x.2.1
             lanes := 0
             detail := x.2.2.1
             addr := x.2.2.2
             eng := true }))))) ∧
  ((∀ (s : State) (cl n : Nat) (k : Card) (w : Wave), s.target = .card cl n → findCard s cl n = some k →
     s.wave k.wave = some w → cardReady s cl k = true →
     (∃ t, exec .cardStart s = .next t) ∧
     (cardInvalid s k w = true → ∃ t j, exec .cardStart s = .next t ∧ t.mem = s.mem ∧ t.waves = s.waves ∧
       findCard t cl n = some j ∧ j.finished = true ∧ (k.cause = none → j.cause = some (.chainFormat, 0, 0)))) ∧
   (∀ (s : State) (cl n : Nat) (k : Card) (w : Wave) (pa : Nat), Completes s cl n k w pa →
     let seq := fieldAt k.header 8 4
     let m1 := s.mem.writeN pa (leBytes 8 seq)
     (∃ t, exec .cardCompletion s = .next t) ∧
     (rangeRaises s (engineAgent w) .write (k.chain.toNat + 8) 4 = [] →
       chainParts s k.ctx k.chain = [] → ∃ t, exec .cardCompletion s = .next t ∧ t.mem = m1 ∧
         (t.cluster cl).cards = (s.cluster cl).cards.filter (fun x => x.number ≠ k.number) ∧
         (t.core k.core).events = (s.core k.core).events ++
           [{ kind := 3
              wave := w.place.num
              token := 0
              cause := .noCause
              data := seq
              addr := BitVec.ofNat 64 (fieldAt k.header 0x10 8)
              who := k.wave }]) ∧
     (∀ c pd y more, Coherent s w → EngineAt s w (k.chain.toNat + 8) 4 pd → chainParts s k.ctx k.chain = [c] →
       findChain s cl k.ctx k.chain = some c → KeepsMap s w.place.ctx m1 → c.cards = y :: more → y.number = k.number →
       (∀ z ∈ more, z.completed = false ∧ k.number < z.number) → more.Pairwise (fun a b => a.number < b.number) →
       ∃ t, exec .cardCompletion s = .next t ∧ t.mem = m1.writeN pd (leBytes 4 y.seq) ∧
         chainParts t k.ctx k.chain = [{ c with
           cards := more
           causes := c.causes ++ k.cause.toList.map (fun r => (k.number, r)) }])))

/-- R364 to R373: TMERGE and TUNMERGE post an operation to the Merge Unit of the cluster, or wait while the wave has one there.
A merge keeps the tokens of odd index and those of even index with the smallest scores, in their order, and every other token's
entry in the map names the output of its best partner. At its completion TMERGE writes NTOK - R. An operation that has begun to
write its map completes with these writes. That an operation takes its effect at one event, before which parts of it may be seen,
is the model's choice (logs 9 and 90). -/
def Obligations.MergeWords : Prop :=
  (∀ (s : State) (w : Wave) (p : Pred) (la : BitVec 4) (d a : SReg), Runs s w → w.active s.slotB p ≠ 0 →
    let busy := ∃ m ∈ (s.cluster w.place.cluster).mergeQueue, m.wave = s.cur ∧ m.card = none
    let posted (i : Instr) (ds ss : List Reg) : State :=
      (s.updCluster w.place.cluster (fun k => { k with mergeQueue := k.mergeQueue ++
        [{ wave := s.cur
           card := none
           cap :=
             { instr := i
               word := s.ir
               pc := (w.slot s.slotB).pc
               slotB := s.slotB
               lanes := w.active s.slotB p
               scalars := [w.getS a.toNat]
               vectors := []
               order := w.run.issued } }] })).setWave s.cur { w with windows := w.windows ++
        [{ slotB := s.slotB
           left := la.toNat
           done := false
           dests := ds
           srcs := ss
           writes := []
           ends := .op w.run.issued }] }
    (∀ i ∈ [Instr.tmerge p la d a, .tunmerge p la a], busy → exec i s = .next (waitWord s s .mergeRoom)) ∧
    (¬ busy → exec (.tmerge p la d a) s = goesTo s (posted (.tmerge p la d a) [.s d.toNat] [.s a.toNat])) ∧
    (¬ busy → exec (.tunmerge p la a) s = goesTo s (posted (.tunmerge p la a) [] [.s a.toNat]))) ∧
  (∀ (n r : Nat) (keys rows : List (List W32)) (sizes : List W32), 2 * r ≤ n → keys.length = n → rows.length = n →
    sizes.length = n →
    TokenMaps n r keys (mergeTokens n r keys rows sizes) ∧
    (r = 0 → (mergeTokens n r keys rows sizes).rows = rows ∧ (mergeTokens n r keys rows sizes).sizes = sizes)) ∧
  (∀ (s : State) (cl : Nat) (o : MergeOp) (w : Wave) (p : Pred) (la : BitVec 4) (d a : SReg), s.target = .cluster cl →
    (s.cluster cl).mergeQueue.head? = some o → o.torn = false → o.card = none → s.wave o.wave = some w →
    o.cap.instr = .tmerge p la d a →
    let va := (o.cap.scalars.headD 0).toNat
    let m := runMergeAt s (engineAgent w) {} va true
    (∃ t, exec .mergeCompletion s = .next t) ∧
    (m.stop = [] → o.seen = [] → o.rest = none → m.result = (mergeDesc (limitRead s (engineAgent w) {} va 64).2).ntok -
        (mergeDesc (limitRead s (engineAgent w) {} va 64).2).r ∧
      (NoTx s → Cells.wf 0 w.s = true → w.run.evicted = false → ∃ t y, exec .mergeCompletion s = .next t ∧
        t.wave o.wave = some y ∧ y.getS d.toNat = (if d = 0 then 0 else BitVec.ofNat 64 m.result) ∧
        t.mem = (writeAll m.state (engineAgent w) {} (m.outputs ++ m.map)).mem)) ∧
    (∀ ws v, o.rest = some (ws, v) → NoTx s → Cells.wf 0 w.s = true → w.run.evicted = false → ∃ t y,
      exec .mergeCompletion s = .next t ∧ t.wave o.wave = some y ∧
      y.getS d.toNat = (if d = 0 then 0 else BitVec.ofNat 64 v) ∧
      t.mem = (writeAll s (engineAgent w) {} ws).mem))

/-- R415 to R420: a split word posts an operation, on the die of its descriptor, with the addresses that its registers hold.
SWMV_COMPLETION writes the outputs, the counters of the fired rows and AGECNT, then the GEN under which the product ran; when
ageing is due it leaves the rest to AUTOMATIC_AGEING, which halves the counters, clears AGECNT and writes that GEN once no
product before it is in flight. A cause of a product is taken at its word with kind P. SPLIT_INSTANT_ACT writes what SWMIG
promoted and demoted. The free frames that a product needs, and which products ageing waits for, are the model's reading
(log 55). -/
def Obligations.SplitWords : Prop :=
  (∀ (s : State) (w : Wave) (i : Instr) (p : Pred) (la : BitVec 4) (sc : List W64), Runs s w →
    splitForm w i = some (p, la, sc) → w.active s.slotB p ≠ 0 → ∃ (x : SplitOp) (ds ss : List Reg),
      let s1 : State := { s with ticket := s.ticket + 1 }
      exec i s = goesTo s ((s1.updDie (splitDie w x) (fun d => { d with splitOps := d.splitOps ++ [x] })).setWave s.cur { w with windows := w.windows ++
          [{ slotB := s.slotB
             left := la.toNat
             done := false
             dests := ds
             srcs := ss
             writes := []
             ends := .op w.run.issued }] }) ∧
      Posted s w i (sc.headD 0).toNat x ∧ x.number = s.ticket ∧ x.wave = s.cur ∧ x.card = none ∧ x.cause = none ∧ x.ageDue = none ∧
      x.cap = (
        { instr := i
          word := s.ir
          pc := (w.slot s.slotB).pc
          slotB := s.slotB
          lanes := w.active s.slotB p
          scalars := sc
          vectors := []
          order := w.run.issued
          faults := (w.slot s.slotB).faults } : Captured)) ∧
  (∀ (s : State) (o : SplitOp) (w : Wave) (p : Pred) (la : BitVec 4) (d a : SReg), Runnable s o w → NoTx s →
    o.cap.instr = .swmv p la d a → o.block ≠ [] → o.desc ≠ none → (o.cap.scalars.headD 0).toNat % 64 = 0 →
    Cells.wf 0 w.s = true → workingFrame s w.place.core = true → workingFrame s (partnerOf w.place.core) = true →
    (∃ t, exec .swmvCompletion s = .next t) ∧
    (∀ r, runProduct s w {} o.block = .ok r → KeepMaps s w (productUpdates r) →
      (r.desc.ageint = 0 ∨ ageCount s w r ≠ r.desc.ageint →
        ∃ t y, exec .swmvCompletion s = .next t ∧ t.wave o.wave = some y ∧ t.mem = updated s w (productUpdates r) ∧
          y.getS d.toNat = (if d = 0 then 0 else BitVec.ofNat 64 r.desc.gen) ∧ findSplit t o.number = none) ∧
      (r.desc.ageint ≠ 0 → ageCount s w r = r.desc.ageint →
        ∃ t, exec .swmvCompletion s = .next t ∧ t.waves = s.waves ∧ t.mem = updated s w (productUpdates r) ∧
          findSplit t o.number = some { o with ageDue := some s.ticket, gen := r.desc.gen })) ∧
    (∀ rs r, runProduct s w {} o.block = .error rs → settleRaises rs = some r → ∃ u,
      exec .swmvCompletion s = .next (takeTrap u o.wave { r with lanes := o.cap.lanes, declined := true } o.cap.slotB
        o.cap.pc o.cap.word false false) ∧
      u.mem = s.mem ∧ findSplit u o.number = none ∧
      u.waves = s.waves.set o.wave (w.setSlot o.cap.slotB { w.slot o.cap.slotB with parked := false, faults := 0 }))) ∧
  (∀ (s : State) (o : SplitOp) (w : Wave) (k : Nat), s.target = .op o.number → findSplit s o.number = some o →
    s.wave o.wave = some w → o.ageDue = some k →
    (AgeingWaits s o k → exec .automaticAgeing s = .refused .notEnabled) ∧
    (∀ p la d a, ¬ AgeingWaits s o k → o.card = none → o.cap.instr = .swmv p la d a → w.run.evicted = false → NoTx s →
      Cells.wf 0 w.s = true →
      let va := (splitBlock o.block).desc
      let desc := splitDesc (rangeRead s (dieAgent w) va 64)
      rangeRaises s (dieAgent w) .both desc.counters desc.nrows = [] →
      rangeRaises s (dieAgent w) .both (va + 0x36) 2 = [] → KeepMaps s w (ageUpdates desc va) →
      ∃ t y, exec .automaticAgeing s = .next t ∧ t.wave o.wave = some y ∧ t.mem = updated s w (ageUpdates desc va) ∧
        y.getS d.toNat = (if d = 0 then 0 else BitVec.ofNat 64 o.gen) ∧ findSplit t o.number = none) ∧
    (∀ cl c, ¬ AgeingWaits s o k → o.card = some (cl, c) → ∃ t, exec .automaticAgeing s = .next t ∧
      findSplit t o.number = none ∧ ∀ j, findCard t cl c = some j → j.finished = true)) ∧
  (∀ (s : State) (o : SplitOp) (w : Wave) (p : Pred) (la : BitVec 4) (d a b : SReg), Runnable s o w → NoTx s →
    o.cap.instr = .swmig p la d a b → Cells.wf 0 w.s = true →
    (∃ t, exec .splitInstantAct s = .next t) ∧
    (∀ t0 v, migrate s (dieAgent w) (o.cap.scalars.headD 0).toNat ((o.cap.scalars.getD 1 0).toNat % 2 ^ 16) = .ok (t0, v) →
      ∃ t y, exec .splitInstantAct s = .next t ∧ t.wave o.wave = some y ∧ t.mem = t0.mem ∧
        y.getS d.toNat = (if d = 0 then 0 else v) ∧ findSplit t o.number = none)) ∧
  (∀ (ks free : List Nat) (out : List (Nat × Nat)) (n : Nat),
    let ps := promotions ks free out n
    ps.length = min n (min ks.length (free.length + out.length)) ∧
    ps.map (·.row) = ks.take ps.length ∧ (ps.map (·.slot)) = (free ++ out.map (·.2)).take ps.length)

end

namespace Sys2Proof.Claims

open Sys2Proof Sys2Proof.Machine

/-! ### Groups and barriers (R314-R329, R344-R358) -/

/-- The group `g` of the wave, in a cluster whose groups all have members; the wave has rank `k` in it. -/
structure InGroup (s : State) (w : Wave) (g : Group) (k : Nat) : Prop where
  member : s.groupOf w = some g
  rank : ∃ m, g.members.find? (fun m => m.wave = s.cur) = some m ∧ m.rank = k
  alive : ∀ x ∈ (s.cluster w.place.cluster).groups, x.members ≠ []
  once : ∀ x ∈ (s.cluster w.place.cluster).groups, x.ctx = g.ctx → x.key = g.key → x = g
  going : g.halt = 0

/-- The groups of the wave's cluster with its own one replaced. -/
def withGroup (s : State) (w : Wave) (g x : Group) : State :=
  s.updCluster w.place.cluster (fun c => { c with groups := c.groups.map (fun y => if y = g then x else y) })

/-- The generation after the arrival of rank `k` (R319, R350): the first arrival opens it and fixes whom it requires. -/
def arrives (b : Barrier) (k : Nat) (required : List Nat) : Barrier :=
  let ranks (l : List Nat) : NatSet := l.foldl (fun m r => m.add r) []
  if b.isOpen then { b with arrived := b.arrived.add k }
  else
    { b with
      isOpen := true
      arrived := ranks [k]
      required := ranks required }

/-- Every required rank has arrived. -/
def allArrived (b : Barrier) : Prop := ∀ e ∈ b.required, b.arrived.has e.1 = true

/-- The three GBAR forms that arrive at a generation: predicate and role (R350). -/
def barForms (s : State) (w : Wave) : Instr → Option (Pred × Option Nat)
  | .gbar => some (wordPred s.ir, none)
  | .gbarRole p a => some (p, some ((w.getS a.toNat).toNat % 8))
  | .gbarRoleI p r => some (p, some r.toNat)
  | _ => none

def barOf (g : Group) (role : Option Nat) : Barrier := match role with
  | none => g.all
  | some r => g.roles.getD r {}
def withBar (g : Group) (role : Option Nat) (b : Barrier) : Group := match role with
  | none => { g with all := b }
  | some r => { g with roles := g.roles.set r b }
def requiredBy (g : Group) (role : Option Nat) : List Nat := match role with
  | none => g.members.map (·.rank)
  | some r => (g.members.filter (fun m => m.role = r)).map (·.rank)
def barKind (role : Option Nat) (gen : Nat) : WaitKind := match role with
  | none => .barrier gen
  | some r => .roleBarrier r gen

/-- GBAR.rows and GELECT with their operands. -/
def rowForms (w : Wave) : Instr → Option (Pred × Nat)
  | .gbarRows p a => some (p, (w.getS a.toNat).toNat % 2 ^ 32)
  | .gbarRowsI p n => some (p, n.toNat)
  | _ => none
def electForms (w : Wave) : Instr → Option (Pred × MReg × Nat)
  | .gelect p d a => some (p, d, (w.getS a.toNat).toNat % 8)
  | .gelectI p d r => some (p, d, r.toNat)
  | _ => none

/-- The GROUP_HALT frame of a member that stops with n words issued since the halt reached it (R62, R63, R326, R327): it stands
at the next word of its slot `b`. -/
def haltFrame (w : Wave) (b : Bool) (n : Nat) : List Byte :=
  let pc := (w.slot b).pc
  leBytes 8 (b.toNat * 2 ^ 8 + Cause.groupHalt.code) ++ leBytes 8 pc.toNat ++ leBytes 8 (framed w.slotA pc)
    ++ leBytes 8 (framed w.slotB pc) ++ leBytes 8 0 ++ leBytes 4 0 ++ leBytes 4 n ++ leBytes 8 w.sys.gkey.toNat
    ++ leBytes 8 0 ++ leBytes 8 0 ++ List.replicate 56 0

/-- Nothing of a wave is under way, and no member of its group waits for rows. -/
structure AtRest (s : State) (i : Nat) (w : Wave) : Prop where
  noWindows : w.windows = []
  noWaits : w.slotA.wait = none ∧ w.slotB.wait = none
  noSync : w.sync = []
  noOps : pendingOps s i = []
  noneAbandoned : w.abandoned = []
  noStack : w.stack = []
  noTx : w.tx = none
  noRows : ∀ g, s.groupOf w = some g → g.rowWait = []

/-- A member that no word of stands in the way of stopping: evicted, not running, or with both slots waiting, parked or empty
(R327). -/
def StandsStill (w : Wave) : Prop :=
  w.run.evicted = true ∨ w.run.status ≠ .running ∨
    ∀ x ∈ [w.slotA, w.slotB], x.valid = false ∨ x.parked = true ∨ x.wait ≠ none

/-- The record of the stop (R60, R326). -/
def stopInfo (w : Wave) : TrapInfo :=
  { cause := .groupHalt
    eng := false
    pc := (w.slot (nextSlotB w)).pc
    slotB := nextSlotB w
    orig := false
    fromOp := false
    resumed := false
    asleep := w.run.status == .asleep }

/-- In the group of wave i no generation is complete and yet open (R319), and the wave is one member of it. -/
def Steady (s : State) (i : Nat) (w : Wave) : Prop :=
  ∀ g, s.groupOf w = some g → g.all.complete = false ∧ (∀ b ∈ g.roles, b.complete = false) ∧
    ∀ m ∈ g.members, ∀ n ∈ g.members, m.wave = i → n.wave = i → m = n

/-- A wave that has not moved: its registers, its flags and its PCs stay. -/
def Unmoved (w y : Wave) : Prop :=
  y.v = w.v ∧ y.s = w.s ∧ y.m = w.m ∧ y.sys = w.sys ∧ y.slotA.pc = w.slotA.pc ∧ y.slotB.pc = w.slotB.pc

/-- The mask that a waiting lane supplies after a VSYNC of the lanes `act` (R355). -/
def supplied (w : Wave) (act : W32) (a : VReg) (l : Nat) : Option W32 :=
  if act.getLsbD l then some (w.getV a.toNat l) else Cells.get none w.sync l

/-- The lowest active lane as a mask. -/
def lowestLane (x : W32) : W32 := match lanesOf x with
  | [] => 0
  | l :: _ => BitVec.ofNat 32 (2 ^ l)

end Sys2Proof.Claims

section
open Sys2Proof Sys2Proof.Machine Sys2Proof.Claims

/-- R319, R350 to R352: an arrival that leaves a required rank out waits in its slot; one that completes the generation ends
it, and every slot that waits at it goes on. GBAR.rows takes its rows, or joins the waiters in arrival order.

R355, R356: the lanes of active(S) join those that wait. With the mask M0 of the lowest waiting lane, the lanes of M0 that
have not exited go on once each of them waits with M0, in whichever slot they wait; a lane outside its own mask raises DETAIL 2,
one with another mask DETAIL 1; lanes outside M0 keep waiting. -/
def Obligations.Barriers : Prop :=
  (∀ (s : State) (w : Wave) (g : Group) (k : Nat), Runs s w → InGroup s w g k → w.place.cluster < s.clusters.length →
     (w.slot s.slotB).wait = none →
     (∀ i p role, barForms s w i = some (p, role) → w.active s.slotB p ≠ 0 → g.roles.length = 8 →
       let b := arrives (barOf g role) k (requiredBy g role)
       let kind := barKind role (barOf g role).gen
       (¬ allArrived b → exec i s = .next (waitWord s (withGroup s w g (withBar g role b)) kind)) ∧
       (allArrived b → ∃ t, exec i s = goesTo s t ∧ t.mem = s.mem ∧
         (t.cluster w.place.cluster).groups = (s.cluster w.place.cluster).groups.map (fun y => if y = g then
           withBar g role
             { gen := ((barOf g role).gen + 1) % 2 ^ 32
               isOpen := false
               arrived := []
               required := [] } else y) ∧
         (∀ m ∈ g.members, m.wave ≠ s.cur → b.arrived.has m.rank = true → ∀ y x, s.wave m.wave = some y →
           (∀ n ∈ g.members, n.wave = m.wave → n = m) → y.run.evicted = false → y.slotA.valid = true →
           y.slotA.wait = some x → x.kind = kind → y.slotB.valid = false → y.stack = [] → y.slotA.parked = false →
           y.slotA.rpc ≠ some (y.slotA.pc + 8) → ∃ z, t.wave m.wave = some z ∧ z.slotA = { y.slotA with
             pc := y.slotA.pc + 8
             wait := none
             faults := 0 }))) ∧
     (∀ i p n, rowForms w i = some (p, n) → w.active s.slotB p ≠ 0 →
       (n = 0 → exec i s = goesOn s w) ∧
       (n ≠ 0 → g.rowWait = [] → n ≤ g.rows → exec i s = goesTo s (withGroup s w g { g with rows := g.rows - n })) ∧
       (n ≠ 0 → (g.rowWait ≠ [] ∨ g.rows < n) → exec i s = .next (waitWord s
         (withGroup s w g { g with rowWait := g.rowWait ++ [(k, s.slotB, n)] }) (.rows n))))) ∧
  (∀ (s : State) (w : Wave) (p : Pred) (a : VReg) (l0 : Nat) (all : W32), Runs s w → Cells.wf none w.sync = true →
     let act := w.active s.slotB p
     let m0 := (supplied w act a l0).getD 0
     let part := m0 &&& ~~~ w.exited
     let differ := (List.range 32).filter (fun l => part.getLsbD l && decide (supplied w act a l ≠ some m0))
     let bad (lanes : W32) (k : Nat) : Raise := { cause := .syncMaskMismatch, lanes := lanes, detail := k }
     let other := w.slot (!s.slotB)
     act ≠ 0 → (∀ l < 32, all.getLsbD l = (supplied w act a l).isSome) → (lanesOf all).head? = some l0 →
     (m0.getLsbD l0 = false → exec (.vsync p a) s = traps s (bad (BitVec.ofNat 32 (2 ^ l0)) 2)) ∧
     (m0.getLsbD l0 = true → part &&& ~~~ all ≠ 0 → ∃ x, exec (.vsync p a) s = .next (waitWord s
       (s.setWave s.cur { w with sync := x }) .sync) ∧ ∀ l < 32, Cells.get none x l = supplied w act a l) ∧
     (m0.getLsbD l0 = true → part &&& ~~~ all = 0 → differ ≠ [] →
       exec (.vsync p a) s = traps s (bad (BitVec.ofNat 32 (differ.map (2 ^ ·)).sum) 1)) ∧
     (m0.getLsbD l0 = true → part &&& ~~~ all = 0 → differ = [] →
       (w.sync = [] → act &&& ~~~ part = 0 → exec (.vsync p a) s = goesOn s w) ∧
       (w.sync = [] → act &&& ~~~ part ≠ 0 → other.wait = none → ∃ x, exec (.vsync p a) s = .next (waitWord s
         (s.setWave s.cur { w with sync := x }) .sync) ∧
         ∀ l < 32, Cells.get none x l = if part.getLsbD l then none else supplied w act a l) ∧
       (∀ y, all &&& ~~~ part = 0 → other.valid = true → other.wait = some y → y.kind = .sync → other.parked = false →
         other.rpc ≠ some (other.pc + 8) → Settled (w.slot s.slotB) → (w.slot s.slotB).wait = none → w.stack = [] →
         w.run.evicted = false → (∀ k < 32, (w.slot s.slotB).mask.getLsbD k = true → Cells.get none w.sync k = none) →
         (∀ k, 32 ≤ k → Cells.get none w.sync k = none) →
         ∃ t z, exec (.vsync p a) s = goesTo s t ∧ t.mem = s.mem ∧ t.wave s.cur = some z ∧ z.sync = [] ∧
           z.slot s.slotB = w.slot s.slotB ∧ z.slot (!s.slotB) = nextWord other ∧ z.v = w.v ∧ z.s = w.s ∧ z.m = w.m ∧
           z.sys = w.sys)))

/-- R346, R348, R357, R358, R360: GJOIN makes a group with the wave as rank 0, or takes the lowest free rank of a live one;
GLEAVE takes the wave out of its group and keeps its ROLE; GELECT names one lane of the lowest rank of a role; CKPT has no
effect without a pre-emption request and evicts the wave with one, once no pair operation holds its frames.

R326 to R329: a member's trap halts its group: HALT is set, open generations are cancelled and the halt goes to every other
member. It reaches a member at GROUP_HALT_DELIVERY: one that stands still stops at once, another one counts the words that it
still issues, at most 8, and stops with that skid in its frame, which says GROUP_HALT. When every member has been resumed HALT
returns to 0. When the halt reaches a member and after how many words it stops is free (log 5); the frame reaches memory
through the page that holds PRIV (log 14). -/
def Obligations.GroupWords : Prop :=
  (∀ (s : State) (w : Wave), Runs s w → w.run.status = .running → w.place.cluster < s.clusters.length →
     (∀ p (d a : SReg), w.active s.slotB p ≠ 0 →
       let key := w.getS a.toNat
       let act := w.active s.slotB p
       let me (k : Nat) : Member :=
         { rank := k
           wave := s.cur
           role := w.sys.role.toNat
           stopped := false }
       let joined (v : W64) : Wave := { w with sys := { w.sys with gkey := key } }.setS d.toNat v
       (key = 0 → w.sys.gkey = 0 → (s.cluster w.place.cluster).groups.length < 64 →
         exec (.gjoin p d a) s = traps s { cause := .notMember, lanes := act, detail := 1 }) ∧
       (key ≠ 0 → w.sys.gkey ≠ 0 → (s.cluster w.place.cluster).groups.length < 64 →
         s.findGroup w.place.cluster w.place.ctx key = none →
         exec (.gjoin p d a) s = traps s { cause := .groupFull, lanes := act, detail := 2 }) ∧
       (key ≠ 0 → w.sys.gkey = 0 → s.findGroup w.place.cluster w.place.ctx key = none →
         64 ≤ (s.cluster w.place.cluster).groups.length →
         exec (.gjoin p d a) s = traps s { cause := .groupLimit, lanes := act }) ∧
       (key ≠ 0 → w.sys.gkey = 0 → s.findGroup w.place.cluster w.place.ctx key = none →
         (s.cluster w.place.cluster).groups.length < 64 →
         exec (.gjoin p d a) s = goesTo s ((s.updCluster w.place.cluster (fun c => { c with groups := c.groups ++
           [{ key := key
              ctx := w.place.ctx
              members := [me 0]
              all := {}
              roles := List.replicate 8 {}
              rows := 0
              rowWait := []
              halt := 0 }] })).setWave s.cur (joined 256))) ∧
       (∀ g k, key ≠ 0 → w.sys.gkey = 0 → s.findGroup w.place.cluster w.place.ctx key = some g → g.halt = 0 →
         (∀ x ∈ (s.cluster w.place.cluster).groups, x.members ≠ []) →
         (∀ x ∈ (s.cluster w.place.cluster).groups, x.ctx = g.ctx → x.key = g.key → x = g) →
         k < 32 → (∀ m ∈ g.members, m.rank ≠ k) → (∀ j < k, ∃ m ∈ g.members, m.rank = j) →
         exec (.gjoin p d a) s = goesTo s ((withGroup s w g { g with members := g.members ++ [me k] }).setWave s.cur
           (joined (BitVec.ofNat 64 k))))) ∧
     (w.active s.slotB (wordPred s.ir) ≠ 0 →
       (s.groupOf w = none → exec .gleave s = traps s { cause := .notMember, lanes := w.active s.slotB (wordPred s.ir) }) ∧
       (s.groupOf w ≠ none → pairPending s s.cur = true → exec .gleave s = .next (waitWord s s .pairOps)) ∧
       (∀ g k, InGroup s w g k → pairPending s s.cur = false → (w.slot (!s.slotB)).valid = false →
         (∀ m ∈ g.members, m.wave = s.cur) → ∃ t y, exec .gleave s = .next t ∧ t.mem = s.mem ∧ t.wave s.cur = some y ∧
           y.sys = { w.sys with gkey := 0 } ∧ y.v = w.v ∧ y.s = w.s ∧ y.m = w.m ∧
           (t.cluster w.place.cluster).groups = (s.cluster w.place.cluster).groups.filter (fun x => x ≠ g)) ∧
       (∀ g k m, InGroup s w g k → pairPending s s.cur = false → m ∈ g.members → m.wave ≠ s.cur →
         ∃ t y h, exec .gleave s = .next t ∧ t.mem = s.mem ∧ t.wave s.cur = some y ∧ y.sys = { w.sys with gkey := 0 } ∧
           t.findGroup w.place.cluster w.place.ctx w.sys.gkey = some h ∧
           h.members = g.members.filter (fun m => m.wave ≠ s.cur))) ∧
     (∀ i p d r, electForms w i = some (p, d, r) → w.active s.slotB p ≠ 0 →
       let act := w.active s.slotB p
       (s.groupOf w = none → exec i s = traps s { cause := .notMember, lanes := act }) ∧
       (∀ g k, InGroup s w g k → (∀ m ∈ g.members, m.role ≠ r) → exec i s = traps s { cause := .roleInvalid, lanes := act }) ∧
       (∀ g k e, InGroup s w g k → e < 32 → (∃ m ∈ g.members, m.rank = e ∧ m.role = r) →
         (∀ m ∈ g.members, m.role = r → e ≤ m.rank) →
         exec i s = goesOn s (w.setM d.toNat (if k = e then lowestLane act else 0)))) ∧
     (w.run.preempt = false → exec .ckpt s = goesOn s w) ∧
     (w.run.preempt = true → w.active s.slotB (wordPred s.ir) = 0 → exec .ckpt s = goesOn s w) ∧
     (w.run.preempt = true → w.active s.slotB (wordPred s.ir) ≠ 0 → heldByPair s s.cur = true → exec .ckpt s = .next
       (s.setWave s.cur { w with run := { w.run with
         lastSlotB := s.slotB
         evicting := true } })) ∧
     (w.run.preempt = true → w.active s.slotB (wordPred s.ir) ≠ 0 → heldByPair s s.cur = false → Steady s s.cur w →
       ∃ t y, exec .ckpt s = .next t ∧ t.wave s.cur = some y ∧ y.run.evicted = true ∧ y.run.preempt = false ∧ y.slotA.pc = w.slotA.pc)) ∧
  ((∀ (s : State) (w : Wave) (g : Group) (k : Nat) (r : Raise), s.wave s.cur = some w → InGroup s w g k →
     w.place.cluster < s.clusters.length → AtRest s s.cur w → ¬ handled w → r.kind = .p → r.cause ≠ .pageNotPresent → r.cause ≠ .groupHalt →
     ∃ h, (trapWord s s r).findGroup w.place.cluster w.place.ctx w.sys.gkey = some h ∧ h.halt ≠ 0 ∧ h.all.isOpen = false ∧
       (∀ b ∈ h.roles, b.isOpen = false) ∧ h.rowWait = [] ∧
       (∀ m ∈ h.members, m.wave = s.cur → m.stopped = true) ∧
       ∀ m ∈ g.members, m.wave ≠ s.cur → m.stopped = false → ∀ y, s.wave m.wave = some y → y.run.status = .running →
         y.run.skid = none → ∃ z, (trapWord s s r).wave m.wave = some z ∧ z.run.haltDue = true ∧ Unmoved y z) ∧
   (∀ (s : State) (i : Nat) (w : Wave), s.target = .wave i → s.wave i = some w → w.run.skid = none → w.run.haltDue = true →
     (¬ StandsStill w → exec .groupHaltDelivery s = .next (s.setWave i { w with run := { w.run with
       haltDue := false
       skid := some 0 } })) ∧
     (StandsStill w → exec .groupHaltDelivery s =
       exec .groupHaltDelivery (s.setWave i { w with run := { w.run with skid := some 0 } }))) ∧
   (∀ (s : State) (i n : Nat) (w : Wave), s.target = .wave i → s.wave i = some w → w.run.skid = some n →
     ∃ t y, exec .groupHaltDelivery s = .next t ∧ t.wave i = some y ∧ y.run.status = .stopped ∧ y.run.skid = none ∧
       y.run.haltDue = false ∧ y.tx = none ∧
       (∀ q, AtRest s i w → walk s w.place.ctx w.sys.priv.toNat = .ok q → w.sys.priv.toNat % 4096 = 0 →
         t.mem = s.mem.writeN q.pa (haltFrame w (nextSlotB w) n) ∧
         t.cores = updAt s.cores w.place.core (fun c => c.record (trapRecord w .groupHalt i)) ∧
         y.run.trap = some (stopInfo w) ∧ Unmoved w y ∧
         ∀ g, s.groupOf w = some g → g.members ≠ [] → w.place.cluster < s.clusters.length →
           ∃ h, t.groupOf y = some h ∧ ∀ m ∈ h.members, m.wave = i → m.stopped = true)) ∧
   (∀ (s : State) (i : Nat) (w : Wave) (b : Bool), w.run.skid = some 8 → slotReady s i w b = false) ∧
   (∀ (s : State) (cl ctx : Nat) (key : W64) (g : Group), s.target = .group cl ctx key → s.findGroup cl ctx key = some g →
     g.halt = 2 → (∃ t, exec .groupResume s = .next t) ∧
     ((∀ m ∈ g.members, m.stopped = true ∧ ∃ w, s.wave m.wave = some w ∧ w.run.status = .stopped ∧ w.run.evicted = false ∧
         w.abandoned = [] ∧ ∃ x, w.run.trap = some x ∧ x.cause = .groupHalt ∧ x.asleep = false ∧ x.eng = false) →
       (∀ x ∈ (s.cluster cl).groups, x.members ≠ []) → cl < s.clusters.length →
       (g.members.map (·.wave)).Nodup → ∃ t, exec .groupResume s = .next t ∧
         (∀ h, t.findGroup cl ctx key = some h → h.halt = 0) ∧
         (∀ m ∈ g.members, ∃ y, t.wave m.wave = some y ∧ y.run.status = .running))))

end

namespace Sys2Proof.Claims

open Sys2Proof Sys2Proof.Machine

/-! ### Tasks and pipelines (R384-R403) -/

/-- The queue that a word names in register `a`, registered to the wave's launch; no slot waits at it. -/
structure Queued (s : State) (w : Wave) (a : SReg) (x : QueueAt) : Prop where
  named : findQueue s w.place.ctx w.sys.launch (w.getS a.toNat) = some x
  here : queueAt s x.die x.pipe.number x.k = some x
  alone : ∀ u ∈ s.waves, ∀ y : Wait, (u.slotA.wait = some y ∨ u.slotB.wait = some y) → ∀ q,
    y.kind ≠ .queueItem x.die x.pipe.number x.k q ∧ y.kind ≠ .queueRoom x.die x.pipe.number x.k q
  quiet : NoTx s

/-- The items of a queue (R398). -/
def itemsIn (q : PipeQueue) : Nat := (q.tail + 2 ^ 32 - q.head) % 2 ^ 32
/-- The address of item `n`. -/
def itemAt (q : PipeQueue) (n : Nat) : Nat := (q.base.toNat + 8 * (n % q.cap)) % 2 ^ 64
/-- A caller that may push: the queue feeds stage 0, or the caller is a task of the stage before it (R401). -/
def pushes (w : Wave) (x : QueueAt) : Prop :=
  x.k = 0 ∨ w.place.stage = some { die := x.die, pipe := x.pipe.number, stage := x.k - 1 }

/-- The state after a word of a queue: its fields, memory, and the wave; nothing else but cached translations. -/
structure QueueStep (s t : State) (w' : Wave) (x : QueueAt) (q : PipeQueue) (m : Memory) : Prop where
  queue : ∃ y, queueAt t x.die x.pipe.number x.k = some y ∧ y.q = q
  mem : t.mem = m
  waves : t.waves = s.waves.set s.cur w'

/-- A record in memory that SPAWN accepts (R394). -/
structure Spawnable (s : State) (w : Wave) (p : Pred) (va : Nat) (b : List Byte) : Prop where
  clear : Clear s w .read va 64 64
  bytes : bytesAt s.mem (rangesAt s w .read va 64) = b
  quiet : NoTx s
  depth : w.place.depth ≠ 8
  entry : fieldAt b 0 8 % 8 = 0 ∧ fieldAt b 0 8 < 2 ^ 56
  foot : (footprint (BitVec.ofNat 32 (fieldAt b 0x18 4))).bad = false
  placement : placementBad (fieldAt b 0x17 1) = false
  ready : fieldAt b 0x20 8 = 0 ∧ fieldAt b 0x28 8 = 0 ∧ fieldAt b 0x30 8 = 0 ∧ fieldAt b 0x38 8 = 0

end Sys2Proof.Claims

section
open Sys2Proof Sys2Proof.Machine Sys2Proof.Claims

/-- R384, R388, R394, R397 to R399: SPAWN puts the record at its address into the queue of its home die, with the caller's LAUNCH
and the caller's depth + 1; it raises SPAWN_DEPTH at depth 8 and waits while that queue is full. SPAWN.pipe registers a pipeline
with the die of its home under the next free index.

R401 to R403: QPUSH appends an item and QPOP takes the oldest one with an all-ones mask; they wait while the queue is full,
or empty and open; a pop of an empty closed queue gives 0 and an empty mask. A queue that is closed, or not registered to the
caller's launch, raises QUEUE_FORMAT. Queue k closes by itself when queue k - 1 is closed and empty and has no live task. Which
case has DETAIL 4 and which 5, QPUSH.close on a closed queue among them, is the model's choice (log 59), and so is when a word
of a queue waits and when it executes (log 60). -/
def Obligations.SpawnAndQueueWords : Prop :=
  (∀ (s : State) (w : Wave) (p : Pred) (la : BitVec 4) (a : SReg), Runs s w → w.active s.slotB p ≠ 0 → wordPred s.ir = p →
     let va := (w.getS a.toNat).toNat
     let act := w.active s.slotB p
     (∀ b, Spawnable s w p va b →
       let home := homeOf s w.place.ctx (fieldAt b 0x10 8 % 2 ^ 56) (dieOf w.place.core)
       let task : Task :=
         { entry := BitVec.ofNat 64 (fieldAt b 0 8)
           args := BitVec.ofNat 64 (fieldAt b 8 8)
           home := BitVec.ofNat 64 (fieldAt b 0x10 8)
           foot := BitVec.ofNat 32 (fieldAt b 0x18 4)
           launch := w.sys.launch
           ready := []
           isReady := true
           ctx := w.place.ctx
           depth := w.place.depth + 1
           near := home.2
           passed := 0
           reserving := []
           number := s.ticket }
       ((s.die home.1).queue.length < 4096 → home.1 < s.dies.length → ∃ t ds ss,
         exec (.spawn p la a) s = goesTo s t ∧ t.mem = s.mem ∧ t.waves = s.waves.set s.cur (heldBy s w la ds ss []) ∧
           t.dies = s.dies.set home.1 { s.die home.1 with queue := (s.die home.1).queue ++ [task] } ∧
           t.ticket = s.ticket + 1) ∧
       (4096 ≤ (s.die home.1).queue.length → exec (.spawn p la a) s = .next (waitWord s s (.dieQueue home.1)))) ∧
     (Clear s w .read va 64 64 → NoTx s → w.place.depth = 8 →
       recordRaises s (waveAgent w s.cur) act (bytesAt s.mem (rangesAt s w .read va 64)) = [] →
       exec (.spawn p la a) s = traps s { cause := .spawnDepth, lanes := act }) ∧
     (∀ b n, Clear s w .read va 64 64 → NoTx s → Clear s w .read (va + 64) (32 * n) 32 →
       b = bytesAt s.mem (rangesAt s w .read va 64) ++ bytesAt s.mem (rangesAt s w .read (va + 64) (32 * n)) →
       n = fieldAt b 0 8 → 1 ≤ n → n ≤ 8 → w.place.depth ≠ 8 → pipeRaises s w act b n = [] →
       ∃ t d x ds ss, exec (.spawnPipe p la a) s = goesTo s t ∧ t.waves = s.waves.set s.cur (heldBy s w la ds ss []) ∧
         (d < s.dies.length → (t.die d).pipes = (s.die d).pipes ++ [x]) ∧
         d = (homeOf s w.place.ctx (fieldAt b 8 8) (dieOf w.place.core)).1 ∧ x.number = s.ticket ∧
         x.launch = w.sys.launch ∧ x.ctx = w.place.ctx ∧ x.depth = w.place.depth + 1 ∧ x.queues.length = n ∧
         (∀ y ∈ pipesOf s w.place.ctx w.sys.launch, y.index ≠ x.index) ∧ x.index < 4)) ∧
  ((∀ (s : State) (w : Wave) (p : Pred) (la : BitVec 4) (a b d : SReg) (m : MReg), Runs s w → w.active s.slotB p ≠ 0 →
     wordPred s.ir = p →
     let act := w.active s.slotB p
     let bad (k : Nat) : Raise := { cause := .queueFormat, lanes := act, detail := k }
     (findQueue s w.place.ctx w.sys.launch (w.getS a.toNat) = none →
       exec (.qpush p la a b) s = traps s (bad 4) ∧ exec (.qpushClose p la a) s = traps s (bad 4) ∧
         exec (.qpop p la d m a) s = traps s (bad 4)) ∧
     (∀ x, Queued s w a x →
       let q := x.q
       (¬ pushes w x → exec (.qpush p la a b) s = traps s (bad 4)) ∧
       (pushes w x → q.closed = true →
         exec (.qpush p la a b) s = traps s (bad 5) ∧ exec (.qpushClose p la a) s = traps s (bad 5)) ∧
       (pushes w x → q.closed = false → q.cap ≤ itemsIn q →
         exec (.qpush p la a b) s = .next (waitWord s s (.queueRoom x.die x.pipe.number x.k q.addr))) ∧
       (pushes w x → q.closed = false → itemsIn q < q.cap → Clear s w .write (itemAt q q.tail) 8 8 → ∃ t ds ss,
         exec (.qpush p la a b) s = goesTo s t ∧ QueueStep s t (heldBy s w la ds ss []) x
           { q with tail := (q.tail + 1) % 2 ^ 32 }
           (putAt s.mem (rangesAt s w .write (itemAt q q.tail) 8) (leBytes 8 (w.getS b.toNat).toNat))) ∧
       (pushes w x → q.closed = false → ∃ t ds ss, exec (.qpushClose p la a) s = goesTo s t ∧
         QueueStep s t (heldBy s w la ds ss []) x { q with closed := true } s.mem) ∧
       (itemsIn q = 0 → q.closed = false →
         exec (.qpop p la d m a) s = .next (waitWord s s (.queueItem x.die x.pipe.number x.k q.addr))) ∧
       (itemsIn q = 0 → q.closed = true → ∃ ds ss,
         exec (.qpop p la d m a) s = goesOn s (heldBy s w la ds ss [.s d.toNat 0, .m m.toNat 0])) ∧
       (itemsIn q ≠ 0 → Clear s w .read (itemAt q q.head) 8 8 → ∃ t ds ss, exec (.qpop p la d m a) s = goesTo s t ∧
         QueueStep s t (heldBy s w la ds ss
           [.s d.toNat (BitVec.ofNat 64 (leNat (bytesAt s.mem (rangesAt s w .read (itemAt q q.head) 8)))),
             .m m.toNat (BitVec.allOnes 32)]) x { q with head := (q.head + 1) % 2 ^ 32 } s.mem))) ∧
   (∀ (s : State) (die pipe k : Nat) (x y : QueueAt), s.target = .queue die pipe k → 0 < k →
     queueAt s die pipe k = some x → queueAt s die pipe (k - 1) = some y → x.q.closed = false → y.q.closed = true →
     itemsIn y.q = 0 → y.q.live = 0 → ∃ t, exec .queueAutoClose s = .next t ∧
       ((∀ u ∈ s.waves, u.slotA.wait = none ∧ u.slotB.wait = none) → t.mem = s.mem ∧ t.waves = s.waves ∧
         ∃ z, queueAt t die pipe k = some z ∧ z.q = { x.q with closed := true })))

end

namespace Sys2Proof.Claims

open Sys2Proof Sys2Proof.Machine

/-! ### The fabric (R445-R466) -/

/-- The bytes of a range of any length, page by page. -/
def copied (s : State) (g : Agent) (va n : Nat) : List Byte :=
  (chunks va n).flatMap (fun c => bytesAt s.mem (partRanges (partsOf s g .read c.1 c.2)))

/-- What a fabric word posts (R451 to R454): the operation, the FA, the local address, the length, the operand of a signal, the
token, the bytes that its packet carries. -/
structure Request where
  op : FabOp
  fa : W64
  addr : W64
  length : Nat
  value : W64
  token : Option Nat
  data : List Byte

/-- The one-sided words: predicate, lookahead, request. -/
def fabForm (s : State) (w : Wave) : Instr → Option (Pred × BitVec 4 × Request)
  | .xput p la tok a => some (p, la,
      { op := .put
        fa := w.getS a.toNat
        addr := w.getS (a.toNat + 1)
        length := (w.getS (a.toNat + 2)).toNat
        value := 0
        token := some tok.toNat
        data := copied s (dieAgent w) (w.getS (a.toNat + 1)).toNat (w.getS (a.toNat + 2)).toNat })
  | .xsig p la op tok a b => some (p, la,
      { op := .signal op
        fa := w.getS a.toNat
        addr := 0
        length := 8
        value := w.getS b.toNat
        token := some tok.toNat
        data := leBytes 8 (w.getS b.toNat).toNat })
  | .xgetB64 p la _ a => some (p, la,
      { op := .get
        fa := w.getS a.toNat
        addr := 0
        length := 8
        value := 0
        token := none
        data := [] })
  | .xgetBlk p la a => some (p, la,
      { op := .get
        fa := w.getS a.toNat
        addr := w.getS (a.toNat + 1)
        length := (w.getS (a.toNat + 2)).toNat
        value := 0
        token := none
        data := [] })
  | _ => none

/-- The node of an FA (R449). -/
def nodeOf (fa : W64) : Nat := fa.toNat / 2 ^ 52
/-- A node that packets reach (R448, R449). -/
def Reaches (s : State) (n : Nat) : Prop := n ≠ 0xFFF ∧ (n = s.fabric.node ∨ Cells.get 0 s.fabric.routes n ≠ 0)

/-- The registers of the word are in range and aligned (R451), and no command bears the next number. -/
structure Sendable (s : State) (q : Request) : Prop where
  aligned : q.fa.toNat % 8 = 0 ∧ q.addr.toNat % 8 = 0 ∧ q.length % 8 = 0
  length : 8 ≤ q.length ∧ q.length ≤ 2 ^ 24
  new : ∀ c ∈ s.fabric.cmds, c.number ≠ s.ticket

/-- The command as it is posted, and its packet (R446, R449). -/
def commandOf (s : State) (w : Wave) (q : Request) (after : List Nat) (phase : Nat) : FabCmd :=
  { number := s.ticket
    wave := s.cur
    slotB := s.slotB
    op := q.op
    ctx := w.place.ctx
    fa := q.fa
    addr := q.addr
    length := q.length
    value := q.value
    token := q.token
    after := after
    phase := phase
    reply := []
    fault := none
    serving := {} }
def packetFor (s : State) (job : BitVec 16) (q : Request) : FabPacket :=
  { src := BitVec.ofNat 12 s.fabric.node
    seqNo := BitVec.ofNat 32 s.fabric.nextSeq
    job := job
    win := BitVec.ofNat 8 (q.fa.toNat / 2 ^ 44)
    off := BitVec.ofNat 44 q.fa.toNat
    sig := match q.op with
      | .signal op => op
      | _ => .add
    len := q.length
    data := q.data
    skip := []
    cmd := s.ticket }

/-- The command is posted and its packet leaves: for another node, or for the fabric engine of this one. -/
def posted (s : State) (w : Wave) (job : BitVec 16) (q : Request) : State :=
  let f : Fabric := { s.fabric with
    cmds := s.fabric.cmds ++ [commandOf s w q [] 1]
    nextSeq := s.fabric.nextSeq + 1 }
  let fresh := s.fresh + (if q.op = .put then 1 else 0)
  if nodeOf q.fa = s.fabric.node then
    { s with
      fresh := fresh
      ticket := s.ticket + 2
      fabric := { f with inbox := f.inbox ++
        [{ number := s.ticket + 1
           op := q.op
           packet := packetFor s job q
           serving := {} }] } }
  else
    { s with
      fresh := fresh
      ticket := s.ticket + 1
      fabric := { f with sent := f.sent ++
        [{ node := nodeOf q.fa
           op := q.op
           packet := packetFor s job q }] } }

/-- The descriptor bytes and the team of an XCOLL, readable; its issue checks pass but for those on other collectives (R458). -/
structure Collectable (s : State) (w : Wave) (p : Pred) (va : Nat) (b : List Byte) (job : BitVec 16) (c : Coll) : Prop where
  quiet : NoTx s
  clear : Clear s w .read va 64 64
  bytes : bytesAt s.mem (rangesAt s w .read va 64) = b
  bound : (s.ctx w.place.ctx).job = some job
  coll : c = collOf b s.ticket s.cur w.place.ctx job
  ranks : 1 ≤ c.nrank ∧ c.nrank ≤ 1024
  team : rangeRaises s (waveAgent w s.cur) .read (fieldAt b 0x18 8) (8 * c.nrank) = []
  checks : collRaises { s with fabric := { s.fabric with colls := [] } } w (w.active s.slotB p) c b
    (some ((partsBy 8 (copied s (waveAgent w s.cur) (fieldAt b 0x18 8) (8 * c.nrank))).map (fun e => BitVec.ofNat 64 (leNat e)))) = []
  room : (s.fabric.colls.filter (fun x => x.wave = s.cur ∧ x.finished = false)).length < 16

/-- The 64-byte blocks of a rank's contribution as packets to the other ranks, each with this node and a sequence number of its
own (R446, R460, R461). -/
def contribution (f : Fabric) (c : Coll) (nodes : List Nat) (data : List Byte) : List (Nat × CollPacket) :=
  ((List.range c.nrank).flatMap (fun j => if j = c.rank then [] else
    (List.range ((data.length + 63) / 64)).map (fun k => (nodes.getD j 0, k)))).mapIdx (fun n e => (e.1,
      let k := e.2
      { src := BitVec.ofNat 12 f.node
        seqNo := BitVec.ofNat 32 (f.nextSeq + n)
        job := c.job
        id := c.id
        seq := c.seq
        level := 0
        index := c.rank
        block := k
        ranks := [c.rank]
        data := (data.drop (64 * k)).take 64 }))

/-- R459: the tree of `op` over the positions below 2^k that start at 2^k * i, of which those from n upward are absent. -/
def treeOf (op : W32 → W32 → W32) (f : Nat → W32) (n : Nat) : Nat → Nat → Option W32
  | 0, i => if i < n then some (f i) else none
  | k + 1, i => match treeOf op f n k (2 * i), treeOf op f n k (2 * i + 1) with
    | some a, some b => some (op a b)
    | x, y => x.orElse (fun _ => y)

/-- A collective that holds the contribution of each of its ranks, `f r k` element k of rank r, at most 16 elements. -/
structure Holds (c : Coll) (f : Nat → Nat → W32) : Prop where
  ranks : 1 ≤ c.nrank ∧ c.nrank ≤ 1024 ∧ 1 ≤ c.count ∧ c.count ≤ 16
  parts : c.parts = (List.range c.nrank).map (fun r =>
    { level := 0
      index := r
      block := 0
      ranks := [r]
      data := (List.range c.count).flatMap (fun k => leBytes 4 (f r k).toNat) })

/-- A packet of another node that has not been applied, for window x of context c (R446, R450). -/
structure ForWindow (s : State) (p : FabPacket) (c : Nat) (x : FabWindow) : Prop where
  target : s.target = .packet p
  new : (p.src.toNat, p.seqNo.toNat) ∉ s.fabric.applied ∧
    ∀ a ∈ s.fabric.inbox, ¬ (a.packet.src = p.src ∧ a.packet.seqNo = p.seqNo) ∧ a.number ≠ s.ticket
  remote : p.src.toNat ≠ s.fabric.node
  context : c < s.ctxs.length ∧ (s.ctx c).job = some p.job ∧ (s.ctx c).live = true ∧
    ∀ d < c, ¬ ((s.ctx d).job = some p.job ∧ (s.ctx d).live = true)
  window : (s.ctx c).windows.find? (fun y => y.num = p.win.toNat) = some x
  whole : p.skip = []
  quiet : NoTx s

end Sys2Proof.Claims

section
open Sys2Proof Sys2Proof.Machine Sys2Proof.Claims

/-- R448, R449, R451 to R455: a context without a job, or a node without a route, raises FABRIC_UNREACHABLE; a full token waits.
XPUT and XSIG post their command, raise the token's count and go on; an XSIG after other commands of its wave is sent once they
are done. XGET posts its command and waits for the reply. That FABRIC_UNREACHABLE at issue has the FA as its address is the
model's choice (log 63). -/
def Obligations.FabricWords : Prop :=
  ∀ (s : State) (w : Wave), Runs s w → NoTx s →
    ∀ i p la q, fabForm s w i = some (p, la, q) → Sendable s q → wordPred s.ir = p → w.active s.slotB p ≠ 0 →
      let act := w.active s.slotB p
      let mine : List FabCmd := s.fabric.cmds.filter (fun c => c.wave = s.cur ∧ c.op ≠ .get)
      ((s.ctx w.place.ctx).job = none → exec i s = traps s
        { cause := .fabricUnreachable
          lanes := act
          detail := 3
          addr := q.fa }) ∧
      ((s.ctx w.place.ctx).job ≠ none → ¬ Reaches s (nodeOf q.fa) → exec i s = traps s
        { cause := .fabricUnreachable
          lanes := act
          detail := 1
          addr := q.fa }) ∧
      (∀ job, (s.ctx w.place.ctx).job = some job → Reaches s (nodeOf q.fa) →
        (∀ tok, q.token = some tok →
          (63 ≤ w.token tok → exec i s = .next (waitWord s s (.tokenRoom tok))) ∧
          (w.token tok < 63 → q.op ≠ .put ∨ rangeRaises s (dieAgent w) .read q.addr.toNat q.length = [] →
            ∃ ds ss, let x := heldBy s (w.setToken tok (w.token tok + 1)) la ds ss []
              ((q.op = .put ∨ mine = []) → exec i s = goesTo s ((posted s w job q).setWave s.cur x)) ∧
              (q.op ≠ .put → mine ≠ [] → exec i s = goesTo s ({ s with
                ticket := s.ticket + 1
                fabric := { s.fabric with cmds := s.fabric.cmds ++
                  [commandOf s w q (mine.map (fun (c : FabCmd) => c.number)) 0] } }.setWave s.cur x)))) ∧
        (q.token = none → exec i s = .next (waitWord s (posted s w job q) (.reply s.ticket q.fa))))

end

namespace Sys2Proof.Claims

open Sys2Proof Sys2Proof.Machine

/-- The state with other fields of the fabric. -/
def withFabric (s : State) (f : Fabric → Fabric) : State := { s with fabric := f s.fabric }

/-- Command c of a resident wave awaits the reply r of another node (R446, R452, R453). -/
structure Replied (s : State) (r : FabReply) (c : FabCmd) (w : Wave) : Prop where
  target : s.target = .reply r
  new : (r.src.toNat, r.seqNo.toNat) ∉ s.fabric.applied
  only : s.fabric.cmds = [c]
  sent : c.number = r.cmd ∧ c.phase = 1 ∧ nodeOf c.fa ≠ s.fabric.node ∧ c.serving = {} ∧ c.fault = none
  wave : s.wave c.wave = some w ∧ w.run.status = .running ∧ w.run.evicted = false ∧ w.intr.armed = none
  quiet : NoTx s

/-- The packet of a source node and a sequence number has been applied (R446). -/
def Applied (s : State) (src : BitVec 12) (n : BitVec 32) : Prop := (src.toNat, n.toNat) ∈ s.fabric.applied
def applying (s : State) (src : BitVec 12) (n : BitVec 32) : State :=
  withFabric s (fun f => { f with applied := (src.toNat, n.toNat) :: f.applied })

/-- What a node keeps of a SEQ and of one that it held before: the later one (R461, R466). -/
def later (old : Option (BitVec 32)) (seq : BitVec 32) (x : BitVec 32) : Prop :=
  (x = seq ∧ ∀ y, old = some y → ahead seq.toNat y.toNat) ∨ (old = some x ∧ ¬ ahead seq.toNat x.toNat)

/-- Slot b of the wave holds an XGET word that waits for command n; what completion does to the slots moves nothing else. -/
structure AtGet (w : Wave) (b : Bool) (n : Nat) (ir : W64) : Prop where
  valid : (w.slot b).valid = true ∧ ∃ k fa, (w.slot b).wait = some { kind := .reply n fa, ticket := k, word := ir }
  one : ∀ x, (w.slot (!b)).wait = some x → ∀ fa, x.kind ≠ .reply n fa
  settled : Settled (nextWord (w.slot b)) ∧ Settled (w.slot (!b))

/-- A collective that may complete (R460): every contribution that its result needs has arrived. -/
structure Ripe (s : State) (c : Coll) (w : Wave) : Prop where
  target : s.target = .op c.number
  found : findColl s c.number = some c
  once : ∀ x ∈ s.fabric.colls, x.number = c.number → x = c
  wave : s.wave c.wave = some w ∧ w.run.evicted = false
  ready : c.contributed = true ∧ c.finished = false ∧ c.serving = {}
  quiet : NoTx s

/-- SEQ is not ahead of the latest or the aborted one that the node keeps for the job and ID (R461, R466). -/
def staleFor (s : State) (job : BitVec 16) (id seq : BitVec 32) : Prop :=
  ∃ l x, (l = s.fabric.latest ∨ l = s.fabric.aborted) ∧ keptSeq l job id = some x ∧ ¬ ahead seq.toNat x.toNat

end Sys2Proof.Claims

section
open Sys2Proof Sys2Proof.Machine Sys2Proof.Claims

/-- R450, R452 to R454: a request of another node is applied at the window that it names, at most once (R446), and answered: a
write stores its bytes, a read answers them, a signal adds, sets or fills its word; a request beyond the window, or one that
FLAGS forbids, changes no memory and answers the cause with the FA. That a request is checked on its whole access, that the
answer of a fault has the FA, and which packets are dropped or kept, are the model's choices (log 63).

R446, R447, R452, R453, R455, R456: FLIT_CRC_FAIL counts the flit, LANE_FAILURE takes the spare lane and then narrows the
port, LINK_TRAINED records the far end, ROUTE_FAILURE sends the lost packet of a sequence number again, be it a request without
an answer, an answer, a contribution or an abort. The answer of an XPUT or XSIG lowers its token and keeps a fault for WAITTK,
and sends the XSIG that waited for it; the reply of an XGET completes its word or is raised there; an answer that arrives again
changes nothing. That a fault of an XGET is raised at its word, with the local bytes as they were, is the model's reading
(log 63). -/
def Obligations.FabricEvents : Prop :=
  (∀ (s : State) (p : FabPacket) (c : Nat) (x : FabWindow), ForWindow s p c x →
     let g : Agent :=
       { ctx := c
         user := true
         core := none
         wave := none }
     let va := x.base.toNat + p.off.toNat
     let fa : W64 := BitVec.ofNat 64 (s.fabric.node % 2 ^ 12 * 2 ^ 52 + p.win.toNat * 2 ^ 44 + p.off.toNat)
     let answers (data : List Byte) (f : Option (Cause × Nat)) (t : State) : Prop :=
       t.fabric.applied = (p.src.toNat, p.seqNo.toNat) :: s.fabric.applied ∧ t.fabric.inbox = s.fabric.inbox ∧
       t.fabric.sentReply = s.fabric.sentReply ++ [(p.src.toNat,
         { src := BitVec.ofNat 12 s.fabric.node
           seqNo := BitVec.ofNat 32 s.fabric.nextSeq
           cmd := p.cmd
           data := data
           fault := f.map (fun e => (BitVec.ofNat 6 e.1.code, BitVec.ofNat 8 e.2))
           addr := if f = none then 0 else fa })]
     let forms : List (Instr × Nat × Need) :=
       [(.fabricTargetRead, 0, .read), (.fabricTargetWrite, 1, .write), (.fabricTargetSignal, 2, .both)]
     s.fabric.node < 2 ^ 12 →
     (∀ f ∈ forms,
       (x.length < p.off.toNat + p.len → ∃ t, exec f.1 s = .next t ∧ t.mem = s.mem ∧
         answers [] (some (.pageProtection, 0x20)) t) ∧
       (p.off.toNat + p.len ≤ x.length → x.flags.testBit f.2.1 = false → ∃ t, exec f.1 s = .next t ∧ t.mem = s.mem ∧
         answers [] (some (.pageProtection, 0x21)) t)) ∧
     (p.off.toNat + p.len ≤ x.length → va % 2 ^ 16 + p.len ≤ 2 ^ 16 → 0 < p.len →
       (x.flags.testBit 0 = true → rangeRaises s g .read va p.len = [] → ∃ t, exec .fabricTargetRead s = .next t ∧
         t.mem = s.mem ∧ answers (bytesAt s.mem (partRanges (partsOf s g .read va p.len))) none t) ∧
       (x.flags.testBit 1 = true → rangeRaises s g .write va p.len = [] → p.data.length = p.len →
         ∃ t, exec .fabricTargetWrite s = .next t ∧ answers [] none t ∧
           t.mem = putAt s.mem (partRanges (partsOf s g .write va p.len)) p.data) ∧
       (∀ pa page, x.flags.testBit 2 = true → rangeRaises s g .both va p.len = [] → p.len = 8 → p.data.length = 8 →
         va % 8 = 0 → partRanges (partsOf s g .both va 8) = [(pa, 8)] →
         (partsOf s g .both va 8).map (·.page) = [.ok page] →
         (p.sig = .set → ∃ t, exec .fabricTargetSignal s = .next t ∧ answers [] none t ∧ t.mem = s.mem.writeN pa p.data) ∧
         (p.sig = .add → page.host = false → ∃ t, exec .fabricTargetSignal s = .next t ∧ answers [] none t ∧
           t.mem = s.mem.writeN pa (leBytes 8 (leNat (s.mem.readN pa 8) + leNat p.data))) ∧
         (p.sig = .add → page.host = true → ∃ t, exec .fabricTargetSignal s = .next t ∧ t.mem = s.mem ∧
           answers [] (some (.atomicUnsupported, 0)) t) ∧
         (p.sig = .fill → page.tag = false → ∃ t, exec .fabricTargetSignal s = .next t ∧ t.mem = s.mem ∧
           answers [] (some (.tagNotEnabled, 0)) t) ∧
         (p.sig = .fill → page.tag = true → s.fabric.fills = [] →
           (∀ u ∈ s.waves, u.slotA.wait = none ∧ u.slotB.wait = none) →
           (s.mem.isFull pa = false → ∃ t, exec .fabricTargetSignal s = .next t ∧ answers [] none t ∧
             t.mem = (s.mem.writeN pa p.data).setFull pa true) ∧
           (s.mem.isFull pa = true → ∃ t, exec .fabricTargetSignal s = .next t ∧ t.mem = s.mem ∧
             (∃ k, t.fabric.fills = [(p, k, pa)]) ∧ t.fabric.sentReply = s.fabric.sentReply)))) ∧
     (∀ f ∈ forms, ∃ t, exec f.1 { s with ctxs := s.ctxs.set c { s.ctx c with windows := [] } } = .next t ∧
       t.mem = s.mem ∧ answers [] (some (.fabricUnreachable, 2)) t) ∧
     (∀ (u : State), (∃ l, u = { s with fabric := { s.fabric with applied := l } } ∧ (p.src.toNat, p.seqNo.toNat) ∈ l) →
       ∀ f ∈ forms, exec f.1 u = .next u)) ∧
  ((∀ (s : State) (n : Nat) (q : FabPort), n < 32 → s.fabric.ports[n]? = some q →
     let port (x : FabPort) : Out := .next (withFabric s (fun f => { f with ports := f.ports.set n x }))
     (s.target = .port n →
       exec .flitCrcFail s = port { q with crcRetry := min 0xFFFF (q.crcRetry + 1) } ∧
       (q.spared = false → exec .laneFailure s = port { q with spared := true }) ∧
       (q.spared = true → q.width < 2 → exec .laneFailure s = port { q with width := q.width + 1 })) ∧
     (∀ node far, s.target = .link n node far → exec .linkTrained s = port { q with
       up := true
       peerNode := node.toNat
       peerPort := far.toNat })) ∧
   (∀ (s : State) (n : Nat), s.target = .op n →
     (∀ x c, s.fabric.sent.find? (fun y => y.packet.seqNo.toNat = n) = some x → findCmd s x.packet.cmd = some c →
       c.phase = 1 → exec .routeFailure s = .next (withFabric s (fun f => { f with sent := f.sent ++ [x] }))) ∧
     ((∀ y ∈ s.fabric.sent, y.packet.seqNo.toNat ≠ n) →
       (∀ x, s.fabric.sentReply.find? (fun y => y.2.seqNo.toNat = n) = some x →
         exec .routeFailure s = .next (withFabric s (fun f => { f with sentReply := f.sentReply ++ [x] }))) ∧
       ((∀ y ∈ s.fabric.sentReply, y.2.seqNo.toNat ≠ n) →
         (∀ x, s.fabric.sentColl.find? (fun y => y.2.seqNo.toNat = n) = some x →
           exec .routeFailure s = .next (withFabric s (fun f => { f with sentColl := f.sentColl ++ [x] }))) ∧
         ((∀ y ∈ s.fabric.sentColl, y.2.seqNo.toNat ≠ n) → ∀ x,
           s.fabric.sentAbort.find? (fun y => y.2.seqNo.toNat = n) = some x →
           exec .routeFailure s = .next (withFabric s (fun f => { f with sentAbort := f.sentAbort ++ [x] })))))) ∧
   (∀ (s : State) (r : FabReply), s.target = .reply r → Applied s r.src r.seqNo →
     exec .fabricCommandCompletion s = .next s ∧ exec .xgetReply s = .next s) ∧
   (∀ (s : State) (r : FabReply) (c : FabCmd) (w : Wave), Replied s r c w →
     (∀ tok, c.op ≠ .get → c.token = some tok →
       exec .fabricCommandCompletion s = .next (withFabric (s.setWave c.wave { w with
         tokens := Cells.set 0 w.tokens tok (w.token tok - 1)
         faults := w.faults ++ (match r.fault with
           | none => []
           | some f => [{ order := c.number
                          token := tok
                          cause := Causes.ofCode f.1.toNat
                          detail := f.2.toNat
                          addr := r.addr }]) }) (fun f => { f with
           cmds := []
           applied := (r.src.toNat, r.seqNo.toNat) :: f.applied })) ∧
       (∀ (x : FabCmd) op node, x.op = .signal op → x.number ≠ c.number → x.wave = c.wave → x.phase = 0 →
         x.after = [c.number] → x.serving = {} → nodeOf x.fa = node → node ≠ s.fabric.node → ∃ t,
         exec .fabricCommandCompletion (withFabric s (fun f => { f with cmds := [c, x] })) = .next t ∧
         (∃ y, t.fabric.sent = s.fabric.sent ++ [{ node := node, op := x.op, packet := y }] ∧ y.cmd = x.number ∧
           y.sig = op ∧ y.data = leBytes 8 x.value.toNat) ∧
         t.fabric.cmds.map (fun y => (y.number, y.phase)) = [(x.number, 1)])) ∧
     (∀ b ir f, c.op = .get → r.fault = some f → AtGet w b c.number ir → ∃ u, u.mem = s.mem ∧ u.waves = s.waves ∧
       u.fabric.cmds = [] ∧ exec .xgetReply s = .next (takeTrap u c.wave
         { cause := Causes.ofCode f.1.toNat
           lanes := w.active b (wordPred ir)
           detail := f.2.toNat
           addr := r.addr
           declined := true } b (w.slot b).pc ir false false)) ∧
     (∀ b ir, c.op = .get → r.fault = none → AtGet w b c.number ir →
       let passed (ws : List RegWrite) (t : State) : Prop := ∃ y, t.wave c.wave = some y ∧ t.fabric.cmds = [] ∧
         y.slot b = nextWord (w.slot b) ∧ y.slot (!b) = w.slot (!b) ∧
         (wordLa ir = 0 → y.s = (applyWrites w ws).s) ∧
         (wordLa ir ≠ 0 → y.s = w.s ∧ ∃ z ∈ y.windows, z.slotB = b ∧ z.left = (wordLa ir).toNat ∧ z.writes = ws)
       (ir.getLsbD 0 = false → ∃ t, exec .xgetReply s = .next t ∧ t.mem = s.mem ∧
         passed [.s (wordD ir) (BitVec.ofNat 64 (leNat r.data))] t) ∧
       (ir.getLsbD 0 = true → rangeRaises s (dieAgent w) .write c.addr.toNat c.length = [] →
         c.addr.toNat % 2 ^ 16 + c.length ≤ 2 ^ 16 → r.data.length = c.length → 0 < c.length → ∃ t,
         exec .xgetReply s = .next t ∧ passed [] t ∧
         t.mem = putAt s.mem (partRanges (partsOf s (dieAgent w) .write c.addr.toNat c.length)) r.data))))

/-- R457, R458, R460, R462, R466: XCOLL posts the collective of its descriptor and sends the rank's contribution to the other
ranks; an ID in flight raises ILLEGAL_FIELD, an aborted SEQ ends at once; a bad field is found although TEAM cannot be read; a
wave with 16 in flight waits. XWAIT waits for its ID, then takes a recorded cause. That early packets are kept, that parts are
kept by their sets of ranks, and that XWAIT needs a job, are the model's choices (log 64).

R459 to R461, R463, R466: a packet of a collective is kept unless its SEQ is not ahead or its ranks are held; the result of
a tree operation combines the contributions over the fixed tree of rank positions; completion stores the rank's result at RECV
and keeps the SEQ; an abort ends the collective with COLLECTIVE_ABORTED, keeps the SEQ, and leaves every byte outside RECV. A
packet or an abort that arrives again changes nothing. What is kept until an XCOLL comes is the model's choice (log 64). -/
def Obligations.CollectiveWords : Prop :=
  (∀ (s : State) (w : Wave), Runs s w → w.run.status = .running → w.run.evicted = false →
     (∀ p la (a : SReg) b job c, wordPred s.ir = p → w.active s.slotB p ≠ 0 →
       Collectable s w p (w.getS a.toNat).toNat b job c →
       let act := w.active s.slotB p
       let nodes := (partsBy 8 (copied s (waveAgent w s.cur) (fieldAt b 0x18 8) (8 * c.nrank))).map (fun e => leNat e % 2 ^ 12)
       let inFlight := ∃ x ∈ s.fabric.colls, x.ctx = c.ctx ∧ x.id = c.id ∧ x.finished = false
       let behind := ∃ x, keptSeq s.fabric.aborted job c.id = some x ∧ ¬ ahead c.seq.toNat x.toNat
       (inFlight → exec (.xcoll p la a) s = traps s
         { cause := .illegalField
           lanes := act
           detail := 0x12 }) ∧
       (¬ inFlight → (∀ x ∈ s.fabric.colls, x.number ≠ s.ticket) → ∃ t x ds ss,
         exec (.xcoll p la a) s = goesTo s t ∧ t.mem = s.mem ∧ t.waves = s.waves.set s.cur (heldBy s w la ds ss []) ∧
         x ∈ t.fabric.colls ∧ x.number = s.ticket ∧ x.wave = s.cur ∧ x.id = c.id ∧ x.seq = c.seq ∧ x.team = nodes ∧
         (behind → x.finished = true ∧ x.cause = some (.collectiveAborted, 3, 0) ∧
           t.fabric.sentColl = s.fabric.sentColl) ∧
         (¬ behind → c.op ≠ 4 → rangeRaises s (dieAgent w) .read c.send.toNat (c.count * c.elem) = [] →
           x.finished = false ∧ x.contributed = true ∧
           t.fabric.sentColl = s.fabric.sentColl ++
             contribution s.fabric c nodes (copied s (dieAgent w) c.send.toNat (c.count * c.elem))))) ∧
     (∀ p la (a : SReg) b job c, wordPred s.ir = p → w.active s.slotB p ≠ 0 →
       let va := (w.getS a.toNat).toNat
       let flying := s.fabric.colls.filter (fun x => x.wave = s.cur ∧ x.finished = false)
       (16 ≤ flying.length → exec (.xcoll p la a) s = .next (waitWord s s .collRoom)) ∧
       (NoTx s → flying.length < 16 → Clear s w .read va 64 64 → bytesAt s.mem (rangesAt s w .read va 64) = b →
         (s.ctx w.place.ctx).job = some job → c = collOf b s.ticket s.cur w.place.ctx job → c.fieldBad b = true →
         exec (.xcoll p la a) s = traps s
           { cause := .illegalField
             lanes := w.active s.slotB p
             detail := 0x10 }) ∧
       (NoTx s → flying.length < 16 → Clear s w .read va 64 64 → bytesAt s.mem (rangesAt s w .read va 64) = b →
         (s.ctx w.place.ctx).job = none → c = collOf b s.ticket s.cur w.place.ctx 0 → c.fieldBad b = false →
         collRaises s w (w.active s.slotB p) c b none = [] → (c.nrank = 0 ∨ 1024 < c.nrank ∨
           rangeRaises s (waveAgent w s.cur) .read (fieldAt b 0x18 8) (8 * c.nrank) = []) →
         (∀ e ∈ partsBy 8 (copied s (waveAgent w s.cur) (fieldAt b 0x18 8) (8 * c.nrank)), leNat e < 2 ^ 12) →
         exec (.xcoll p la a) s = traps s
           { cause := .fabricUnreachable
             lanes := w.active s.slotB p
             detail := 3 })) ∧
     (∀ p (a : SReg), w.active s.slotB p ≠ 0 → (s.ctx w.place.ctx).job ≠ none →
       let id := (w.getS a.toNat).toNat % 2 ^ 32
       let mine (c : Coll) : Prop := c.wave = s.cur ∧ c.id.toNat = id
       let left : State := { s with fabric := { s.fabric with
         colls := s.fabric.colls.filter (fun c => ¬ (c.wave = s.cur ∧ c.id.toNat = id)) } }
       ((∃ c ∈ s.fabric.colls, mine c ∧ c.finished = false) → exec (.xwait p a) s = .next (waitWord s s (.coll id))) ∧
       ((∀ c ∈ s.fabric.colls, mine c → c.finished = true ∧ c.cause = none) → exec (.xwait p a) s = goesTo s left) ∧
       (∀ c f, (∀ x ∈ s.fabric.colls, mine x → x = c) → c ∈ s.fabric.colls → mine c → c.finished = true →
         c.cause = some f → exec (.xwait p a) s = .next (trapWord s left
           { cause := f.1
             lanes := 0
             detail := f.2.1
             addr := f.2.2
             eng := true })))) ∧
  ((∀ (s : State) (p : CollPacket), s.target = .coll p → Applied s p.src p.seqNo → exec .collectivePacket s = .next s) ∧
   (∀ (s : State) (p : CollPacket), s.target = .coll p → ¬ Applied s p.src p.seqNo → (∃ x ∈ s.ctxs, x.job = some p.job) →
     let u := applying s p.src p.seqNo
     let mine (c : Coll) : Prop := c.job = p.job ∧ c.id = p.id ∧ c.seq = p.seq ∧ c.finished = false
     let part : CollPart :=
       { level := p.level
         index := p.index
         block := p.block
         ranks := p.ranks
         data := p.data }
     (staleFor s p.job p.id p.seq → exec .collectivePacket s = .next u) ∧
     (¬ staleFor s p.job p.id p.seq →
       ((∀ c ∈ s.fabric.colls, ¬ mine c) →
         exec .collectivePacket s = .next (withFabric u (fun f => { f with early := f.early ++ [p] }))) ∧
       (∀ c, s.fabric.colls = [c] → mine c →
         ((∃ q ∈ c.parts, q.level = p.level ∧ q.index = p.index ∧ q.block = p.block ∧ ∀ r ∈ p.ranks, r ∈ q.ranks) →
           exec .collectivePacket s = .next u) ∧
         ((∃ r ∈ p.ranks, ∀ q ∈ c.parts, q.level = p.level → q.index = p.index → q.block = p.block → r ∉ q.ranks) →
           exec .collectivePacket s = .next (withFabric u (fun f =>
             { f with colls := [{ c with parts := c.parts ++ [part] }] })))))) ∧
   (∀ (c : Coll) (f : Nat → Nat → W32), Holds c f →
     let op (a b : W32) : W32 := if c.typ = 0 then add32 a b else a + b
     let at_ (k : Nat) : W32 := (treeOf op (fun r => f r k) c.nrank 10 0).getD 0
     let image (l : List W32) : List Byte := l.flatMap (fun x => leBytes 4 x.toNat)
     (c.op = 1 → c.result = some ([(c.recv.toNat, image ((List.range c.count).map at_))], false)) ∧
     (c.op = 2 → c.count % c.nrank = 0 → c.rank < c.nrank → c.result = some ([(c.recv.toNat,
       image ((List.range (c.count / c.nrank)).map (fun k => at_ (c.rank * (c.count / c.nrank) + k))))], false)) ∧
     (c.op = 3 → c.result = some ([(c.recv.toNat,
       image ((List.range c.nrank).flatMap (fun r => (List.range c.count).map (f r))))], false))) ∧
   (∀ (s : State) (c : Coll) (w : Wave) (bs : List Byte), Ripe s c w → c.result = some ([(c.recv.toNat, bs)], false) →
     rangeRaises s (dieAgent w) .write c.recv.toNat bs.length = [] → c.recv.toNat % 2 ^ 16 + bs.length ≤ 2 ^ 16 →
     0 < bs.length → ∃ t, exec .collectiveCompletion s = .next t ∧ t.waves = s.waves ∧
       t.mem = putAt s.mem (partRanges (partsOf s (dieAgent w) .write c.recv.toNat bs.length)) bs ∧
       (∃ x, keptSeq t.fabric.latest c.job c.id = some x ∧ later (keptSeq s.fabric.latest c.job c.id) c.seq x) ∧
       t.fabric.colls = s.fabric.colls.filter (fun x => x.number ≠ c.number ∧ ¬ (x.finished = true ∧ x.cause = none))) ∧
   (∀ (s : State) (a : CollAbort), s.target = .collAbort a → Applied s a.src a.seqNo →
     exec .collectiveAbort s = .next s) ∧
   (∀ (s : State) (a : CollAbort), s.target = .collAbort a → ¬ Applied s a.src a.seqNo →
     (∃ t x, exec .collectiveAbort s = .next t ∧ keptSeq t.fabric.aborted a.job a.id = some x ∧
       later (keptSeq s.fabric.aborted a.job a.id) a.seq x ∧ Applied t a.src a.seqNo ∧
       (∀ q ∈ t.fabric.early, q.job = a.job → q.id = a.id → ahead q.seq.toNat a.seq.toNat) ∧
       ((∀ c ∈ s.fabric.colls, ¬ (c.job = a.job ∧ c.id = a.id ∧ c.seq = a.seq ∧ c.finished = false)) →
         t.mem = s.mem ∧ t.fabric.colls = s.fabric.colls)) ∧
     (∀ c w, s.fabric.colls = [c] → c.job = a.job → c.id = a.id → c.seq = a.seq → c.finished = false →
       s.wave c.wave = some w → w.run.evicted = false → NoTx s →
       rangeRaises s (dieAgent w) .write c.recv.toNat c.recvBytes = [] → c.recv.toNat % 2 ^ 16 + c.recvBytes ≤ 2 ^ 16 →
       ∃ t, exec .collectiveAbort s = .next t ∧ t.waves = s.waves ∧
         t.fabric.colls = [{ c with
           finished := true
           parts := []
           cause := some (.collectiveAborted, a.detail.toNat, 0) }] ∧
         ∀ pa, Outside (partRanges (partsOf s (dieAgent w) .write c.recv.toNat c.recvBytes)) pa →
           t.mem.readN pa 1 = s.mem.readN pa 1)))

end

namespace Sys2Proof.Claims

open Sys2Proof Sys2Proof.Machine

/-! ### The Owl: records, trap reports, halts and evictions (R188-R190, R321, R326-R331, R409, R428) -/

/-- The Owl takes record e of core c, the first of its queue. -/
structure Takes (s : State) (c : Nat) (e : EventRec) : Prop where
  target : s.target = .core c
  inRange : c < s.cores.length ∧ clusterOf c < s.clusters.length
  open_ : (s.cluster (clusterOf c)).owlPaused = false
  head : (s.core c).events.head? = some e

/-- The queue without its first record; the first record that waits for one of the 192 shared entries comes in (R190). -/
def recordGone (k : Core) : Core :=
  let rest := k.events.drop 1
  match k.held with
  | [] => { k with events := rest }
  | h :: more =>
    if (rest.filter (fun e => e.kind ≠ 4 ∧ e.kind ≠ 5)).length < 192 then
      { k with
        events := rest ++ [h]
        held := more }
    else { k with events := rest }
def taken (s : State) (c : Nat) : State := { s with cores := s.cores.set c (recordGone (s.core c)) }

/-- The records that wait for words are checked again (R389). -/
def rechecked (s : State) : State :=
  { s with dies := s.dies.map (fun d => { d with queue := d.queue.map (fun t =>
      { t with isReady := t.isReady || t.ready.all (fun pa => s.mem.isFull pa) }) }) }

/-- The trap queue of context n takes a report now; its next entry lies at physical address pa (R427, R428). -/
structure QueueOpen (s : State) (n pa tail head : Nat) : Prop where
  inRange : n < s.ctxs.length
  table : (s.ctx n).trapQ ≠ 0 ∧ (s.ctx n).trapQ.toNat % 8 = 0 ∧ ∃ k, 4 ≤ k ∧ k ≤ 12 ∧ (s.ctx n).trapQN = 2 ^ k
  ends : tail = leNat (s.mem.readN ((s.ctx n).descAddr + 0x30) 4) ∧ head = leNat (s.mem.readN ((s.ctx n).descAddr + 0x34) 4)
  room : (tail + 2 ^ 32 - head) % 2 ^ 32 < (s.ctx n).trapQN
  place : ∃ page, walk s n ((s.ctx n).trapQ.toNat + 8 * (tail % (s.ctx n).trapQN)) = .ok page ∧ page.pa = pa

/-- The report stands in the queue, TAIL has moved on, and the host is told when the queue was empty. -/
def reported (s : State) (n pa tail head : Nat) (priv : W64) : State :=
  { s with
    mem := (s.mem.writeN pa (leBytes 8 priv.toNat)).writeN ((s.ctx n).descAddr + 0x30) (leBytes 4 (tail + 1))
    interrupts := if tail = head then s.interrupts ++ [(s.ctx n).port.intVec] else s.interrupts }

/-- Wave i has no instruction, operation or command in flight (R53). -/
structure Quiescent (s : State) (i : Nat) (w : Wave) : Prop where
  cores : ∀ c ∈ s.cores, (∀ r ∈ c.rings, ∀ e ∈ r.entries, e.wave ≠ i) ∧ (∀ o ∈ c.queue, o.wave ≠ i) ∧
    ∀ r, c.running = some r → r.op.wave ≠ i ∧ r.follower ≠ some i
  clusters : ∀ c ∈ s.clusters, (∀ k ∈ c.cards, k.wave ≠ i) ∧ ∀ m ∈ c.mergeQueue, m.wave ≠ i
  dies : ∀ d ∈ s.dies, ∀ o ∈ d.splitOps, o.wave ≠ i
  fabric : (∀ c ∈ s.fabric.cmds, c.wave ≠ i) ∧ ∀ c ∈ s.fabric.colls, c.wave ≠ i
  wave : s.wave i = some w ∧ w.windows = [] ∧ w.abandoned = [] ∧ frameRequests s w.place.core = []
  inRange : w.place.core < s.cores.length ∧ w.place.cluster < s.clusters.length

/-- A kind of wait is a blocking point at which slot A of a wave stands, or at which slot B does while A does not. -/
def StandsAt (w : Wave) (k : WaitKind) : Prop :=
  k.blocking = true ∧ ∃ x, x.kind = k ∧
    ((w.slotA.valid = true ∧ w.slotA.wait = some x) ∨ (w.slotA.valid = false ∧ w.slotB.valid = true ∧ w.slotB.wait = some x))

/-- A wave stands at a blocking point with every slot that runs, and may be evicted there (R232, R330). -/
structure Idle (s : State) (i : Nat) (w : Wave) (k : WaitKind) : Prop where
  runs : s.wave i = some w ∧ w.run.status = .running ∧ w.run.evicted = false ∧ w.run.skid = none
  stands : StandsAt w k ∧ (w.slotB.valid = false ∨ w.slotA.valid = false)
  free : Quiescent s i w ∧ Steady s i w

/-- What an eviction at a blocking point leaves of the wave (R330, R331, R333). -/
structure Evicted (w y : Wave) (k : Option WaitKind) : Prop where
  gone : y.run.evicted = true ∧ y.run.wake = k ∧ y.run.preempt = false ∧ y.run.status = w.run.status
  kept : y.s = w.s ∧ y.m = w.m ∧ y.tokens = w.tokens ∧ y.exited = w.exited ∧ y.stack = w.stack ∧ y.sys = w.sys ∧
    y.slotA.pc = w.slotA.pc ∧ y.slotA.mask = w.slotA.mask ∧ y.slotB.pc = w.slotB.pc ∧ y.slotB.mask = w.slotB.mask
  freed : y.place.frameMap = List.replicate 32 none ∧ y.place.edgeMap = List.replicate 8 none

end Sys2Proof.Claims

section
open Sys2Proof Sys2Proof.Machine Sys2Proof.Claims

/-- R190, R321, R389, R428: the Owl takes the first record of a core. COPY_DONE and CARD_DONE let the dispatchers check the records
that wait for words; COPY_FAULT is kept for the runtime; BLOCKED stores the wake condition; ARRAY_REPLAY, ECC_CORRECTED and
ECC_POISON go to telemetry, unless an update of the Theique pauses it; TRAP reports the frame through the trap queue, or holds
the report until there is room, but that of a fault in service is not reported here. That the trap queue's address is a virtual
one of the context is the model's reading (log 56). -/
def Obligations.OwlRecords : Prop :=
  (∀ (s : State) (c : Nat) (e : EventRec), Takes s c e →
    (e.kind = 1 → exec .copyDone s = .next (rechecked (taken s c))) ∧
    (e.kind = 3 → exec .cardDone s = .next (rechecked (taken s c))) ∧
    (e.kind = 2 → exec .copyFault s = .next { taken s c with
      clusters := s.clusters.set (clusterOf c) { s.cluster (clusterOf c) with
        copyFaults := (s.cluster (clusterOf c)).copyFaults ++ [e] } }) ∧
    (e.kind = 5 → exec .retired s = .next (taken s c)) ∧
    (e.kind = 10 → exec .uint s = .next (taken s c)) ∧
    (∀ w, e.kind = 6 → s.wave e.who = some w → w.run.evicted = true → exec .blocked s =
      .next ((taken s c).setWave e.who { w with run := { w.run with wakeStored := true } })) ∧
    (∀ i k, (i, k) ∈ [(Instr.arrayReplay, 7), (Instr.eccCorrected, 8), (Instr.eccPoison, 9)] → e.kind = k →
      (s.trust.paused = false → exec i s =
        .next { taken s c with telemetry := { s.telemetry with records := s.telemetry.records ++ [e] } }) ∧
      (s.trust.paused = true → exec i s = .next (taken s c))) ∧
    (∀ w, e.kind = 4 → s.wave e.who = some w →
      let n := w.place.ctx
      (e.replay = true → exec .trapRecord s = .next (taken s c)) ∧
      (e.replay = false → n < s.ctxs.length →
        (∀ pa tail head, (s.ctx n).trapHeld = [] → QueueOpen s n pa tail head →
          exec .trapRecord s = .next (reported (taken s c) n pa tail head e.addr)) ∧
        (((s.ctx n).trapHeld ≠ [] ∨ (s.ctx n).trapQ = 0 ∨ ∃ tail head, (tail + 2 ^ 32 - head) % 2 ^ 32 ≥ (s.ctx n).trapQN ∧
            tail = leNat (s.mem.readN ((s.ctx n).descAddr + 0x30) 4) ∧
            head = leNat (s.mem.readN ((s.ctx n).descAddr + 0x34) 4)) →
          exec .trapRecord s = .next { taken s c with ctxs := s.ctxs.set n { s.ctx n with
            trapHeld := (s.ctx n).trapHeld ++ [e.addr] } })))) ∧
  (∀ (s : State) (n pa tail head : Nat) (x : W64) (rest : List W64), s.target = .ctx n → (s.ctx n).trapHeld = x :: rest →
    QueueOpen s n pa tail head → exec .trapQueueRelease s =
      .next (reported { s with ctxs := s.ctxs.set n { s.ctx n with trapHeld := rest } } n pa tail head x))

/-- R53, R55, R185, R330, R331, R409: the instruction of a window completes with its writes; a retired wave releases frames,
edges, tokens and the tags of its window; the page faults of a word are counted in its slot, and the 17th is REPLAY_LIMIT; a
pre-emption request evicts a wave that stands at a blocking point, or waits while a pair operation holds its frames; a
compatibility swap evicts every member of an idle group; a fault that was serviced lets the wave or the engine go on, one that
the runtime declined halts the wave and is no longer one to replay. -/
def Obligations.WaveEvents : Prop :=
  (∀ (s : State) (i k : Nat) (w : Wave) (x : Window), s.target = .window i k → s.wave i = some w → w.windows[k]? = some x →
    x.done = false → (x.ends = .any ∨ (x.ends = .drain ∧ arrayPending s i = 0)) →
    exec .longLatencyCompletion s = .next (s.setWave i { applyWrites w x.writes with
      windows := (w.windows.set k { x with
        done := true
        writes := [] }).filter (fun y => ¬ (y.done = true ∧ y.left = 0)) })) ∧
  (∀ (s : State) (i : Nat) (w : Wave), s.target = .wave i → Quiescent s i w → w.run.status = .retiring →
    w.run.evicted = false → ∃ t, exec .waveRelease s = .next t ∧ t.mem = s.mem ∧
      t.waves = s.waves.set i { w with
        place := { w.place with
          frameMap := List.replicate 32 none
          edgeMap := List.replicate 8 none }
        tokens := []
        faults := []
        saved := {}
        run := { w.run with status := .gone } } ∧
      (w.place.scratchLen ≠ 0 → ∀ e ∈ (t.core w.place.core).tags, w.place.scratchBase ≤ 128 * e.1 →
        128 * e.1 < w.place.scratchBase + w.place.scratchLen → e.2.getLsbD 63 = false)) ∧
  (∀ (s : State) (w : Wave) (r : Raise), s.wave s.cur = some w → r.cause = .pageNotPresent → r.kind = .y →
    (w.slot s.slotB).valid = true → Steady s s.cur w →
    let n := (w.slot s.slotB).faults
    (n < 16 → ¬ handled w → ∃ y, (trapWord s s r).wave s.cur = some y ∧ y.run.status = .service ∧ y.run.limit = none ∧
      (y.slot s.slotB).faults = n + 1 ∧ (y.slot s.slotB).pc = (w.slot s.slotB).pc) ∧
    (16 ≤ n → trapWord s s r = { s.setWave s.cur { w with run := { w.run with
      status := .service
      limit := some (r, s.slotB, (w.slot s.slotB).pc, s.ir) } } with fresh := s.fresh + 1 })) ∧
  (∀ (s : State) (i : Nat) (w : Wave) (r : Raise) (b : Bool) (pc word : W64), s.target = .wave i → s.wave i = some w →
    w.run.limit = some (r, b, pc, word) → w.tx = none →
    let s1 : State := s.setWave i { w.setSlot b { w.slot b with faults := 0 } with run := { w.run with
      status := .running
      limit := none } }
    exec .replayLimit s = .next (takeTrap { s1 with
      cur := i
      slotB := b
      ir := word } i { r with cause := .replayLimit } b pc word false false)) ∧
  (∀ (s : State) (i : Nat) (w : Wave), s.target = .wave i → s.wave i = some w → w.run.status = .running →
    w.run.evicted = false →
    (w.run.preempt = false → w.run.evicting = false → (∀ x, w.slotA.wait = some x ∨ w.slotB.wait = some x → x.kind.blocking = false) →
      exec .preemptionRequest s = .next (s.setWave i { w with run := { w.run with preempt := true } })) ∧
    (∀ k, StandsAt w k → heldByPair s i = true → w.run.skid = none → w.run.preempt = false →
      exec .preemptionRequest s = .next (s.setWave i { w with run := { w.run with
        preempt := true
        evicting := true } })) ∧
    (∀ k, StandsAt w k → Quiescent s i w → Steady s i w → w.run.skid = none → w.run.preempt = false → ∃ t y,
      exec .preemptionRequest s = .next t ∧ t.wave i = some y ∧ Evicted w y (some k) ∧
      ((s.core w.place.core).eventRoom = true → (t.core w.place.core).events = (s.core w.place.core).events ++
        [{ kind := 6
           wave := w.place.num
           token := 0
           cause := .noCause
           data := k.wake.1
           addr := BitVec.ofNat 64 k.wake.2.1
           who := i }]))) ∧
  (∀ (s : State) (cl : Nat) (g : Group), s.target = .group cl g.ctx g.key → s.findGroup cl g.ctx g.key = some g →
    g.halt = 0 → (s.ctx g.ctx).compat = true → g.members ≠ [] → (g.members.map (·.wave)).Nodup →
    (∀ m ∈ g.members, ∃ w k, Idle s m.wave w k ∧ s.groupOf w = some g) →
    (g.rowWait = [] ∨ g.members.length = 1) → ∃ t, exec .compatSwapOut s = .next t ∧
      ∀ m ∈ g.members, ∀ w k, Idle s m.wave w k → ∃ y, t.wave m.wave = some y ∧ Evicted w y (some k)) ∧
  (∀ (s : State) (i : Nat) (w : Wave) (f : TrapInfo), s.target = .owner (.wave i) → s.wave i = some w →
    w.run.status = .service → w.run.limit = none → w.run.trap = some f →
    (w.abandoned = [] → Settled w.slotA → Settled w.slotB → (w.slotA.valid = true ∨ w.slotB.valid = true) →
      exec .pageFaultServiced s = .next (s.setWave i { w with run := { w.run with
        status := if f.asleep = true then .asleep else .running
        trap := none } })) ∧
    (w.tx = none → s.groupOf w = none → (s.ctx w.place.ctx).trapQ = 0 → w.place.ctx < s.ctxs.length → ∃ t,
      exec .pageMapDeclined s = .next t ∧
      t.waves = s.waves.set i { w with run := { w.run with
        status := .halted
        skid := none
        haltDue := false
        trap := some { f with orig := false } } } ∧
      (∀ q, walk s w.place.ctx w.sys.priv.toNat = .ok q → w.sys.priv.toNat % 4096 = 0 →
        let flags := leNat (s.mem.readN q.pa 8)
        t.mem = s.mem.writeN q.pa (leBytes 8 (flags - (if flags.testBit 9 then 2 ^ 9 else 0)))) ∧
      (t.ctx w.place.ctx).trapHeld = (s.ctx w.place.ctx).trapHeld ++ [w.sys.priv])) ∧
  (∀ (s : State) (c k : Nat) (r : Ring) (e : CopyEntry), s.target = .owner (.copy c k) → c < s.cores.length →
    (s.core c).rings[k]? = some r → r.entries = [e] → e.started = false → e.serving.waiting = true → ∀ d : Bool,
    let sv : Serving := { e.serving with
      waiting := false
      declined := if d then (e.serving.addr, false) :: e.serving.declined else e.serving.declined }
    exec (if d then .pageMapDeclined else .pageFaultServiced) s = .next { s with cores := s.cores.set c { s.core c with
      rings := (s.core c).rings.set k { r with entries := [{ e with serving := sv }] } } })

end

namespace Sys2Proof.Claims

open Sys2Proof Sys2Proof.Machine

/-! ### Errors and repair (R193, R194, R405, R437, R438, R442) -/

/-- Structure codes and the name of the unit that holds a byte offset (R189, R193). -/
def structureCode : EccUnit → Nat
  | .registerFile => 1
  | .scratchpad => 2
  | .tiles => 3
  | .frames => 4
  | .edges => 5
  | .tagTable => 6
  | .ruleSlots => 7
  | .control => 0
def structureSize : EccUnit → Nat
  | .registerFile => 2 ^ 24
  | .scratchpad => 2 ^ 19
  | .tiles => 327680
  | .frames => 589824
  | .edges => 4352
  | .tagTable => 32768
  | .ruleSlots => 16
  | .control => 0

/-- The record of an error on a core (R188, R189). -/
def errorRecord (kind : Nat) (u : EccUnit) (off : Nat) : EventRec :=
  { kind := kind
    wave := 0
    token := 0
    cause := .noCause
    data := structureCode u
    addr := BitVec.ofNat 64 off
    who := 0 }

/-- The pseudo-channel of a physical address within its stack (R404): with g its bits [35:8], 128 * t + c for t = g[27:7] mod 3
and c the exclusive or of the four 7-bit fields of g. -/
def channelOf (pa : Nat) : Nat :=
  let g := pa / 2 ^ 8 % 2 ^ 28
  128 * (g / 2 ^ 7 % 3) +
    ((g % 2 ^ 7) ^^^ (g / 2 ^ 7 % 2 ^ 7) ^^^ (g / 2 ^ 14 % 2 ^ 7) ^^^ (g / 2 ^ 21 % 2 ^ 7))

/-- Room for a shared record (R190). -/
def sharedRoom (c : Core) : Prop := (c.events.filter (fun e => e.kind ≠ 4 ∧ e.kind ≠ 5)).length < 192

/-- The core after an error record of one of the shared kinds: a full queue holds its source. -/
def noted (c : Core) (e : EventRec) : Core :=
  if (c.events.filter (fun e => e.kind ≠ 4 ∧ e.kind ≠ 5)).length < 192 then { c with events := c.events ++ [e] }
  else { c with held := c.held ++ [e] }

/-- The poison of a structure of a core other than the register file (R193): a granule, a tag's valid bit, a rule slot. -/
def poisoned (c : Core) : EccUnit → Nat → Core
  | .scratchpad, off => { c with scratchPoison := c.scratchPoison.add (off / 8) }
  | .tiles, off => { c with store := { c.store with tilePoison := c.store.tilePoison.add (off / 8) } }
  | .frames, off => { c with store := { c.store with framePoison := c.store.framePoison.add (off / 8) } }
  | .edges, off => { c with store := { c.store with edgePoison := c.store.edgePoison.add (off / 8) } }
  | .tagTable, off =>
    let old := (Cells.get 0 c.tags (off / 8)).toNat
    { c with tags := Cells.set 0 c.tags (off / 8) (BitVec.ofNat 64 (old % 2 ^ 63)) }
  | .ruleSlots, off =>
    let slot := c.store.rules.getD off {}
    { c with store := { c.store with rules := c.store.rules.set off { slot with poisoned := true } } }
  | _, _ => c

/-- No wave stands on a core, and nothing of the core is in flight. -/
structure Empty (s : State) (c : Nat) : Prop where
  inRange : c < s.cores.length
  waves : ∀ w ∈ s.waves, w.place.core ≠ c ∨ w.run.status = .gone
  idle : (s.core c).running = none ∧ (s.core c).queue = [] ∧ ∀ r ∈ (s.core c).rings, r.entries = []
  cards : ∀ k ∈ s.clusters, ∀ x ∈ k.cards, x.core ≠ c

/-- What a spare core takes over from the drained core whose number it takes: tiles, TCRs, rule slots, the scratchpad with its
tags; not what is cached (R438). -/
def spareOf (c : Core) : Core :=
  { c with
    draining := false
    spare := true
    tlb := [] }

end Sys2Proof.Claims

section
open Sys2Proof Sys2Proof.Machine Sys2Proof.Claims

/-- R190, R193, R194, R404, R405, R437, R441, R442: a corrected error writes ECC_CORRECTED, or is dropped and counted while the shared
entries are full; an uncorrectable one poisons its unit and writes ECC_POISON; MACHINE_CHECK fences the core and halts its
waves; a scrubbed line with such an error is poisoned; a channel is spared while its stack has a spare, which then serves the
granules that R404 places in the channel; the clock falls by 75 MHz. Telemetry and sparing rest while an update of the Theique
pauses them.

R194, R330, R438: the retirement of a core pair begins by placing nothing more on it and requesting pre-emption of its waves;
once the pair is empty a spare pair takes its numbers and what it holds, and the die has one spare pair less; without a spare
pair the cores are lost. The machine itself may begin it once a core of the pair has failed; that the runtime begins any other
one from outside is the model's reading (log 76). -/
def Obligations.ErrorEvents : Prop :=
  ((∀ (s : State) (c : Nat) (u : EccUnit) (off : Nat), s.target = .ecc c u off → c < 256 → s.cores.length = 256 → u ≠ .control →
     (sharedRoom (s.core c) → exec .singleBitError s = .next { s with
       fresh := s.fresh + 1
       cores := s.cores.set c { s.core c with events := (s.core c).events ++ [errorRecord 8 u off] } }) ∧
     (¬ sharedRoom (s.core c) → s.trust.paused = false → exec .singleBitError s = .next { s with telemetry := { s.telemetry with
       dropped := s.telemetry.dropped + 1 } }) ∧
     (¬ sharedRoom (s.core c) → s.trust.paused = true → exec .singleBitError s = .next s) ∧
     (off < structureSize u →
       (u ≠ .registerFile → exec .uncorrectableError s = .next { s with
         cores := s.cores.set c (noted (poisoned (s.core c) u off) (errorRecord 9 u off)) }) ∧
       (u = .registerFile → exec .uncorrectableError s = .next { s with
         cores := s.cores.set c (noted (s.core c) (errorRecord 9 u off))
         waves := s.waves.map (fun w =>
           if w.place.core = c ∧ w.place.num = off / 2 ^ 18 ∧ w.run.evicted = false ∧ w.run.status ≠ .retiring ∧
             w.run.status ≠ .gone then { w with poison := w.poison.add (32 * (off % 2 ^ 18 / 128) + off % 128 / 4) }
           else w) }))) ∧
   (∀ (s : State) (c : Nat), s.target = .core c → c < 256 → s.cores.length = 256 → (s.core c).fenced = false →
     (∀ k ∈ s.cores, k.running = none) →
     let fencedOnly : State := { s with cores := s.cores.set c { s.core c with fenced := true } }
     ((∀ w ∈ s.waves, w.place.core ≠ c) → exec .machineCheck s = .next fencedOnly) ∧
     (∀ w, s.waves = [w] → w.place.core = c → w.run.status = .running → w.run.evicted = false → w.tx = none →
       w.slotA.valid = true → w.run.lastSlotB = false →
       exec .machineCheck s = .next (takeTrap fencedOnly 0 { cause := .machineCheck } false w.slotA.pc 0 false true))) ∧
   (∀ (s : State) (n : Nat) (f : ScrubResult), s.target = .line n f → n < 2 ^ 33 →
     exec .patrolScrub s = .next (if f = .uncorrectable then { s with mem := { s.mem with poison := s.mem.poison.add n } }
       else s)) ∧
   (∀ (s : State) (st ch : Nat), s.target = .channel st ch → st < 16 → ch < 384 → (st, ch) ∉ s.telemetry.channels →
     (s.telemetry.channels.filter (fun e => e.1 = st)).length < 16 →
     (s.trust.paused = true → exec .pseudoChannelSparing s = .refused .notEnabled) ∧
     (s.trust.paused = false → ∃ t, exec .pseudoChannelSparing s = .next t ∧
       t = { s with telemetry := { s.telemetry with channels := s.telemetry.channels ++ [(st, ch)] } } ∧
       ∀ pa, spareServes t pa = true ↔ spareServes s pa = true ∨ (pa / 2 ^ 36 % 16 = st ∧ channelOf pa = ch))) ∧
   (∀ (s : State) (d : Nat), s.target = .die d → d < 4 → s.dies.length = 4 → 75 < (s.die d).clockMHz →
     exec .clockThrottle s = .next { s with dies := s.dies.set d { s.die d with clockMHz := (s.die d).clockMHz - 75 } })) ∧
  ((∀ (s : State) (die pair : Nat), die < 4 → pair < 32 → s.dies.length = 4 → s.trust.paused = false →
     (s.core (64 * die + 2 * pair)).draining = false →
     ((s.core (64 * die + 2 * pair)).fenced = true ∨ (s.core (64 * die + 2 * pair + 1)).fenced = true) →
     { name := .corePairRetirement, target := .pair die pair } ∈ candidates s) ∧
   (∀ (s : State) (die pair a : Nat), s.target = .pair die pair → die < 4 → pair < 32 → a = 64 * die + 2 * pair →
     s.cores.length = 256 → s.dies.length = 4 → s.trust.paused = false →
     (s.core a).fenced = false → (s.core (a + 1)).fenced = false →
     ((s.core a).draining = false → ∃ t, exec .corePairRetirement s = .next t ∧
       (t.core a).draining = true ∧ (t.core (a + 1)).draining = true ∧
       (∀ c < 256, c ≠ a → c ≠ a + 1 → t.core c = s.core c) ∧
       ((∀ w ∈ s.waves, w.place.core ≠ a ∧ w.place.core ≠ a + 1) → t.waves = s.waves ∧ t.mem = s.mem) ∧
       (∀ i w, s.wave i = some w → (w.place.core = a ∨ w.place.core = a + 1) → w.run.status = .running →
         w.run.evicted = false → w.run.evicting = false → s.waves.length = 1 →
         (∀ x, w.slotA.wait = some x ∨ w.slotB.wait = some x → x.kind.blocking = false) →
         t.waves = [{ w with run := { w.run with preempt := true } }])) ∧
     ((s.core a).draining = true → Empty s a → Empty s (a + 1) →
       (0 < (s.die die).sparePairs → exec .corePairRetirement s = .next { s with
         cores := (s.cores.set a (spareOf (s.core a))).set (a + 1) (spareOf (s.core (a + 1)))
         dies := s.dies.set die { s.die die with sparePairs := (s.die die).sparePairs - 1 } }) ∧
       ((s.die die).sparePairs = 0 → exec .corePairRetirement s = .next { s with
         cores := (s.cores.set a { s.core a with fenced := true }).set (a + 1) { s.core (a + 1) with fenced := true } }))))

end

namespace Sys2Proof.Claims

open Sys2Proof Sys2Proof.Machine

/-! ### Dispatch and launches (R178, R182-R186, R388-R392, R396, R400, R424, R425) -/

/-- Partition k of a core takes a task of so many units (R183). -/
def partFits (r : Room) (units k : Nat) : Prop := ∃ e, r.parts[k]? = some e ∧ e.1 < 16 ∧ e.2 + units ≤ 32

/-- A run of `len` bytes from b that no window meets (R183). -/
def freeRun (r : Room) (b len : Nat) : Prop :=
  b % 4096 = 0 ∧ b + len ≤ 2 ^ 19 ∧ ∀ w ∈ r.windows, w.2 = 0 ∨ b + len ≤ w.1 ∨ w.1 + w.2 ≤ b

/-- A task that keeps no window fits a core (R183). -/
def FitsCore (r : Room) (a : Ask) : Prop :=
  r.usable = true ∧ (∃ k, partFits r a.units k) ∧ (a.scratch = 0 ∨ ∃ b, freeRun r b a.scratch) ∧
    r.frames + a.frames ≤ 32 ∧ r.edges + a.edges ≤ 8

/-- Where it goes there (R184): the partition with the fewest waves, the lowest base, the lowest wave number. -/
structure Goes (r : Room) (a : Ask) (p : Spot) : Prop where
  part : partFits r a.units p.part
  fewest : ∀ k, partFits r a.units k →
    (r.parts.getD p.part (0, 0)).1 < (r.parts.getD k (0, 0)).1 ∨
      ((r.parts.getD p.part (0, 0)).1 = (r.parts.getD k (0, 0)).1 ∧ p.part ≤ k)
  base : a.scratch ≠ 0 → freeRun r p.base a.scratch ∧ ∀ b, freeRun r b a.scratch → p.base ≤ b
  num : (∃ n < 64, n ∉ r.nums) → p.num ∉ r.nums ∧ ∀ n < p.num, n ∈ r.nums

/-- Nothing but the record t of die d asks for a place: no wave and no pipeline, and the rest of the machine is idle. -/
structure OneRecord (s : State) (d : Nat) (t : Task) : Prop where
  target : s.target = .die d
  inRange : d < 4 ∧ s.dies.length = 4 ∧ s.cores.length = 256
  queue : (s.die d).queue = [t] ∧ (s.die d).pipes = []
  ready : t.isReady = true ∧ t.home.getLsbD 62 = false ∧ t.reserving = [] ∧ t.passed < 64 ∧ t.near = none
  waves : s.waves = []
  foot : (footprint t.foot).bad = false
  still : ∀ c ∈ s.ctxs, c.live = false ∨ (c.descAddr = 0 ∧ s.dev.ctxEn = false)

/-- A wave as it starts (R44, R178, R182, R184). -/
structure Starts (s : State) (c : Nat) (entry args home : W64) (foot : Footprint) (launch : W32) (depth : Nat)
    (stage : Option StageId) (y : Wave) : Prop where
  place : y.place.core = c ∧ y.place.cluster = c / 8 ∧ y.place.part = 0 ∧ y.place.num = 0 ∧ y.place.scratchBase = 0 ∧
    y.place.scratchLen = 4096 * foot.scratch ∧ y.place.regs = 64 * foot.units ∧ y.place.depth = depth ∧ y.place.stage = stage
  frames : ∀ k < 32, (y.place.frameMap.getD k none).isSome = decide (k < foot.frames)
  edges : ∀ k < 8, (y.place.edgeMap.getD k none).isSome = decide (k < foot.edges)
  slots : y.slotA = Slot.running entry (BitVec.allOnes 32) none ∧ y.slotB = {} ∧ y.exited = 0 ∧ y.stack = []
  scalars : ∀ k < 64, y.getS k = if k = 1 then args else if k = 2 then home else 0
  others : y.v = [] ∧ y.m = [] ∧ y.tokens = [] ∧ y.windows = [] ∧ y.tx = none
  system : y.sys = { ({} : SysRegs) with
    priv := BitVec.ofNat 64 ((Config.privatePage s.ticket).toNat * 4096)
    launch := launch }

/-- Nothing of the launch is left but pipelines whose queues are closed and empty (R396). -/
structure Drained (s : State) (c : Nat) (l : W32) : Prop where
  waves : ∀ w ∈ s.waves, w.place.ctx ≠ c ∨ w.sys.launch ≠ l ∨ w.run.status = .gone
  records : ∀ d ∈ s.dies, ∀ t ∈ d.queue, t.ctx ≠ c ∨ t.launch ≠ l
  pipes : ∀ d ∈ s.dies, ∀ p ∈ d.pipes, p.ctx = c → p.launch = l → ∀ q ∈ p.queues, q.closed = true ∧ q.head = q.tail

/-- The port of context c with other contents. -/
def withPort (s : State) (c : Nat) (f : Port → Port) : State :=
  { s with ctxs := s.ctxs.set c { s.ctx c with port := f (s.ctx c).port } }

end Sys2Proof.Claims

section
open Sys2Proof Sys2Proof.Machine Sys2Proof.Claims

/-- R183, R184, R390: a core takes a task when a partition, a free run of scratchpad, frames and edges allow it; the task goes to
the partition with the fewest waves at the lowest base with the lowest free number; of the cores of a cluster the one with the
fewest waves takes it, the lowest on a tie.

R44, R178, R182, R184, R186, R390, R391, R400: a dispatch round starts a ready record's task on the first core that fits, with
the registers that R44 gives; it starts a task of an eligible stage and counts it; an evicted wave whose condition holds
comes back with its registers. A record passed 64 times reserves the core of its first cluster with the most free units. -/
def Obligations.DispatchEvents : Prop :=
  ((∀ (r : Room) (a : Ask), a.window = none → a.scratch % 4096 = 0 → a.scratch ≤ 2 ^ 19 →
     ((r.place a).isSome = true ↔ FitsCore r a) ∧
     (∀ p r', r.place a = some (p, r') → Goes r a p ∧ r'.frames = r.frames + a.frames ∧ r'.edges = r.edges + a.edges ∧
       r'.nums = r.nums ++ [p.num])) ∧
   (∀ (s : State) (cores : List Nat) (a : Ask), a.window = none → a.scratch % 4096 = 0 → a.scratch ≤ 2 ^ 19 →
     cores.Pairwise (· < ·) →
     let waves (c : Nat) : Nat := (roomOf s c).waves
     (chooseCore s cores a = none → ∀ c ∈ cores, ¬ FitsCore (roomOf s c) a) ∧
     (∀ c p, chooseCore s cores a = some (c, p) → c ∈ cores ∧ FitsCore (roomOf s c) a ∧ Goes (roomOf s c) a p ∧
       ∀ k ∈ cores, FitsCore (roomOf s k) a → waves c < waves k ∨ (waves c = waves k ∧ c ≤ k)))) ∧
  ((∀ (s : State) (d : Nat) (t : Task) (c : Nat), OneRecord s d t → 64 * d ≤ c → c < 64 * d + 64 →
     (s.core c).fenced = false → (s.core c).draining = false →
     (∀ k, 64 * d ≤ k → k < c → (s.core k).fenced = true ∨ (s.core k).draining = true) →
     ∃ u y, exec .dispatchRound s = .next u ∧ u.waves = [y] ∧ (u.die d).queue = [] ∧ y.place.ctx = t.ctx ∧
       Starts { s with ticket := s.ticket + 1 } c t.entry t.args (BitVec.ofNat 64 (t.home.toNat % 2 ^ 56)) (footprint t.foot)
         t.launch t.depth none y) ∧
   (∀ (s : State) (d : Nat) (p : Pipe) (q : PipeQueue) (c : Nat), s.target = .die d → d < 4 → s.dies.length = 4 →
     s.cores.length = 256 → c = 64 * d → (s.die d).queue = [] → (s.die d).pipes = [p] → p.queues = [q] → p.near = none →
     s.waves = [] → (∀ k ∈ s.ctxs, k.live = false ∨ (k.descAddr = 0 ∧ s.dev.ctxEn = false)) → (footprint q.foot).bad = false →
     (s.core c).fenced = false → (s.core c).draining = false → q.head ≠ q.tail → q.head < 2 ^ 32 → q.tail < 2 ^ 32 →
     q.live = 0 → q.maxt = 1 → ∃ u y, exec .dispatchRound s = .next u ∧ u.waves = [y] ∧ y.place.ctx = p.ctx ∧
       (u.die d).pipes = [{ p with queues := [{ q with live := 1 }] }] ∧
       Starts { s with ticket := s.ticket + 1 } c q.entry q.args p.home (footprint q.foot) p.launch p.depth
         (some { die := d, pipe := p.number, stage := 0 }) y) ∧
   (∀ (s : State) (d : Nat) (w : Wave), s.target = .die d → d < 4 → s.dies.length = 4 → s.cores.length = 256 →
     s.clusters.length = 32 → s.waves = [w] → w.place.core < 256 → w.place.core / 64 = d →
     w.place.cluster = w.place.core / 8 → Quiescent s 0 w → (s.die d).queue = [] → (s.die d).pipes = [] →
     (∀ k ∈ s.ctxs, k.live = false ∨ (k.descAddr = 0 ∧ s.dev.ctxEn = false)) → w.run.status = .running →
     w.run.evicted = true → w.run.wakeStored = true →
     (w.run.wake = none ∨ ∃ m, w.run.wake = some (.tokens m) ∧ allClear w m) →
     (s.core w.place.core).fenced = false → (s.core w.place.core).draining = false →
     (w.run.windowKept = false → w.place.core % 8 = 0) →
     w.place.regs ≤ 2048 → w.place.scratchLen % 4096 = 0 → w.place.scratchLen ≤ 2 ^ 19 → w.saved = {} →
     ∃ u y, exec .dispatchRound s = .next u ∧ u.waves = [y] ∧ y.run.evicted = false ∧ y.run.wake = none ∧
       y.place.core = w.place.core ∧ (w.run.windowKept = true → y.place.scratchBase = w.place.scratchBase) ∧
       y.s = w.s ∧ y.m = w.m ∧ y.v = w.v ∧ y.slotA = w.slotA ∧ y.slotB = w.slotB ∧ y.stack = w.stack ∧ y.sys = w.sys) ∧
   (∀ (s : State) (d : Nat) (t : Task), s.target = .die d → d < 4 → s.dies.length = 4 → (s.die d).queue = [t] →
     t.isReady = true → t.home.getLsbD 62 = false → t.reserving = [] → 64 ≤ t.passed → t.near = none → ∃ c,
     exec .recordReserving s = .next { s with dies := s.dies.set d { s.die d with queue := [{ t with reserving := [c] }] } } ∧
     64 * d ≤ c ∧ c < 64 * d + 8 ∧ ∀ k, 64 * d ≤ k → k < 64 * d + 8 →
       (roomOf s k).freeUnits < (roomOf s c).freeUnits ∨
         ((roomOf s k).freeUnits = (roomOf s c).freeUnits ∧ c ≤ k)))

/-- R396, R424, R425: a drained launch is unregistered with its pipelines, and its record goes to the interrupt ring; the
interrupt goes out at once without coalescing, else when the pending count is reached or the window expires. A DOORBELL write
queues the record with DEPTH 0, or refuses it with the cause. -/
def Obligations.LaunchEvents : Prop :=
  (∀ (s : State) (c : Nat) (l : W32) (x : LaunchRec), s.target = .launch c l → c < s.ctxs.length →
    (s.ctx c).launches.find? (fun y => y.launch = l) = some x → Drained s c l →
    let p := (s.ctx c).port
    (p.window ≠ 0 → p.pending ≤ p.count) → ∃ t, exec .launchDrain s = .next t ∧ t.waves = s.waves ∧
      (t.ctx c).launches = (s.ctx c).launches.filter (fun y => y.launch ≠ l) ∧
      t.dies = s.dies.map (fun d => { d with pipes := d.pipes.filter (fun q => ¬ (q.ctx = c ∧ q.launch = l)) }) ∧
      (t.ctx c).port.intTail = p.intTail + 1 ∧
      ((p.intRing = 0 ∨ ∀ k, 4 ≤ k → k ≤ 11 → p.intSize ≠ 2 ^ k) →
        t.interrupts = s.interrupts ∧ (t.ctx c).port.pending = p.pending ∧
        ((∀ d ∈ s.dies, d.pipes = []) → t.mem = s.mem)) ∧
      (p.intRing ≠ 0 → (∃ k, 4 ≤ k ∧ k ≤ 11 ∧ p.intSize = 2 ^ k) →
        let pa := p.intRing.toNat + 16 * (p.intTail.toNat % p.intSize)
        (p.window = 0 → t.interrupts = s.interrupts ++ [p.intVec] ∧ (t.ctx c).port.pending = 0) ∧
        (p.window ≠ 0 → t.interrupts = s.interrupts ∧ (t.ctx c).port.pending = p.pending + 1) ∧
        ((∀ d ∈ s.dies, d.pipes = []) →
          (t.mem = s.mem.writeN pa (leBytes 8 (l.toNat + if x.killed = true then 2 ^ 32 else 0) ++ leBytes 8 0) ∧
            t.telemetry = s.telemetry) ∨
          (isHost pa = true ∧ t.mem = s.mem ∧ t.telemetry = { s.telemetry with
            hostLinkErrors := s.telemetry.hostLinkErrors + 1 })))) ∧
  (∀ (s : State) (c : Nat), s.target = .ctx c → c < s.ctxs.length → (s.ctx c).port.window ≠ 0 →
    let sent : State := withPort { s with interrupts := s.interrupts ++ [(s.ctx c).port.intVec] } c
      (fun p => { p with pending := 0 })
    ((s.ctx c).port.count + 1 ≤ (s.ctx c).port.pending → exec .interruptCountReached s = .next sent) ∧
    ((s.ctx c).port.pending ≠ 0 → exec .interruptWindowExpiry s = .next sent)) ∧
  (∀ (s : State) (c : Nat), s.target = .ctx c → c < s.ctxs.length →
    let b := Cells.slice 0 (s.ctx c).port.record 0 64
    let g : Agent :=
      { ctx := c
        user := decide (c ≠ 0)
        core := none
        wave := none }
    let outcome (refused : Bool) (cause : Nat) (p : Port) : Port :=
      { p with
        refused := refused
        refCause := cause }
    ((s.ctx c).live = false → exec .doorbell s = .next s) ∧
    ((s.ctx c).live = true →
      (∀ r, settleRaises (recordRaises s g 1 b) = some r →
        exec .doorbell s = .next (withPort s c (outcome true r.cause.code))) ∧
      (recordRaises s g 1 b = [] →
        let home := homeOf s c (fieldAt b 0x10 8 % 2 ^ 56) 0
        (4096 ≤ (s.die home.1).queue.length → exec .doorbell s = .next (withPort s c (outcome true 0))) ∧
        ((s.die home.1).queue.length < 4096 → home.1 < s.dies.length → ∃ t x, exec .doorbell s = .next t ∧
          t.mem = s.mem ∧ t.waves = s.waves ∧ (t.die home.1).queue = (s.die home.1).queue ++ [x] ∧
          (t.ctx c).port = outcome false 0 (s.ctx c).port ∧
          x.entry = BitVec.ofNat 64 (fieldAt b 0 8) ∧ x.args = BitVec.ofNat 64 (fieldAt b 8 8) ∧
          x.launch = BitVec.ofNat 32 (fieldAt b 0x1C 4) ∧ x.ctx = c ∧ x.depth = 0 ∧ x.number = s.ticket))))

end

namespace Sys2Proof.Claims

open Sys2Proof Sys2Proof.Machine

/-! ### The host, contexts, the mailbox and the boot sequence (R423, R427, R429, R433, R435, R439-R441) -/

/-- What a live descriptor says of a context (R427). -/
structure Describes (b : List Byte) (x : Context) : Prop where
  live : x.live = true
  table : x.root = BitVec.ofNat 64 (fieldAt b 0 8) ∧ x.asid = BitVec.ofNat 64 (fieldAt b 8 8 % 2 ^ 16) ∧
    x.forkPool = BitVec.ofNat 64 (fieldAt b 0x10 8)
  traps : x.trapQ = BitVec.ofNat 64 (fieldAt b 0x18 8) ∧ x.trapQN = fieldAt b 0x20 4
  soft : x.waitThr = fieldAt b 0x24 4 ∧ x.compat = decide (fieldAt b 0x28 8 % 2 = 1) ∧
    x.ckdir = (List.range 8).map (fun m => BitVec.ofNat 64 (fieldAt b (0x40 + 8 * m) 8 % 2 ^ 56))

/-- Something of context c remains (R429). -/
def Remains (s : State) (c : Nat) : Prop :=
  (∃ w ∈ s.waves, w.place.ctx = c ∧ w.run.status ≠ .gone) ∨ (∃ d ∈ s.dies, ∃ t ∈ d.queue, t.ctx = c) ∨
    (∃ d ∈ s.dies, ∃ p ∈ d.pipes, p.ctx = c) ∨ (∃ x ∈ s.fabric.colls, x.ctx = c ∧ x.finished = false) ∨
    (s.ctx c).windows ≠ []

/-- The last CTXCTL command was refused, or was not (R429). -/
def refusedIs (s : State) (b : Bool) : State := { s with dev := { s.dev with ctxRef := b } }

/-- The groups of context c have waves of that context alone. -/
def OwnGroups (s : State) (c : Nat) : Prop :=
  ∀ k ∈ s.clusters, ∀ g ∈ k.groups, g.ctx = c → ∀ m ∈ g.members, ∀ w, s.wave m.wave = some w → w.place.ctx = c

/-- Register fields within the widths that R423 and R429 give them. -/
structure FieldsFit (s : State) : Prop where
  table : s.dev.ctxBase.toNat % 4096 = 0
  reply : s.dev.mbReply < 2 ^ 16 ∧ s.dev.mbResult < 2 ^ 8
  port : ∀ x ∈ s.ctxs, x.port.refCause < 2 ^ 8 ∧ x.port.window < 2 ^ 32 ∧ x.port.count < 2 ^ 6 ∧ x.port.intSize < 2 ^ 12

/-- The device registers that a host reads other than 0 (R429). -/
def deviceValues (s : State) : List (Nat × Nat) :=
  [(0x000, Config.deviceId.toNat), (0x008, s.dev.ctxBase.toNat + s.dev.ctxEn.toNat), (0x018, s.dev.ctxRef.toNat),
    (0x108, s.dev.mbReply * 2 ^ 16 + s.dev.mbResult * 2 ^ 8 + s.dev.mbBusy.toNat)] ++
  (List.range 64).map (fun k => (0x200 + 8 * k, leNat (Cells.slice 0 s.dev.mbData (8 * k) 8)))
/-- The registers of a launch port that a host reads other than 0 (R423). -/
def portValues (p : Port) : List (Nat × Nat) :=
  [(0x48, p.refCause * 2 ^ 16 + p.refused.toNat), (0x50, p.window * 2 ^ 16 + p.count), (0x58, p.intRing.toNat),
    (0x60, p.intSize * 2 ^ 32 + p.intVec.toNat), (0x68, p.intTail.toNat)]

/-- The payload of a mailbox command: its first MBLEN bytes, and zeros. -/
def payloadOf (s : State) : List Byte :=
  (List.range 512).map (fun k => if k < s.dev.mbLen then Cells.get 0 s.dev.mbData k else 0)

/-- The mailbox commands with their codes and the payload ranges that they list; BINDJOB binds or unbinds by its third field. -/
def commands : List (Instr × Nat × List (Nat × Nat)) :=
  [(.setnode, 1, [(0, 2)]), (.setroute, 2, [(0, 2), (4, 4)]), (.bindjobBind, 3, [(0, 1), (2, 2), (4, 4)]),
    (.bindjobUnbind, 3, [(0, 1), (2, 2), (4, 4)]), (.windowExport, 4, [(0, 2), (8, 32)]), (.windowUnexport, 5, [(0, 2)]),
    (.extendmr, 0x10, [(0, 1), (8, 32)]), (.attest, 0x11, [(0, 32)]), (.readport, 0x12, [(0, 1)]),
    (.fwstage, 0x20, [(0, 1), (8, 16)]), (.fwactivate, 0x21, [(0, 1)]), (.raisesvn, 0x22, [(0, 1), (4, 4), (8, 64)])]

/-- Command `e` runs in the mailbox with payload b. -/
structure InMailbox (s : State) (e : Instr × Nat × List (Nat × Nat)) (b : List Byte) : Prop where
  known : e ∈ commands
  busy : s.dev.mbBusy = true ∧ s.dev.mbCmd = e.2.1
  payload : b = payloadOf s
  form : (e.1 = .bindjobBind → fieldAt b 4 4 ≠ 0) ∧ (e.1 = .bindjobUnbind → fieldAt b 4 4 = 0)

/-- A byte that the command does not list is not 0, or the length is out of range. -/
def badPayload (s : State) (e : Instr × Nat × List (Nat × Nat)) (b : List Byte) : Prop :=
  512 < s.dev.mbLen ∨ ∃ k < 512, b.getD k 0 ≠ 0 ∧ ∀ r ∈ e.2.2, ¬ (r.1 ≤ k ∧ k < r.1 + r.2)

/-- The command that runs in recovery (R429). -/
def inRecovery (e : Instr × Nat × List (Nat × Nat)) (b : List Byte) : Prop :=
  e.1 = .attest ∨ e.1 = .readport ∨ ((e.1 = .fwstage ∨ e.1 = .fwactivate) ∧ fieldAt b 0 1 = 1)

/-- The end of a command: its result, its reply, and the state that it leaves. -/
def ended (t : State) (result : Nat) (reply : List Byte) : Out :=
  .next { t with dev := { t.dev with
    mbBusy := false
    mbResult := result
    mbReply := reply.length
    mbData := if reply = [] then t.dev.mbData else Cells.fill 0 t.dev.mbData 0 reply } }

/-- A measurement register that takes a digest (R439). -/
def measured (s : State) (k : Nat) (digest : List Byte) : State :=
  { s with trust := { s.trust with mr := s.trust.mr.set k (sha256 (s.trust.mr.getD k [] ++ digest)) } }

/-- The image of a stage starts: it is measured, and its SVN is the stage's. -/
def started (s : State) (k : Nat) (digest : List Byte) (svn : BitVec 32) : State :=
  let m := measured s (k - 1) digest
  { m with trust := { m.trust with svn := m.trust.svn.set (k - 1) svn } }

/-- The root of trust holds 8 measurements, and SVNs of 5 stages. -/
def TrustForm (s : State) : Prop := s.trust.mr.length = 8 ∧ s.trust.svn.length = 5 ∧ s.trust.fused.length = 5

/-- The images of the stages from k on start in order; none if one of them may not. -/
def bootsFrom (s : State) : List Nat → State × Bool
  | [] => (s, true)
  | k :: rest =>
    if Config.bootImageOk k = true ∧ (s.trust.fused.getD (k - 1) 0).toNat ≤ (Config.bootImageSvn k).toNat then
      bootsFrom (started s k (Config.bootImageDigest k) (Config.bootImageSvn k)) rest
    else (s, false)

end Sys2Proof.Claims

section
open Sys2Proof Sys2Proof.Machine Sys2Proof.Claims

/-- R423, R427, R429, R433, R435: CTXCTL reads the descriptor and makes a context live, or retires one of which nothing remains,
else it is refused; KILL retires the context's waves with CONTEXT_KILLED; the host's writes and reads reach the device registers
and the launch ports as the tables list them; its accesses reach memory; in recovery only the mailbox answers. That a context
which is not live has nothing to retire is the model's reading (log 72). -/
def Obligations.HostEvents : Prop :=
  (∀ (s : State), s.trust.recovery = true →
    (∀ c, s.target = .ctx c → c < 256 → ∀ i ∈ [Instr.ctxctlLive, .ctxctlRetire, .doorbell], exec i s = .next s) ∧
    (∀ c v, s.target = .ctxValue c v → exec .kill s = .next s) ∧
    (∀ off n x, s.target = .register off n x → n ∈ [1, 2, 4, 8] → off % n = 0 → (off < 0x100 ∨ 0x400 ≤ off) →
      exec .registerWrite s = .next s) ∧
    (∀ pa n x, s.target = .memory pa n true x → n ∈ [1, 2, 4, 8] → pa % n = 0 → inMap pa = true →
      exec .hostAccess s = .next s) ∧
    (∀ off, off % 8 = 0 → (off < 0x100 ∨ 0x400 ≤ off) → registerRead s off 8 = 0)) ∧
  (∀ (s : State) (off n : Nat), n ∈ [1, 2, 4, 8] → off % n = 0 →
    registerRead s off n = registerRead s (off / 8 * 8) 8 / 2 ^ (8 * (off % 8)) % 2 ^ (8 * n)) ∧
  (∀ (s : State), s.trust.recovery = false → FieldsFit s → s.ctxs.length = 256 →
    (∀ off, off % 8 = 0 → off < 0x1000 → registerRead s off 8 = ((deviceValues s).lookup off).getD 0) ∧
    (∀ c off, c < 256 → off % 8 = 0 → off < 0x1000 → registerRead s (0x100000 + 0x1000 * c + off) 8 =
      if (s.ctx c).live = true then ((portValues (s.ctx c).port).lookup off).getD 0 else 0) ∧
    (∀ off, off % 8 = 0 → 0x1000 ≤ off → (off < 0x100000 ∨ 0x200000 ≤ off) → registerRead s off 8 = 0)) ∧
  (∀ (s : State) (c : Nat), s.target = .ctx c → c < 256 → s.ctxs.length = 256 → s.trust.recovery = false →
    let b := s.mem.readN (s.dev.ctxBase.toNat / 4096 * 4096 + 128 * c) 128
    ((s.dev.ctxEn = false ∨ (s.ctx c).live = true) → exec .ctxctlLive s = .next (refusedIs s true)) ∧
    (s.dev.ctxEn = true → (s.ctx c).live = false → ∃ x, exec .ctxctlLive s =
      .next (refusedIs { s with ctxs := s.ctxs.set c x } false) ∧ Describes b x ∧ x.job = (s.ctx c).job ∧
      x.windows = [] ∧ x.launches = [] ∧ x.port = {}) ∧
    (Remains s c → exec .ctxctlRetire s = .next (refusedIs s true)) ∧
    (¬ Remains s c → exec .ctxctlRetire s = .next (refusedIs { s with
      ctxs := s.ctxs.set c (if (s.ctx c).live = true then {} else s.ctx c)
      fabric := { s.fabric with colls := s.fabric.colls.filter (fun x => x.ctx ≠ c) } } false))) ∧
  (∀ (s : State) (c : Nat) (v : BitVec 8), s.target = .ctxValue c v → c < s.ctxs.length →
    s.trust.recovery = false → OwnGroups s c →
    (((s.ctx c).live = false ∨ v.getLsbD 0 = false) → exec .kill s = .next s) ∧
    ((s.ctx c).live = true → v.getLsbD 0 = true → (∀ x ∈ s.fabric.colls, x.ctx ≠ c) → ∃ t, exec .kill s = .next t ∧
      (t.ctx c).windows = [] ∧ (t.ctx c).trapHeld = [] ∧
      (t.ctx c).launches = (s.ctx c).launches.map (fun l => { l with killed := true }) ∧
      (∀ d ∈ t.dies, ∀ x ∈ d.queue, x.ctx ≠ c) ∧ t.waves.length = s.waves.length ∧
      ∀ i w, s.wave i = some w → ∃ y, t.wave i = some y ∧
        (w.place.ctx = c → w.run.status ≠ .retiring → w.run.status ≠ .gone →
          y.run.status = .retiring ∧ y.run.killed = true ∧ y.slotA = {} ∧ y.slotB = {} ∧ y.tx = none) ∧
        (w.place.ctx ≠ c → y = w))) ∧
  (∀ (s : State) (off n : Nat) (x : W64), s.target = .register off n x → s.trust.recovery = false → s.ctxs.length = 256 →
    let answer (t : State) : Prop := exec .registerWrite s = .next t
    (off = 0x008 → n = 8 → (s.ctx 0).live = false → s.dev.ctxEn = false → answer { s with dev := { s.dev with
      ctxBase := BitVec.ofNat 64 (x.toNat % 2 ^ 52 / 4096 * 4096)
      ctxEn := decide (x.toNat % 2 = 1) } }) ∧
    (off = 0x008 → n = 8 → (s.ctx 0).live = false → s.dev.ctxEn = true → answer { s with dev := { s.dev with
      ctxEn := decide (x.toNat % 2 = 1) } }) ∧
    (off = 0x010 → n = 8 → ∃ t, answer t ∧ exec (if x.getLsbD 8 then .ctxctlLive else .ctxctlRetire)
      { s with target := .ctx (x.toNat % 256) } = .next { t with target := .ctx (x.toNat % 256) }) ∧
    (off = 0x018 → n = 8 → x.getLsbD 0 = true → answer (refusedIs s false)) ∧
    (off = 0x100 → n = 8 → s.dev.mbBusy = false →
      let known := ∃ e ∈ commands, e.2.1 = x.toNat % 2 ^ 16
      (known → answer { s with dev := { s.dev with
        mbCmd := x.toNat % 2 ^ 16
        mbLen := x.toNat / 2 ^ 16 % 2 ^ 16
        mbBusy := true } }) ∧
      (¬ known → answer { s with dev := { s.dev with
        mbCmd := x.toNat % 2 ^ 16
        mbLen := x.toNat / 2 ^ 16 % 2 ^ 16
        mbBusy := false
        mbResult := 1
        mbReply := 0 } })) ∧
    (off = 0x102 → n = 2 → s.dev.mbBusy = false → answer { s with dev := { s.dev with mbLen := x.toNat % 2 ^ 16 } }) ∧
    (0x200 ≤ off → off + n ≤ 0x400 → n = 8 → off % 8 = 0 → s.dev.mbBusy = false → answer { s with dev := { s.dev with
      mbData := Cells.fill 0 s.dev.mbData (off - 0x200) (leBytes 8 x.toNat) } }) ∧
    (∀ c, c < 256 → n = 8 → (s.ctx c).live = true →
      let at_ (k : Nat) : Prop := off = 0x100000 + 0x1000 * c + k
      (∀ k < 8, at_ (8 * k) → answer (withPort s c (fun p =>
        { p with record := Cells.fill 0 p.record (8 * k) (leBytes 8 x.toNat) }))) ∧
      (at_ 0x40 → ∃ t, answer t ∧
        exec .doorbell { s with target := .ctx c } = .next { t with target := .ctx c }) ∧
      (at_ 0x48 → x.getLsbD 0 = true → answer (withPort s c (fun p => { p with
        refused := false
        refCause := 0 }))) ∧
      (at_ 0x50 → answer (withPort s c (fun p => { p with
        window := x.toNat / 2 ^ 16 % 2 ^ 32
        count := x.toNat % 2 ^ 6 }))) ∧
      (at_ 0x58 → answer (withPort s c (fun p => { p with intRing := x }))) ∧
      (at_ 0x60 → answer (withPort s c (fun p => { p with
        intSize := x.toNat / 2 ^ 32 % 2 ^ 12
        intVec := BitVec.ofNat 32 x.toNat }))) ∧
      (at_ 0x70 → ∃ t, answer t ∧ exec .kill { s with target := .ctxValue c (BitVec.ofNat 8 x.toNat) } =
        .next { t with target := .ctxValue c (BitVec.ofNat 8 x.toNat) }))) ∧
  (∀ (s : State) (pa n : Nat) (x : W64), s.target = .memory pa n true x → n ∈ [1, 2, 4, 8] → pa % n = 0 → inMap pa = true →
    s.trust.recovery = false →
    exec .hostAccess s = .next { s with mem := s.mem.writeN pa (leBytes n x.toNat) } ∧
    exec .hostAccess { s with target := .memory pa n false x } = .next { s with target := .memory pa n false x })

/-- R429, R439 to R441, R447, R448, R450: the mailbox runs a command: in recovery every other command ends with 3, a payload
byte that is not listed with 2; else the command has its effect and ends with 0. An update of the Theique begins a pause first.
The boot sequence starts the images of five stages in order and makes context 0 live, or stays in recovery. That the pause and
the new image are two steps is the model's choice (log 74). -/
def Obligations.MailboxAndBoot : Prop :=
  (∀ (s : State) (e : Instr × Nat × List (Nat × Nat)) (b : List Byte), InMailbox s e b → TrustForm s → s.ctxs.length = 256 →
    (s.trust.recovery = true → ¬ inRecovery e b → exec e.1 s = ended s 3 []) ∧
    ((s.trust.recovery = false ∨ inRecovery e b) → badPayload s e b → exec e.1 s = ended s 2 []) ∧
    ((s.trust.recovery = false ∨ inRecovery e b) → ¬ badPayload s e b →
      let c := fieldAt b 0 1
      let n := fieldAt b 0 2
      let job := BitVec.ofNat 16 (fieldAt b 2 2)
      let bound := (∃ x ∈ s.ctxs, x.job = some job) ∨ (s.ctx c).job ≠ none
      let x : FabWindow :=
        { num := fieldAt b 1 1
          base := BitVec.ofNat 64 (fieldAt b 8 8)
          length := fieldAt b 0x10 8
          flags := fieldAt b 0x18 4 }
      let entryOk := x.base.toNat % 64 = 0 ∧ x.length % 64 = 0 ∧ x.length ≤ 2 ^ 44 ∧ x.flags < 8 ∧ fieldAt b 0x1C 12 = 0
      let image := s.mem.readN (fieldAt b 8 8) (fieldAt b 0x10 8)
      let minimum := (s.trust.fused.getD (c - 1) 0).toNat
      (e.1 = .setnode → exec e.1 s =
        if 0xFFE < n then ended s 2 [] else if ∃ y ∈ s.ctxs, y.job ≠ none then ended s 3 []
        else ended (withFabric s (fun f => { f with node := n })) 0 []) ∧
      (e.1 = .setroute → n ≤ 0xFFE → exec e.1 s =
        ended (withFabric s (fun f => { f with routes := Cells.set 0 f.routes n (fieldAt b 4 4) })) 0 []) ∧
      (e.1 = .bindjobBind → fieldAt b 4 4 = 1 → exec e.1 s =
        if s.fabric.node = 0xFFF ∨ bound then ended s 3 []
        else ended { s with ctxs := s.ctxs.set c { s.ctx c with job := some job } } 0 []) ∧
      (e.1 = .bindjobUnbind → (s.ctx c).job = some job → exec e.1 s =
        ended (withFabric { s with ctxs := s.ctxs.set c { s.ctx c with job := none } } (fun f => { f with
          latest := f.latest.filter (fun y => y.1 ≠ job)
          aborted := f.aborted.filter (fun y => y.1 ≠ job)
          early := f.early.filter (fun y => y.job ≠ job) })) 0 []) ∧
      (e.1 = .windowExport → entryOk → exec e.1 s =
        if (s.ctx c).live = false ∨ ∃ y ∈ (s.ctx c).windows, y.num = x.num then ended s 3 []
        else ended { s with ctxs := s.ctxs.set c { s.ctx c with windows := (s.ctx c).windows ++ [x] } } 0 []) ∧
      (e.1 = .windowUnexport → exec e.1 s = ended { s with ctxs := s.ctxs.set c { s.ctx c with
        windows := (s.ctx c).windows.filter (fun y => y.num ≠ x.num) } } 0 []) ∧
      (e.1 = .extendmr → exec e.1 s =
        if 5 ≤ c ∧ c ≤ 7 then ended (measured s c ((b.drop 8).take 32)) 0 [] else ended s 2 []) ∧
      (e.1 = .attest → ∃ sig, sig.length = 64 ∧ exec e.1 s = ended s 0
        (leBytes 8 1 ++ b.take 32 ++ s.trust.mr.flatten ++ leBytes 8 Config.deviceId.toNat ++
          s.trust.svn.flatMap (fun v => leBytes 4 v.toNat) ++ List.replicate 60 0 ++ sig)) ∧
      (e.1 = .readport → ∀ q, s.fabric.ports[c]? = some q → exec e.1 s = ended s 0 (leBytes 8
        (q.crcRetry * 2 ^ 24 + q.peerPort * 2 ^ 16 + q.peerNode * 16 + q.spared.toNat * 8 + q.width * 2 + q.up.toNat))) ∧
      (e.1 = .fwstage → 1 ≤ c → c ≤ 5 → fieldAt b 0x10 8 ≠ 0 → inMap (fieldAt b 8 8) = true →
        inMap (fieldAt b 8 8 + fieldAt b 0x10 8 - 1) = true → exec e.1 s =
        if Config.imageVerifies image = true ∧ minimum ≤ (Config.imageSvn image).toNat then
          ended { s with trust := { s.trust with staged := s.trust.staged.filter (fun y => y.1 ≠ c) ++ [(c, image)] } } 0 []
        else ended s 4 []) ∧
      (e.1 = .fwactivate → 1 ≤ c → c ≤ 5 → (∀ k ∈ s.clusters, k.owlPaused = false) →
        ((∀ y ∈ s.trust.staged, y.1 ≠ c) → exec e.1 s = ended s 3 []) ∧
        (∀ im, s.trust.staged.find? (fun y => y.1 = c) = some (c, im) → c ≠ 3 →
          let t := started s c (Config.imageDigest im) (Config.imageSvn im)
          (c = 1 → s.trust.paused = false → exec e.1 s = .next { s with trust := { s.trust with paused := true } }) ∧
          (c ≠ 1 ∨ s.trust.paused = true → exec e.1 s = ended { t with trust := { t.trust with
            staged := t.trust.staged.filter (fun y => y.1 ≠ c)
            paused := s.trust.paused && decide (c ≠ 1) } } 0 [])) ∧
        (∀ im, s.trust.staged.find? (fun y => y.1 = c) = some (c, im) → c = 3 → s.clusters.length = 32 → ∃ t,
          exec e.1 s = .next t ∧ t.dev.mbResult = 0 ∧ (t.cluster 0).owlPaused = true ∧
          t.trust.updating = (List.range 31).map (fun k => (k + 1, true)))) ∧
      (e.1 = .raisesvn → 1 ≤ c → c ≤ 5 →
        let digest := sha256 (b.take 8 ++ leBytes 8 Config.deviceId.toNat)
        exec e.1 s =
          if Config.firmwareKeySigns digest ((b.drop 8).take 64) = false then ended s 4 []
          else if fieldAt b 4 4 < minimum then ended s 3 []
          else ended { s with trust := { s.trust with
            fused := s.trust.fused.set (c - 1) (BitVec.ofNat 32 (fieldAt b 4 4)) } } 0 []))) ∧
  (∀ (s : State) (c : Nat), s.target = .cluster c → c < s.clusters.length → (s.cluster c).owlPaused = true →
    let going : State := { s with clusters := s.clusters.set c { s.cluster c with owlPaused := false } }
    (s.trust.updating = [] → exec .owlFirmwareReplaced s = .next going) ∧
    (∀ n u rest, s.trust.updating = (n, u) :: rest → n ≠ c → n < s.clusters.length → exec .owlFirmwareReplaced s =
      .next { going with
        clusters := going.clusters.set n { s.cluster n with owlPaused := true }
        trust := { s.trust with updating := rest } })) ∧
  (∀ (s : State), s.trust.booted = false → s.trust.recovery = false → TrustForm s → s.ctxs.length = 256 →
    let r := bootsFrom s [1, 2, 3, 4, 5]
    (r.2 = false → exec .resetBoot s = .next { r.1 with trust := { r.1.trust with recovery := true } }) ∧
    (r.2 = true → ∃ x, exec .resetBoot s = .next { r.1 with
      trust := { r.1.trust with booted := true }
      ctxs := s.ctxs.set 0 x } ∧ x.live = true ∧ x.root = Config.systemRoot))

end

namespace Sys2Proof.Claims

open Sys2Proof Sys2Proof.Machine

/-! ### Words, steps, reset and invariants -/

/-- The opcodes that are allocated in F3 and in FI, as ranges of the map (R72, R108). -/
def allocatedF3 : List (Nat × Nat) :=
  [(0x000, 0x001), (0x004, 0x015), (0x017, 0x021), (0x080, 0x080), (0x082, 0x099), (0x100, 0x11B), (0x180, 0x192),
    (0x200, 0x214), (0x216, 0x218), (0x280, 0x296), (0x300, 0x31E), (0x382, 0x384), (0x386, 0x386), (0x388, 0x38B)]
def allocatedFI : List (Nat × Nat) :=
  [(0x002, 0x003), (0x006, 0x006), (0x00A, 0x012), (0x016, 0x016), (0x019, 0x01A), (0x081, 0x084), (0x087, 0x088),
    (0x08A, 0x08F), (0x092, 0x092), (0x094, 0x095), (0x100, 0x102), (0x104, 0x106), (0x116, 0x116), (0x181, 0x182),
    (0x200, 0x207), (0x215, 0x215), (0x217, 0x218), (0x306, 0x307), (0x30D, 0x30D), (0x30F, 0x30F), (0x380, 0x383),
    (0x385, 0x385), (0x387, 0x387)]
def allocated (form opc : Nat) : Prop := ∃ r ∈ (if form = 0 then allocatedF3 else allocatedFI), r.1 ≤ opc ∧ opc ≤ r.2

/-- The form and the opcode of a word (R69 to R71). -/
def formOf (w : W64) : Nat := w.toNat / 2 ^ 62
def opcOf (w : W64) : Nat := w.toNat / 2 ^ 52 % 2 ^ 10

/-- A word that raises a cause instead of being an instruction. -/
def refuses (w : W64) (cause detail : Nat) : Except BadWord Instr :=
  .error
    { word := w
      cause := BitVec.ofNat 6 cause
      detail := BitVec.ofNat 8 detail
      pairY := false }

/-- The opcodes and register indices that user mode may not name (R45, R108, R110). -/
def privileged (w : W64) : Option Nat :=
  if formOf w ≠ 0 then none
  else if opcOf w ∈ [0x389, 0x38A, 0x38B] then some 1
  else if opcOf w = 0x017 ∧ 0x80 ≤ w.toNat / 2 ^ 21 % 2 ^ 8 then some 2
  else if opcOf w = 0x018 ∧ 0x80 ≤ w.toNat / 2 ^ 32 % 2 ^ 8 then some 2
  else none

/-- Words that the rules write out, with what they stand for. -/
def workedWords : List (W64 × Instr) :=
  let p : Pred := ⟨false, 0⟩
  [(0x0080_0005_00C0_1C02, .sdiv ⟨p, .i32, 5, 6, 7⟩), (0x8120_0005_0105_FFFF, .scmpI ⟨p, .i32, .eq, 5, 8, 0x1FFFF⟩),
    (0x0920_0202_0080_1400, .vcmp ⟨p, .i32, .lt, 2, 4, 5, 0, 0⟩), (0xB850_0009_FFE1_FFFD, .loop p 9 0xFFFFFFD),
    (0x1030_0006_0080_1C18, .vfma ⟨p, .f32, 6, 4, 7, 0, 1⟩), (0x1901_0014_0103_2800, .kvslot p 1 20 8 10 3),
    (0x38B0_0000_0080_1400, .tlbinv p 4 5), (0x3000_0000_0280_0001, .cpy ⟨p, 0, 0, 20, true, false⟩ false),
    (0x3151_000C_0280_0000, .tmerge p 1 12 20), (0xB0D0_0000_0004_0010, .gbarRowsI p 16),
    (0x3100_0000_03C0_0000, .spawn p 0 30), (0x3120_0006_0080_0800, .qpop p 0 6 2 4),
    (0x3180_0005_0280_5400, .swmig p 0 5 20 21), (0x31E0_0001_0280_5401, .xsig p 0 .fill 1 20 21),
    (0x1921_0028_0100_2800, .tokroute p 1 40 8 10), (0x4880_0C04_4F40_0806, .smaxPair)]

/-- The row that a word stands for: of the words that write WAKE, 0 and 1 in the low bits of the value have rows of their own
(R430). -/
def standsFor (w : Wave) (i : Instr) : Instr := match i with
  | .mtsr _ 0x81 a => if (w.getS a.toNat).toNat % 4 = 0 then .wakeResume
      else if (w.getS a.toNat).toNat % 4 = 1 then .wakeKill else i
  | _ => i

/-- A step runs an instruction: what the instruction answers, with what every step settles; but a word whose effect would abort
a serialised transaction of another wave waits for its turn (R220). -/
def Executes (v : State) (i : Instr) (o : Out) : Prop :=
  ((∀ t, exec i v = .next t → breaksSerial v t = false) → o = Machine.settled (exec i v)) ∧
  (∀ t, exec i v = .next t → breaksSerial v t = true → o = Machine.settled (.next (waitWord v v (.txTurn none))))

/-- Storage in its form: registers, scratchpads, tiles, frames and edges as canonical cells, and as many cores, clusters, dies,
contexts and ports as the package has (R1). -/
structure StorageOk (s : State) : Prop where
  waves : ∀ w ∈ s.waves, Cells.wf 0 w.v = true ∧ Cells.wf 0 w.s = true ∧ Cells.wf 0 w.m = true ∧
    Cells.wf 0 w.tokens = true ∧ w.place.frameMap.length = 32 ∧ w.place.edgeMap.length = 8
  cores : ∀ c ∈ s.cores, Cells.wf 0 c.scratch = true ∧ Cells.wf 0 c.store.tiles = true ∧ Cells.wf 0 c.store.strips = true ∧
    Cells.wf 0 c.store.tcr = true ∧ Cells.wf 0 c.store.frames = true ∧ Cells.wf 0 c.store.edges = true
  sizes : s.cores.length = 256 ∧ s.clusters.length = 32 ∧ s.dies.length = 4 ∧ s.ctxs.length = 256 ∧
    s.fabric.ports.length = 32
  trust : TrustForm s

end Sys2Proof.Claims

section
open Sys2Proof Sys2Proof.Machine Sys2Proof.Claims

/-- R110 to R112: a word of form 3 raises ILLEGAL_FORM, an opcode that the map leaves out ILLEGAL_OPCODE, a privileged word in
user mode PRIVILEGED; ILLEGAL_WORD takes the cause that decoding names, and nothing of the word stands. -/
def Obligations.IllegalWords : Prop :=
  (∀ (sys : Bool) (w : W64),
    (formOf w = 3 → decodeWord sys w = refuses w 1 0) ∧
    (formOf w = 0 → ¬ allocated 0 (opcOf w) → decodeWord sys w = refuses w 2 0) ∧
    (formOf w = 2 → ¬ allocated 2 (opcOf w) → decodeWord sys w = refuses w 2 1) ∧
    (∀ n, privileged w = some n → decodeWord false w = refuses w 7 n) ∧
    (formOf w ∈ [0, 2] → allocated (formOf w) (opcOf w) → ∀ d, decodeWord sys w ≠ refuses w 2 d) ∧
    (privileged w = none → decodeWord false w = decodeWord true w)) ∧
  (∀ (s : State) (w : Wave) (x : BadWord), Runs s w → decodeWord w.sysMode s.ir = .error x →
    exec .illegalWord s = traps s
      { cause := Causes.ofCode x.cause.toNat
        lanes := w.active s.slotB (wordPred s.ir)
        detail := x.detail.toNat
        pairY := x.pairY })

/-- R70, R71, R81, R108 to R112: decoding the word of an instruction gives the instruction back, with every operand at every
value that its encoding admits. -/
def Obligations.EncodeDecodes : Prop :=
  ∀ (ir w : W64) (i : Instr), Instr.wellFormed ir i = true → encode ir i = some w →
    decodeWord true w = .ok i ∧ (privilegeDetail i = none → decodeWord false w = .ok i) ∧
      (∀ n, privilegeDetail i = some n → decodeWord false w = refuses w 7 n)

/-- The words that the rules write out decode to what they stand for. -/
def Obligations.DecodeSampleWords : Prop := ∀ e ∈ workedWords, decodeWord true e.1 = .ok e.2

/-- R46, R47, R59, R110: a step takes an input from outside first; else the agent that is next acts. A slot that is next runs the
instruction that its word decodes to, at the state that latches the word; a word that does not decode takes its decoding
cause, one that cannot be fetched the cause of its fetch; a word that would break a serialised transaction waits (R220); a word
that names a vector register its wave lacks takes the causes of its issue or passes without effect (the model's reading,
log 25). -/
def Obligations.StepRunsDecodedWord : Prop :=
  (∀ (s : State) (i : Nat) (b : Bool) (w : Wave), s.inputs = [] → nextActor s = some (.word i b) → s.wave i = some w →
    let u : State := { s with fresh := s.fresh + 1 }
    (∀ rs r, fetchWord u i w (w.slot b).pc (w.slot b).mask = .error rs → settleRaises rs = some r →
      step s = settled (.next (trapWord (latchWord u i w b 0 []) (latchWord u i w b 0 []) r))) ∧
    (∀ ir parts, fetchWord u i w (w.slot b).pc (w.slot b).mask = .ok (ir, parts) →
      ir = BitVec.ofNat 64 (leNat (bytesAt s.mem (partRanges parts))) ∧
      (∀ ins, decodeWord w.sysMode ir = .ok ins →
        let v := fillParts (latchWord u i w b ir (issueRaises w b ir ins ++ forbidRaises w b ir ins)) (waveAgent w i) parts
        (lacksRegister w ir ins = false → Executes v (standsFor w ins) (step s)) ∧
        (lacksRegister w ir ins = true → step s = settled (finish v (.done v [])))) ∧
      (∀ x, decodeWord w.sysMode ir = .error x → lacksRegister w ir .illegalWord = false →
        Executes (fillParts (latchWord u i w b ir []) (waveAgent w i) parts) .illegalWord (step s)))) ∧
  (∀ (s : State) (e : Event) (rest : List Event), s.inputs = e :: rest → isEvent e.name = true →
    step s = settled (exec e.name { s with
      inputs := rest
      fresh := s.fresh + 1
      target := e.target })) ∧
  (∀ (s : State) (e : Event), s.inputs = [] → nextActor s = some (.event e) → isEvent e.name = true →
    step s = settled (exec e.name { s with
      fresh := s.fresh + 1
      target := e.target })) ∧
  (∀ (s : State), s.inputs = [] → nextActor s = none → step s = .next s)

/-- R1, R390, R423, R429, R437, R439, R447, R448: right after reset no wave is resident and nothing is queued, no context is live,
the node has no name and no route, every port register and device register that has a reset value reads it, two spare pairs
stand ready on each die; memory and storage are in their form. -/
def Obligations.ResetState : Prop :=
  let s := State.reset
  s.waves = [] ∧ s.inputs = [] ∧ s.interrupts = [] ∧ s.mem.wf = true ∧ StorageOk s ∧
  (∀ c ∈ s.ctxs, c = {}) ∧ (∀ c ∈ s.cores, c = {}) ∧ (∀ c ∈ s.clusters, c = {}) ∧
  (∀ d ∈ s.dies, d.queue = [] ∧ d.pipes = [] ∧ d.splitOps = [] ∧ d.clockMHz = 2250 ∧ d.sparePairs = 2) ∧
  s.fabric.node = 0xFFF ∧ s.fabric.routes = [] ∧ (∀ p ∈ s.fabric.ports, p = {}) ∧ s.fabric.cmds = [] ∧
  s.dev.ctxBase = 0 ∧ s.dev.ctxEn = false ∧ s.dev.ctxRef = false ∧ s.dev.mbBusy = false ∧ s.dev.mbResult = 0 ∧
  s.dev.mbReply = 0 ∧ s.trust.booted = false ∧ s.trust.recovery = false ∧
  (∀ m ∈ s.trust.mr, m = List.replicate 32 0) ∧
  (let p : Port := {}
   p.window = 0 ∧ p.count = 0 ∧ p.intRing = 0 ∧ p.intSize = 0 ∧ p.intVec = 0 ∧ p.intTail = 0 ∧ p.refused = false)

/-- Every step keeps memory in its canonical form: bytes, full/empty bits and poison by rising address, and nothing listed that
an unlisted address reads as. -/
def Obligations.MemoryStaysCanonical : Prop := ∀ (s t : State), s.mem.wf = true → step s = .next t → t.mem.wf = true

/-- Every step keeps the storage of waves and cores in its canonical form, and the package its parts. -/
def Obligations.StorageStaysCanonical : Prop := ∀ (s t : State), StorageOk s → step s = .next t → StorageOk t

end
end

