-- ==== Sys2Proof/Laws/Cells.lean ====
section
/-! SUPPORT. Sparse storage: every operation keeps the canonical form, and what a read gives after a write. -/

namespace Sys2Proof.Machine

namespace Cells

variable {α : Type} [DecidableEq α]

@[simp] theorem wfFrom_nil (d : α) (lo : Nat) : wfFrom d lo [] = true := rfl

theorem wfFrom_cons (d : α) (lo k : Nat) (v : α) (m : Cells α) :
    wfFrom d lo ((k, v) :: m) = true ↔ lo ≤ k ∧ v ≠ d ∧ wfFrom d (k + 1) m = true := by
  simp [wfFrom, and_assoc]

/-- The form over keys from `lo` holds over keys from any lower one. -/
theorem wfFrom_mono {d : α} {lo lo' : Nat} {m : Cells α} (h : lo' ≤ lo) (hm : wfFrom d lo m = true) :
    wfFrom d lo' m = true := by
  cases m with
  | nil => rfl
  | cons e m => obtain ⟨h1, h2, h3⟩ := (wfFrom_cons ..).1 hm; exact (wfFrom_cons ..).2 ⟨by omega, h2, h3⟩

theorem wfFrom_wf {d : α} {lo : Nat} {m : Cells α} (h : wfFrom d lo m = true) : wf d m = true :=
  wfFrom_mono (Nat.zero_le _) h

/-- Every key of a canonical list is at least its lower bound. -/
theorem le_of_mem {d : α} {lo : Nat} {m : Cells α} (h : wfFrom d lo m = true) : ∀ e ∈ m, lo ≤ e.1 := by
  induction m generalizing lo with
  | nil => simp
  | cons e m ih =>
    obtain ⟨h1, -, h3⟩ := (wfFrom_cons ..).1 h
    intro x hx
    rcases List.mem_cons.1 hx with rfl | hx
    · exact h1
    · have := ih h3 x hx; omega

/-- A key below every key of the list reads as the default. -/
theorem get_below {d : α} {lo : Nat} {m : Cells α} (h : wfFrom d lo m = true) {k : Nat} (hk : k < lo) : get d m k = d := by
  cases m with
  | nil => rfl
  | cons e m =>
    obtain ⟨h1, -, -⟩ := (wfFrom_cons ..).1 h
    simp only [get]; rw [if_neg (by omega), if_pos (by omega)]

theorem wfFrom_filter {d : α} {lo : Nat} {m : Cells α} (p : Nat × α → Bool) (h : wfFrom d lo m = true) :
    wfFrom d lo (m.filter p) = true := by
  induction m generalizing lo with
  | nil => rfl
  | cons e m ih =>
    obtain ⟨h1, h2, h3⟩ := (wfFrom_cons ..).1 h
    rw [List.filter_cons]
    split
    · exact (wfFrom_cons ..).2 ⟨h1, h2, ih h3⟩
    · exact wfFrom_mono (by omega) (ih h3)

/-- Two canonical lists, one below the other. -/
theorem wfFrom_append {d : α} {lo hi : Nat} {a b : Cells α} (ha : wfFrom d lo a = true) (hk : ∀ e ∈ a, e.1 < hi)
    (hlo : lo ≤ hi) (hb : wfFrom d hi b = true) : wfFrom d lo (a ++ b) = true := by
  induction a generalizing lo with
  | nil => exact wfFrom_mono hlo hb
  | cons e a ih =>
    obtain ⟨h1, h2, h3⟩ := (wfFrom_cons ..).1 ha
    have := hk e (by simp)
    exact (wfFrom_cons ..).2 ⟨h1, h2, ih h3 (fun x hx => hk x (by simp [hx])) (by omega)⟩

theorem wfFrom_erase {d : α} {lo : Nat} {m : Cells α} (k : Nat) (h : wfFrom d lo m = true) :
    wfFrom d lo (erase m k) = true := by
  induction m generalizing lo with
  | nil => rfl
  | cons e m ih =>
    obtain ⟨h1, h2, h3⟩ := (wfFrom_cons ..).1 h
    simp only [erase]
    split
    · exact wfFrom_mono (by omega) h3
    · split
      · exact h
      · exact (wfFrom_cons ..).2 ⟨h1, h2, ih h3⟩

theorem wfFrom_insert {d : α} {lo : Nat} {m : Cells α} {k : Nat} {x : α} (h : wfFrom d lo m = true) (hk : lo ≤ k)
    (hx : x ≠ d) : wfFrom d lo (insert m k x) = true := by
  induction m generalizing lo with
  | nil => exact (wfFrom_cons ..).2 ⟨hk, hx, rfl⟩
  | cons e m ih =>
    obtain ⟨h1, h2, h3⟩ := (wfFrom_cons ..).1 h
    simp only [insert]
    split
    · exact (wfFrom_cons ..).2 ⟨hk, hx, by rw [‹k = _›]; exact h3⟩
    · split
      · exact (wfFrom_cons ..).2 ⟨hk, hx, (wfFrom_cons ..).2 ⟨by omega, h2, h3⟩⟩
      · exact (wfFrom_cons ..).2 ⟨h1, h2, ih h3 (by omega)⟩

theorem wf_set {d : α} {m : Cells α} (k : Nat) (x : α) (h : wf d m = true) : wf d (set d m k x) = true := by
  unfold set
  split
  · exact wfFrom_erase k h
  · exact wfFrom_insert h (Nat.zero_le _) ‹_›

theorem wf_setList {d : α} {m : Cells α} (k : Nat) (xs : List α) (h : wf d m = true) : wf d (setList d m k xs) = true := by
  induction xs generalizing m k with
  | nil => exact h
  | cons x xs ih => exact ih (k + 1) (wf_set k x h)

theorem wf_clear {d : α} {m : Cells α} (lo n : Nat) (h : wf d m = true) : wf d (clear m lo n) = true := wfFrom_filter _ h

/-- The new cells of a fill are canonical. -/
theorem wfFrom_filled (d : α) (lo : Nat) (xs : List α) :
    wfFrom d lo ((xs.mapIdx (fun k x => (lo + k, x))).filter (fun e => decide (e.2 ≠ d))) = true := by
  induction xs generalizing lo with
  | nil => rfl
  | cons x xs ih =>
    have e : (fun (k : Nat) (y : α) => (lo + (k + 1), y)) = fun k y => (lo + 1 + k, y) := by
      funext k y; congr 1; omega
    rw [List.mapIdx_cons, e, List.filter_cons]
    split
    · exact (wfFrom_cons ..).2 ⟨by omega, by simpa using ‹decide _ = true›, by simpa using ih (lo + 1)⟩
    · exact wfFrom_mono (by omega) (ih (lo + 1))

theorem wf_fill {d : α} {m : Cells α} (lo : Nat) (xs : List α) (h : wf d m = true) : wf d (fill d m lo xs) = true := by
  have above : wfFrom d (lo + xs.length) (m.filter (fun e => decide (lo + xs.length ≤ e.1))) = true := by
    generalize lo + xs.length = hi
    unfold wf at h
    generalize 0 = z at h
    induction m generalizing z with
    | nil => rfl
    | cons e m ih =>
      obtain ⟨h1, h2, h3⟩ := (wfFrom_cons ..).1 h
      rw [List.filter_cons]
      split
      · exact (wfFrom_cons ..).2 ⟨by simpa using ‹decide _ = true›, h2, wfFrom_filter _ h3⟩
      · exact ih _ h3
  refine wfFrom_append (wfFrom_append (wfFrom_filter _ h) (hi := lo) (by simp) (Nat.zero_le _) (wfFrom_filled d lo xs))
    (hi := lo + xs.length) ?_ (Nat.zero_le _) above
  intro e he
  simp only [List.mem_append, List.mem_filter, List.mem_mapIdx, decide_eq_true_eq] at he
  rcases he with ⟨-, h1⟩ | ⟨⟨i, hi, rfl⟩, -⟩
  · omega
  · simp; omega

theorem get_erase {d : α} {lo : Nat} {m : Cells α} (h : wfFrom d lo m = true) (k j : Nat) :
    get d (erase m k) j = if j = k then d else get d m j := by
  induction m generalizing lo with
  | nil => simp [erase, get]
  | cons e m ih =>
    obtain ⟨h1, h2, h3⟩ := (wfFrom_cons ..).1 h
    simp only [erase]
    split
    · subst_vars
      split
      · subst_vars; exact get_below h3 (by omega)
      · simp only [get]; rw [if_neg ‹_›]
        split
        · exact get_below h3 (by omega)
        · rfl
    · split
      · simp only [get]; split_ifs <;> first | rfl | omega
      · simp only [get]; rw [ih h3]; split_ifs <;> first | rfl | omega

theorem get_insert {d : α} {lo : Nat} {m : Cells α} (h : wfFrom d lo m = true) (k j : Nat) (x : α) :
    get d (insert m k x) j = if j = k then x else get d m j := by
  induction m generalizing lo with
  | nil => simp only [insert, get]; split_ifs <;> rfl
  | cons e m ih =>
    obtain ⟨h1, h2, h3⟩ := (wfFrom_cons ..).1 h
    simp only [insert]
    split
    · subst_vars; simp only [get]; split_ifs <;> rfl
    · split
      · simp only [get]; split_ifs <;> first | rfl | omega
      · simp only [get]; rw [ih h3]; split_ifs <;> first | rfl | omega

/-- A key reads as it was written, and every other key as before. -/
theorem get_set {d : α} {m : Cells α} (h : wf d m = true) (k j : Nat) (x : α) :
    get d (set d m k x) j = if j = k then x else get d m j := by
  unfold set
  split
  · rw [get_erase h]; split <;> simp_all
  · exact get_insert h k j x

end Cells

theorem NatSet.wf_add {m : NatSet} (k : Nat) (h : Cells.wf false m = true) : Cells.wf false (m.add k) = true :=
  Cells.wf_set k true h
theorem NatSet.wf_remove {m : NatSet} (k : Nat) (h : Cells.wf false m = true) : Cells.wf false (m.remove k) = true :=
  Cells.wf_set k false h
theorem NatSet.has_add {m : NatSet} (h : Cells.wf false m = true) (k j : Nat) :
    (m.add k).has j = (decide (j = k) || m.has j) := by
  simp only [NatSet.has, NatSet.add, Cells.get_set h]; split <;> simp_all
theorem NatSet.has_remove {m : NatSet} (h : Cells.wf false m = true) (k j : Nat) :
    (m.remove k).has j = (!decide (j = k) && m.has j) := by
  simp only [NatSet.has, NatSet.remove, Cells.get_set h]; split <;> simp_all

@[simp] theorem length_updAt {α : Type} (l : List α) (i : Nat) (f : α → α) : (updAt l i f).length = l.length := by
  induction l generalizing i with
  | nil => rfl
  | cons x l ih => cases i <;> simp [updAt, ih]

/-- What an element of a list is after one of them is changed. -/
theorem getElem?_updAt {α : Type} (l : List α) (i j : Nat) (f : α → α) :
    (updAt l i f)[j]? = if j = i then l[j]?.map f else l[j]? := by
  induction l generalizing i j with
  | nil => simp [updAt]
  | cons x l ih =>
    cases i <;> cases j <;> simp [updAt, ih]

/-- A property that a change keeps holds of every element of the changed list. -/
theorem forall_updAt {α : Type} {l : List α} {P : α → Prop} (i : Nat) {f : α → α} (h : ∀ x ∈ l, P x)
    (hf : ∀ x, P x → P (f x)) : ∀ x ∈ updAt l i f, P x := by
  induction l generalizing i with
  | nil => simp [updAt]
  | cons x l ih =>
    cases i with
    | zero =>
      intro y hy
      rcases List.mem_cons.1 hy with rfl | hy
      · exact hf _ (h _ (by simp))
      · exact h _ (by simp [hy])
    | succ i =>
      intro y hy
      rcases List.mem_cons.1 hy with rfl | hy
      · exact h _ (by simp)
      · exact ih i (fun z hz => h z (by simp [hz])) y hy

end Sys2Proof.Machine
end

