-- ==== Sys2Proof/Laws/State.lean ====
section
/-! SUPPORT. What each update of a state or of a wave does to each field: one lemma per field per update, so that no later
proof unfolds a record update. -/

namespace Sys2Proof.Machine

namespace State

/-! ### `setWave` -/

@[simp] theorem setWave_mem (s : State) (i : Nat) (w : Wave) : (s.setWave i w).mem = s.mem := rfl
@[simp] theorem setWave_waves (s : State) (i : Nat) (w : Wave) : (s.setWave i w).waves = s.waves.set i w := rfl
@[simp] theorem setWave_cores (s : State) (i : Nat) (w : Wave) : (s.setWave i w).cores = s.cores := rfl
@[simp] theorem setWave_clusters (s : State) (i : Nat) (w : Wave) : (s.setWave i w).clusters = s.clusters := rfl
@[simp] theorem setWave_dies (s : State) (i : Nat) (w : Wave) : (s.setWave i w).dies = s.dies := rfl
@[simp] theorem setWave_ctxs (s : State) (i : Nat) (w : Wave) : (s.setWave i w).ctxs = s.ctxs := rfl
@[simp] theorem setWave_fabric (s : State) (i : Nat) (w : Wave) : (s.setWave i w).fabric = s.fabric := rfl
@[simp] theorem setWave_dev (s : State) (i : Nat) (w : Wave) : (s.setWave i w).dev = s.dev := rfl
@[simp] theorem setWave_trust (s : State) (i : Nat) (w : Wave) : (s.setWave i w).trust = s.trust := rfl
@[simp] theorem setWave_telemetry (s : State) (i : Nat) (w : Wave) : (s.setWave i w).telemetry = s.telemetry := rfl
@[simp] theorem setWave_interrupts (s : State) (i : Nat) (w : Wave) : (s.setWave i w).interrupts = s.interrupts := rfl
@[simp] theorem setWave_cur (s : State) (i : Nat) (w : Wave) : (s.setWave i w).cur = s.cur := rfl
@[simp] theorem setWave_slotB (s : State) (i : Nat) (w : Wave) : (s.setWave i w).slotB = s.slotB := rfl
@[simp] theorem setWave_ir (s : State) (i : Nat) (w : Wave) : (s.setWave i w).ir = s.ir := rfl
@[simp] theorem setWave_raised (s : State) (i : Nat) (w : Wave) : (s.setWave i w).raised = s.raised := rfl
@[simp] theorem setWave_target (s : State) (i : Nat) (w : Wave) : (s.setWave i w).target = s.target := rfl
@[simp] theorem setWave_fresh (s : State) (i : Nat) (w : Wave) : (s.setWave i w).fresh = s.fresh := rfl
@[simp] theorem setWave_ticket (s : State) (i : Nat) (w : Wave) : (s.setWave i w).ticket = s.ticket := rfl
@[simp] theorem setWave_inputs (s : State) (i : Nat) (w : Wave) : (s.setWave i w).inputs = s.inputs := rfl

/-! ### `updWave` -/

@[simp] theorem updWave_mem (s : State) (i : Nat) (f : Wave → Wave) : (s.updWave i f).mem = s.mem := rfl
@[simp] theorem updWave_waves (s : State) (i : Nat) (f : Wave → Wave) : (s.updWave i f).waves = updAt s.waves i f := rfl
@[simp] theorem updWave_cores (s : State) (i : Nat) (f : Wave → Wave) : (s.updWave i f).cores = s.cores := rfl
@[simp] theorem updWave_clusters (s : State) (i : Nat) (f : Wave → Wave) : (s.updWave i f).clusters = s.clusters := rfl
@[simp] theorem updWave_dies (s : State) (i : Nat) (f : Wave → Wave) : (s.updWave i f).dies = s.dies := rfl
@[simp] theorem updWave_ctxs (s : State) (i : Nat) (f : Wave → Wave) : (s.updWave i f).ctxs = s.ctxs := rfl
@[simp] theorem updWave_fabric (s : State) (i : Nat) (f : Wave → Wave) : (s.updWave i f).fabric = s.fabric := rfl
@[simp] theorem updWave_dev (s : State) (i : Nat) (f : Wave → Wave) : (s.updWave i f).dev = s.dev := rfl
@[simp] theorem updWave_trust (s : State) (i : Nat) (f : Wave → Wave) : (s.updWave i f).trust = s.trust := rfl
@[simp] theorem updWave_telemetry (s : State) (i : Nat) (f : Wave → Wave) : (s.updWave i f).telemetry = s.telemetry := rfl
@[simp] theorem updWave_interrupts (s : State) (i : Nat) (f : Wave → Wave) : (s.updWave i f).interrupts = s.interrupts := rfl
@[simp] theorem updWave_cur (s : State) (i : Nat) (f : Wave → Wave) : (s.updWave i f).cur = s.cur := rfl
@[simp] theorem updWave_slotB (s : State) (i : Nat) (f : Wave → Wave) : (s.updWave i f).slotB = s.slotB := rfl
@[simp] theorem updWave_ir (s : State) (i : Nat) (f : Wave → Wave) : (s.updWave i f).ir = s.ir := rfl
@[simp] theorem updWave_raised (s : State) (i : Nat) (f : Wave → Wave) : (s.updWave i f).raised = s.raised := rfl
@[simp] theorem updWave_target (s : State) (i : Nat) (f : Wave → Wave) : (s.updWave i f).target = s.target := rfl
@[simp] theorem updWave_fresh (s : State) (i : Nat) (f : Wave → Wave) : (s.updWave i f).fresh = s.fresh := rfl
@[simp] theorem updWave_ticket (s : State) (i : Nat) (f : Wave → Wave) : (s.updWave i f).ticket = s.ticket := rfl
@[simp] theorem updWave_inputs (s : State) (i : Nat) (f : Wave → Wave) : (s.updWave i f).inputs = s.inputs := rfl

/-! ### `updCore` -/

@[simp] theorem updCore_mem (s : State) (i : Nat) (f : Core → Core) : (s.updCore i f).mem = s.mem := rfl
@[simp] theorem updCore_waves (s : State) (i : Nat) (f : Core → Core) : (s.updCore i f).waves = s.waves := rfl
@[simp] theorem updCore_cores (s : State) (i : Nat) (f : Core → Core) : (s.updCore i f).cores = updAt s.cores i f := rfl
@[simp] theorem updCore_clusters (s : State) (i : Nat) (f : Core → Core) : (s.updCore i f).clusters = s.clusters := rfl
@[simp] theorem updCore_dies (s : State) (i : Nat) (f : Core → Core) : (s.updCore i f).dies = s.dies := rfl
@[simp] theorem updCore_ctxs (s : State) (i : Nat) (f : Core → Core) : (s.updCore i f).ctxs = s.ctxs := rfl
@[simp] theorem updCore_fabric (s : State) (i : Nat) (f : Core → Core) : (s.updCore i f).fabric = s.fabric := rfl
@[simp] theorem updCore_dev (s : State) (i : Nat) (f : Core → Core) : (s.updCore i f).dev = s.dev := rfl
@[simp] theorem updCore_trust (s : State) (i : Nat) (f : Core → Core) : (s.updCore i f).trust = s.trust := rfl
@[simp] theorem updCore_telemetry (s : State) (i : Nat) (f : Core → Core) : (s.updCore i f).telemetry = s.telemetry := rfl
@[simp] theorem updCore_interrupts (s : State) (i : Nat) (f : Core → Core) : (s.updCore i f).interrupts = s.interrupts := rfl
@[simp] theorem updCore_cur (s : State) (i : Nat) (f : Core → Core) : (s.updCore i f).cur = s.cur := rfl
@[simp] theorem updCore_slotB (s : State) (i : Nat) (f : Core → Core) : (s.updCore i f).slotB = s.slotB := rfl
@[simp] theorem updCore_ir (s : State) (i : Nat) (f : Core → Core) : (s.updCore i f).ir = s.ir := rfl
@[simp] theorem updCore_raised (s : State) (i : Nat) (f : Core → Core) : (s.updCore i f).raised = s.raised := rfl
@[simp] theorem updCore_target (s : State) (i : Nat) (f : Core → Core) : (s.updCore i f).target = s.target := rfl
@[simp] theorem updCore_fresh (s : State) (i : Nat) (f : Core → Core) : (s.updCore i f).fresh = s.fresh := rfl
@[simp] theorem updCore_ticket (s : State) (i : Nat) (f : Core → Core) : (s.updCore i f).ticket = s.ticket := rfl
@[simp] theorem updCore_inputs (s : State) (i : Nat) (f : Core → Core) : (s.updCore i f).inputs = s.inputs := rfl

/-! ### `updCluster` -/

@[simp] theorem updCluster_mem (s : State) (i : Nat) (f : Cluster → Cluster) : (s.updCluster i f).mem = s.mem := rfl
@[simp] theorem updCluster_waves (s : State) (i : Nat) (f : Cluster → Cluster) : (s.updCluster i f).waves = s.waves := rfl
@[simp] theorem updCluster_cores (s : State) (i : Nat) (f : Cluster → Cluster) : (s.updCluster i f).cores = s.cores := rfl
@[simp] theorem updCluster_clusters (s : State) (i : Nat) (f : Cluster → Cluster) : (s.updCluster i f).clusters = updAt s.clusters i f := rfl
@[simp] theorem updCluster_dies (s : State) (i : Nat) (f : Cluster → Cluster) : (s.updCluster i f).dies = s.dies := rfl
@[simp] theorem updCluster_ctxs (s : State) (i : Nat) (f : Cluster → Cluster) : (s.updCluster i f).ctxs = s.ctxs := rfl
@[simp] theorem updCluster_fabric (s : State) (i : Nat) (f : Cluster → Cluster) : (s.updCluster i f).fabric = s.fabric := rfl
@[simp] theorem updCluster_dev (s : State) (i : Nat) (f : Cluster → Cluster) : (s.updCluster i f).dev = s.dev := rfl
@[simp] theorem updCluster_trust (s : State) (i : Nat) (f : Cluster → Cluster) : (s.updCluster i f).trust = s.trust := rfl
@[simp] theorem updCluster_telemetry (s : State) (i : Nat) (f : Cluster → Cluster) : (s.updCluster i f).telemetry = s.telemetry := rfl
@[simp] theorem updCluster_interrupts (s : State) (i : Nat) (f : Cluster → Cluster) : (s.updCluster i f).interrupts = s.interrupts := rfl
@[simp] theorem updCluster_cur (s : State) (i : Nat) (f : Cluster → Cluster) : (s.updCluster i f).cur = s.cur := rfl
@[simp] theorem updCluster_slotB (s : State) (i : Nat) (f : Cluster → Cluster) : (s.updCluster i f).slotB = s.slotB := rfl
@[simp] theorem updCluster_ir (s : State) (i : Nat) (f : Cluster → Cluster) : (s.updCluster i f).ir = s.ir := rfl
@[simp] theorem updCluster_raised (s : State) (i : Nat) (f : Cluster → Cluster) : (s.updCluster i f).raised = s.raised := rfl
@[simp] theorem updCluster_target (s : State) (i : Nat) (f : Cluster → Cluster) : (s.updCluster i f).target = s.target := rfl
@[simp] theorem updCluster_fresh (s : State) (i : Nat) (f : Cluster → Cluster) : (s.updCluster i f).fresh = s.fresh := rfl
@[simp] theorem updCluster_ticket (s : State) (i : Nat) (f : Cluster → Cluster) : (s.updCluster i f).ticket = s.ticket := rfl
@[simp] theorem updCluster_inputs (s : State) (i : Nat) (f : Cluster → Cluster) : (s.updCluster i f).inputs = s.inputs := rfl

/-! ### `updDie` -/

@[simp] theorem updDie_mem (s : State) (i : Nat) (f : Die → Die) : (s.updDie i f).mem = s.mem := rfl
@[simp] theorem updDie_waves (s : State) (i : Nat) (f : Die → Die) : (s.updDie i f).waves = s.waves := rfl
@[simp] theorem updDie_cores (s : State) (i : Nat) (f : Die → Die) : (s.updDie i f).cores = s.cores := rfl
@[simp] theorem updDie_clusters (s : State) (i : Nat) (f : Die → Die) : (s.updDie i f).clusters = s.clusters := rfl
@[simp] theorem updDie_dies (s : State) (i : Nat) (f : Die → Die) : (s.updDie i f).dies = updAt s.dies i f := rfl
@[simp] theorem updDie_ctxs (s : State) (i : Nat) (f : Die → Die) : (s.updDie i f).ctxs = s.ctxs := rfl
@[simp] theorem updDie_fabric (s : State) (i : Nat) (f : Die → Die) : (s.updDie i f).fabric = s.fabric := rfl
@[simp] theorem updDie_dev (s : State) (i : Nat) (f : Die → Die) : (s.updDie i f).dev = s.dev := rfl
@[simp] theorem updDie_trust (s : State) (i : Nat) (f : Die → Die) : (s.updDie i f).trust = s.trust := rfl
@[simp] theorem updDie_telemetry (s : State) (i : Nat) (f : Die → Die) : (s.updDie i f).telemetry = s.telemetry := rfl
@[simp] theorem updDie_interrupts (s : State) (i : Nat) (f : Die → Die) : (s.updDie i f).interrupts = s.interrupts := rfl
@[simp] theorem updDie_cur (s : State) (i : Nat) (f : Die → Die) : (s.updDie i f).cur = s.cur := rfl
@[simp] theorem updDie_slotB (s : State) (i : Nat) (f : Die → Die) : (s.updDie i f).slotB = s.slotB := rfl
@[simp] theorem updDie_ir (s : State) (i : Nat) (f : Die → Die) : (s.updDie i f).ir = s.ir := rfl
@[simp] theorem updDie_raised (s : State) (i : Nat) (f : Die → Die) : (s.updDie i f).raised = s.raised := rfl
@[simp] theorem updDie_target (s : State) (i : Nat) (f : Die → Die) : (s.updDie i f).target = s.target := rfl
@[simp] theorem updDie_fresh (s : State) (i : Nat) (f : Die → Die) : (s.updDie i f).fresh = s.fresh := rfl
@[simp] theorem updDie_ticket (s : State) (i : Nat) (f : Die → Die) : (s.updDie i f).ticket = s.ticket := rfl
@[simp] theorem updDie_inputs (s : State) (i : Nat) (f : Die → Die) : (s.updDie i f).inputs = s.inputs := rfl

/-! ### `updCtx` -/

@[simp] theorem updCtx_mem (s : State) (i : Nat) (f : Context → Context) : (s.updCtx i f).mem = s.mem := rfl
@[simp] theorem updCtx_waves (s : State) (i : Nat) (f : Context → Context) : (s.updCtx i f).waves = s.waves := rfl
@[simp] theorem updCtx_cores (s : State) (i : Nat) (f : Context → Context) : (s.updCtx i f).cores = s.cores := rfl
@[simp] theorem updCtx_clusters (s : State) (i : Nat) (f : Context → Context) : (s.updCtx i f).clusters = s.clusters := rfl
@[simp] theorem updCtx_dies (s : State) (i : Nat) (f : Context → Context) : (s.updCtx i f).dies = s.dies := rfl
@[simp] theorem updCtx_ctxs (s : State) (i : Nat) (f : Context → Context) : (s.updCtx i f).ctxs = updAt s.ctxs i f := rfl
@[simp] theorem updCtx_fabric (s : State) (i : Nat) (f : Context → Context) : (s.updCtx i f).fabric = s.fabric := rfl
@[simp] theorem updCtx_dev (s : State) (i : Nat) (f : Context → Context) : (s.updCtx i f).dev = s.dev := rfl
@[simp] theorem updCtx_trust (s : State) (i : Nat) (f : Context → Context) : (s.updCtx i f).trust = s.trust := rfl
@[simp] theorem updCtx_telemetry (s : State) (i : Nat) (f : Context → Context) : (s.updCtx i f).telemetry = s.telemetry := rfl
@[simp] theorem updCtx_interrupts (s : State) (i : Nat) (f : Context → Context) : (s.updCtx i f).interrupts = s.interrupts := rfl
@[simp] theorem updCtx_cur (s : State) (i : Nat) (f : Context → Context) : (s.updCtx i f).cur = s.cur := rfl
@[simp] theorem updCtx_slotB (s : State) (i : Nat) (f : Context → Context) : (s.updCtx i f).slotB = s.slotB := rfl
@[simp] theorem updCtx_ir (s : State) (i : Nat) (f : Context → Context) : (s.updCtx i f).ir = s.ir := rfl
@[simp] theorem updCtx_raised (s : State) (i : Nat) (f : Context → Context) : (s.updCtx i f).raised = s.raised := rfl
@[simp] theorem updCtx_target (s : State) (i : Nat) (f : Context → Context) : (s.updCtx i f).target = s.target := rfl
@[simp] theorem updCtx_fresh (s : State) (i : Nat) (f : Context → Context) : (s.updCtx i f).fresh = s.fresh := rfl
@[simp] theorem updCtx_ticket (s : State) (i : Nat) (f : Context → Context) : (s.updCtx i f).ticket = s.ticket := rfl
@[simp] theorem updCtx_inputs (s : State) (i : Nat) (f : Context → Context) : (s.updCtx i f).inputs = s.inputs := rfl

/-! ### `nextTicket` -/

@[simp] theorem nextTicket_mem (s : State) : (s.nextTicket).mem = s.mem := rfl
@[simp] theorem nextTicket_waves (s : State) : (s.nextTicket).waves = s.waves := rfl
@[simp] theorem nextTicket_cores (s : State) : (s.nextTicket).cores = s.cores := rfl
@[simp] theorem nextTicket_clusters (s : State) : (s.nextTicket).clusters = s.clusters := rfl
@[simp] theorem nextTicket_dies (s : State) : (s.nextTicket).dies = s.dies := rfl
@[simp] theorem nextTicket_ctxs (s : State) : (s.nextTicket).ctxs = s.ctxs := rfl
@[simp] theorem nextTicket_fabric (s : State) : (s.nextTicket).fabric = s.fabric := rfl
@[simp] theorem nextTicket_dev (s : State) : (s.nextTicket).dev = s.dev := rfl
@[simp] theorem nextTicket_trust (s : State) : (s.nextTicket).trust = s.trust := rfl
@[simp] theorem nextTicket_telemetry (s : State) : (s.nextTicket).telemetry = s.telemetry := rfl
@[simp] theorem nextTicket_interrupts (s : State) : (s.nextTicket).interrupts = s.interrupts := rfl
@[simp] theorem nextTicket_cur (s : State) : (s.nextTicket).cur = s.cur := rfl
@[simp] theorem nextTicket_slotB (s : State) : (s.nextTicket).slotB = s.slotB := rfl
@[simp] theorem nextTicket_ir (s : State) : (s.nextTicket).ir = s.ir := rfl
@[simp] theorem nextTicket_raised (s : State) : (s.nextTicket).raised = s.raised := rfl
@[simp] theorem nextTicket_target (s : State) : (s.nextTicket).target = s.target := rfl
@[simp] theorem nextTicket_fresh (s : State) : (s.nextTicket).fresh = s.fresh := rfl
@[simp] theorem nextTicket_ticket (s : State) : (s.nextTicket).ticket = s.ticket + 1 := rfl
@[simp] theorem nextTicket_inputs (s : State) : (s.nextTicket).inputs = s.inputs := rfl

/-! ### `nextFresh` -/

@[simp] theorem nextFresh_mem (s : State) : (s.nextFresh).mem = s.mem := rfl
@[simp] theorem nextFresh_waves (s : State) : (s.nextFresh).waves = s.waves := rfl
@[simp] theorem nextFresh_cores (s : State) : (s.nextFresh).cores = s.cores := rfl
@[simp] theorem nextFresh_clusters (s : State) : (s.nextFresh).clusters = s.clusters := rfl
@[simp] theorem nextFresh_dies (s : State) : (s.nextFresh).dies = s.dies := rfl
@[simp] theorem nextFresh_ctxs (s : State) : (s.nextFresh).ctxs = s.ctxs := rfl
@[simp] theorem nextFresh_fabric (s : State) : (s.nextFresh).fabric = s.fabric := rfl
@[simp] theorem nextFresh_dev (s : State) : (s.nextFresh).dev = s.dev := rfl
@[simp] theorem nextFresh_trust (s : State) : (s.nextFresh).trust = s.trust := rfl
@[simp] theorem nextFresh_telemetry (s : State) : (s.nextFresh).telemetry = s.telemetry := rfl
@[simp] theorem nextFresh_interrupts (s : State) : (s.nextFresh).interrupts = s.interrupts := rfl
@[simp] theorem nextFresh_cur (s : State) : (s.nextFresh).cur = s.cur := rfl
@[simp] theorem nextFresh_slotB (s : State) : (s.nextFresh).slotB = s.slotB := rfl
@[simp] theorem nextFresh_ir (s : State) : (s.nextFresh).ir = s.ir := rfl
@[simp] theorem nextFresh_raised (s : State) : (s.nextFresh).raised = s.raised := rfl
@[simp] theorem nextFresh_target (s : State) : (s.nextFresh).target = s.target := rfl
@[simp] theorem nextFresh_fresh (s : State) : (s.nextFresh).fresh = s.fresh + 1 := rfl
@[simp] theorem nextFresh_ticket (s : State) : (s.nextFresh).ticket = s.ticket := rfl
@[simp] theorem nextFresh_inputs (s : State) : (s.nextFresh).inputs = s.inputs := rfl

/-! ### `writePA`: bytes of memory -/

@[simp] theorem writePA_mem (s : State) (pa : Nat) (bs : List Byte) : (s.writePA pa bs).mem = s.mem.writeN pa bs := rfl
@[simp] theorem writePA_waves (s : State) (pa : Nat) (bs : List Byte) : (s.writePA pa bs).waves = s.waves := rfl
@[simp] theorem writePA_cores (s : State) (pa : Nat) (bs : List Byte) : (s.writePA pa bs).cores = s.cores := rfl
@[simp] theorem writePA_clusters (s : State) (pa : Nat) (bs : List Byte) : (s.writePA pa bs).clusters = s.clusters := rfl
@[simp] theorem writePA_dies (s : State) (pa : Nat) (bs : List Byte) : (s.writePA pa bs).dies = s.dies := rfl
@[simp] theorem writePA_ctxs (s : State) (pa : Nat) (bs : List Byte) : (s.writePA pa bs).ctxs = s.ctxs := rfl
@[simp] theorem writePA_fabric (s : State) (pa : Nat) (bs : List Byte) : (s.writePA pa bs).fabric = s.fabric := rfl
@[simp] theorem writePA_dev (s : State) (pa : Nat) (bs : List Byte) : (s.writePA pa bs).dev = s.dev := rfl
@[simp] theorem writePA_trust (s : State) (pa : Nat) (bs : List Byte) : (s.writePA pa bs).trust = s.trust := rfl
@[simp] theorem writePA_telemetry (s : State) (pa : Nat) (bs : List Byte) : (s.writePA pa bs).telemetry = s.telemetry := rfl
@[simp] theorem writePA_interrupts (s : State) (pa : Nat) (bs : List Byte) : (s.writePA pa bs).interrupts = s.interrupts := rfl
@[simp] theorem writePA_cur (s : State) (pa : Nat) (bs : List Byte) : (s.writePA pa bs).cur = s.cur := rfl
@[simp] theorem writePA_slotB (s : State) (pa : Nat) (bs : List Byte) : (s.writePA pa bs).slotB = s.slotB := rfl
@[simp] theorem writePA_ir (s : State) (pa : Nat) (bs : List Byte) : (s.writePA pa bs).ir = s.ir := rfl
@[simp] theorem writePA_raised (s : State) (pa : Nat) (bs : List Byte) : (s.writePA pa bs).raised = s.raised := rfl
@[simp] theorem writePA_target (s : State) (pa : Nat) (bs : List Byte) : (s.writePA pa bs).target = s.target := rfl
@[simp] theorem writePA_fresh (s : State) (pa : Nat) (bs : List Byte) : (s.writePA pa bs).fresh = s.fresh := rfl
@[simp] theorem writePA_ticket (s : State) (pa : Nat) (bs : List Byte) : (s.writePA pa bs).ticket = s.ticket := rfl
@[simp] theorem writePA_inputs (s : State) (pa : Nat) (bs : List Byte) : (s.writePA pa bs).inputs = s.inputs := rfl

end State

namespace Wave

/-! ### `setS` -/

@[simp] theorem setS_place (w : Wave) (n : Nat) (x : W64) : (w.setS n x).place = w.place := by unfold setS; split <;> rfl
@[simp] theorem setS_v (w : Wave) (n : Nat) (x : W64) : (w.setS n x).v = w.v := by unfold setS; split <;> rfl
@[simp] theorem setS_m (w : Wave) (n : Nat) (x : W64) : (w.setS n x).m = w.m := by unfold setS; split <;> rfl
@[simp] theorem setS_slotA (w : Wave) (n : Nat) (x : W64) : (w.setS n x).slotA = w.slotA := by unfold setS; split <;> rfl
@[simp] theorem setS_slotB (w : Wave) (n : Nat) (x : W64) : (w.setS n x).slotB = w.slotB := by unfold setS; split <;> rfl
@[simp] theorem setS_exited (w : Wave) (n : Nat) (x : W64) : (w.setS n x).exited = w.exited := by unfold setS; split <;> rfl
@[simp] theorem setS_stack (w : Wave) (n : Nat) (x : W64) : (w.setS n x).stack = w.stack := by unfold setS; split <;> rfl
@[simp] theorem setS_tokens (w : Wave) (n : Nat) (x : W64) : (w.setS n x).tokens = w.tokens := by unfold setS; split <;> rfl
@[simp] theorem setS_sys (w : Wave) (n : Nat) (x : W64) : (w.setS n x).sys = w.sys := by unfold setS; split <;> rfl
@[simp] theorem setS_run (w : Wave) (n : Nat) (x : W64) : (w.setS n x).run = w.run := by unfold setS; split <;> rfl
@[simp] theorem setS_intr (w : Wave) (n : Nat) (x : W64) : (w.setS n x).intr = w.intr := by unfold setS; split <;> rfl
@[simp] theorem setS_tx (w : Wave) (n : Nat) (x : W64) : (w.setS n x).tx = w.tx := by unfold setS; split <;> rfl
@[simp] theorem setS_windows (w : Wave) (n : Nat) (x : W64) : (w.setS n x).windows = w.windows := by unfold setS; split <;> rfl
@[simp] theorem setS_sync (w : Wave) (n : Nat) (x : W64) : (w.setS n x).sync = w.sync := by unfold setS; split <;> rfl
@[simp] theorem setS_abandoned (w : Wave) (n : Nat) (x : W64) : (w.setS n x).abandoned = w.abandoned := by unfold setS; split <;> rfl
@[simp] theorem setS_faults (w : Wave) (n : Nat) (x : W64) : (w.setS n x).faults = w.faults := by unfold setS; split <;> rfl
@[simp] theorem setS_saved (w : Wave) (n : Nat) (x : W64) : (w.setS n x).saved = w.saved := by unfold setS; split <;> rfl
@[simp] theorem setS_poison (w : Wave) (n : Nat) (x : W64) : (w.setS n x).poison = w.poison := by unfold setS; split <;> rfl
theorem setS_s (w : Wave) (n : Nat) (x : W64) : (w.setS n x).s = if n = 0 then w.s else Cells.set 0 w.s n x := by
  unfold setS; split <;> rfl
@[simp] theorem setS_zero (w : Wave) (x : W64) : w.setS 0 x = w := rfl

/-! ### `setM` -/

@[simp] theorem setM_place (w : Wave) (n : Nat) (x : W32) : (w.setM n x).place = w.place := by unfold setM; split <;> rfl
@[simp] theorem setM_v (w : Wave) (n : Nat) (x : W32) : (w.setM n x).v = w.v := by unfold setM; split <;> rfl
@[simp] theorem setM_s (w : Wave) (n : Nat) (x : W32) : (w.setM n x).s = w.s := by unfold setM; split <;> rfl
@[simp] theorem setM_slotA (w : Wave) (n : Nat) (x : W32) : (w.setM n x).slotA = w.slotA := by unfold setM; split <;> rfl
@[simp] theorem setM_slotB (w : Wave) (n : Nat) (x : W32) : (w.setM n x).slotB = w.slotB := by unfold setM; split <;> rfl
@[simp] theorem setM_exited (w : Wave) (n : Nat) (x : W32) : (w.setM n x).exited = w.exited := by unfold setM; split <;> rfl
@[simp] theorem setM_stack (w : Wave) (n : Nat) (x : W32) : (w.setM n x).stack = w.stack := by unfold setM; split <;> rfl
@[simp] theorem setM_tokens (w : Wave) (n : Nat) (x : W32) : (w.setM n x).tokens = w.tokens := by unfold setM; split <;> rfl
@[simp] theorem setM_sys (w : Wave) (n : Nat) (x : W32) : (w.setM n x).sys = w.sys := by unfold setM; split <;> rfl
@[simp] theorem setM_run (w : Wave) (n : Nat) (x : W32) : (w.setM n x).run = w.run := by unfold setM; split <;> rfl
@[simp] theorem setM_intr (w : Wave) (n : Nat) (x : W32) : (w.setM n x).intr = w.intr := by unfold setM; split <;> rfl
@[simp] theorem setM_tx (w : Wave) (n : Nat) (x : W32) : (w.setM n x).tx = w.tx := by unfold setM; split <;> rfl
@[simp] theorem setM_windows (w : Wave) (n : Nat) (x : W32) : (w.setM n x).windows = w.windows := by unfold setM; split <;> rfl
@[simp] theorem setM_sync (w : Wave) (n : Nat) (x : W32) : (w.setM n x).sync = w.sync := by unfold setM; split <;> rfl
@[simp] theorem setM_abandoned (w : Wave) (n : Nat) (x : W32) : (w.setM n x).abandoned = w.abandoned := by unfold setM; split <;> rfl
@[simp] theorem setM_faults (w : Wave) (n : Nat) (x : W32) : (w.setM n x).faults = w.faults := by unfold setM; split <;> rfl
@[simp] theorem setM_saved (w : Wave) (n : Nat) (x : W32) : (w.setM n x).saved = w.saved := by unfold setM; split <;> rfl
@[simp] theorem setM_poison (w : Wave) (n : Nat) (x : W32) : (w.setM n x).poison = w.poison := by unfold setM; split <;> rfl
theorem setM_m (w : Wave) (n : Nat) (x : W32) : (w.setM n x).m = if n = 0 then w.m else Cells.set 0 w.m n x := by
  unfold setM; split <;> rfl
@[simp] theorem setM_zero (w : Wave) (x : W32) : w.setM 0 x = w := rfl

/-! ### `setV` -/

@[simp] theorem setV_place (w : Wave) (n l : Nat) (x : W32) : (w.setV n l x).place = w.place := rfl
@[simp] theorem setV_s (w : Wave) (n l : Nat) (x : W32) : (w.setV n l x).s = w.s := rfl
@[simp] theorem setV_m (w : Wave) (n l : Nat) (x : W32) : (w.setV n l x).m = w.m := rfl
@[simp] theorem setV_slotA (w : Wave) (n l : Nat) (x : W32) : (w.setV n l x).slotA = w.slotA := rfl
@[simp] theorem setV_slotB (w : Wave) (n l : Nat) (x : W32) : (w.setV n l x).slotB = w.slotB := rfl
@[simp] theorem setV_exited (w : Wave) (n l : Nat) (x : W32) : (w.setV n l x).exited = w.exited := rfl
@[simp] theorem setV_stack (w : Wave) (n l : Nat) (x : W32) : (w.setV n l x).stack = w.stack := rfl
@[simp] theorem setV_tokens (w : Wave) (n l : Nat) (x : W32) : (w.setV n l x).tokens = w.tokens := rfl
@[simp] theorem setV_sys (w : Wave) (n l : Nat) (x : W32) : (w.setV n l x).sys = w.sys := rfl
@[simp] theorem setV_run (w : Wave) (n l : Nat) (x : W32) : (w.setV n l x).run = w.run := rfl
@[simp] theorem setV_intr (w : Wave) (n l : Nat) (x : W32) : (w.setV n l x).intr = w.intr := rfl
@[simp] theorem setV_tx (w : Wave) (n l : Nat) (x : W32) : (w.setV n l x).tx = w.tx := rfl
@[simp] theorem setV_windows (w : Wave) (n l : Nat) (x : W32) : (w.setV n l x).windows = w.windows := rfl
@[simp] theorem setV_sync (w : Wave) (n l : Nat) (x : W32) : (w.setV n l x).sync = w.sync := rfl
@[simp] theorem setV_abandoned (w : Wave) (n l : Nat) (x : W32) : (w.setV n l x).abandoned = w.abandoned := rfl
@[simp] theorem setV_faults (w : Wave) (n l : Nat) (x : W32) : (w.setV n l x).faults = w.faults := rfl
@[simp] theorem setV_saved (w : Wave) (n l : Nat) (x : W32) : (w.setV n l x).saved = w.saved := rfl
@[simp] theorem setV_v (w : Wave) (n l : Nat) (x : W32) : (w.setV n l x).v = Cells.set 0 w.v (32 * n + l) x := rfl
@[simp] theorem setV_poison (w : Wave) (n l : Nat) (x : W32) :
    (w.setV n l x).poison = w.poison.remove (32 * n + l) := rfl

/-! ### `setSlot` -/

@[simp] theorem setSlot_place (w : Wave) (b : Bool) (x : Slot) : (w.setSlot b x).place = w.place := by cases b <;> rfl
@[simp] theorem setSlot_v (w : Wave) (b : Bool) (x : Slot) : (w.setSlot b x).v = w.v := by cases b <;> rfl
@[simp] theorem setSlot_s (w : Wave) (b : Bool) (x : Slot) : (w.setSlot b x).s = w.s := by cases b <;> rfl
@[simp] theorem setSlot_m (w : Wave) (b : Bool) (x : Slot) : (w.setSlot b x).m = w.m := by cases b <;> rfl
@[simp] theorem setSlot_exited (w : Wave) (b : Bool) (x : Slot) : (w.setSlot b x).exited = w.exited := by cases b <;> rfl
@[simp] theorem setSlot_stack (w : Wave) (b : Bool) (x : Slot) : (w.setSlot b x).stack = w.stack := by cases b <;> rfl
@[simp] theorem setSlot_tokens (w : Wave) (b : Bool) (x : Slot) : (w.setSlot b x).tokens = w.tokens := by cases b <;> rfl
@[simp] theorem setSlot_sys (w : Wave) (b : Bool) (x : Slot) : (w.setSlot b x).sys = w.sys := by cases b <;> rfl
@[simp] theorem setSlot_run (w : Wave) (b : Bool) (x : Slot) : (w.setSlot b x).run = w.run := by cases b <;> rfl
@[simp] theorem setSlot_intr (w : Wave) (b : Bool) (x : Slot) : (w.setSlot b x).intr = w.intr := by cases b <;> rfl
@[simp] theorem setSlot_tx (w : Wave) (b : Bool) (x : Slot) : (w.setSlot b x).tx = w.tx := by cases b <;> rfl
@[simp] theorem setSlot_windows (w : Wave) (b : Bool) (x : Slot) : (w.setSlot b x).windows = w.windows := by cases b <;> rfl
@[simp] theorem setSlot_sync (w : Wave) (b : Bool) (x : Slot) : (w.setSlot b x).sync = w.sync := by cases b <;> rfl
@[simp] theorem setSlot_abandoned (w : Wave) (b : Bool) (x : Slot) : (w.setSlot b x).abandoned = w.abandoned := by cases b <;> rfl
@[simp] theorem setSlot_faults (w : Wave) (b : Bool) (x : Slot) : (w.setSlot b x).faults = w.faults := by cases b <;> rfl
@[simp] theorem setSlot_saved (w : Wave) (b : Bool) (x : Slot) : (w.setSlot b x).saved = w.saved := by cases b <;> rfl
@[simp] theorem setSlot_poison (w : Wave) (b : Bool) (x : Slot) : (w.setSlot b x).poison = w.poison := by cases b <;> rfl
@[simp] theorem slot_setSlot (w : Wave) (b : Bool) (x : Slot) : (w.setSlot b x).slot b = x := by cases b <;> rfl
@[simp] theorem slot_setSlot_other (w : Wave) (b : Bool) (x : Slot) : (w.setSlot b x).slot (!b) = w.slot (!b) := by
  cases b <;> rfl
@[simp] theorem setSlot_slot (w : Wave) (b : Bool) : w.setSlot b (w.slot b) = w := by cases b <;> rfl

/-! ### `setToken` -/

@[simp] theorem setToken_place (w : Wave) (k n : Nat) : (w.setToken k n).place = w.place := rfl
@[simp] theorem setToken_v (w : Wave) (k n : Nat) : (w.setToken k n).v = w.v := rfl
@[simp] theorem setToken_s (w : Wave) (k n : Nat) : (w.setToken k n).s = w.s := rfl
@[simp] theorem setToken_m (w : Wave) (k n : Nat) : (w.setToken k n).m = w.m := rfl
@[simp] theorem setToken_slotA (w : Wave) (k n : Nat) : (w.setToken k n).slotA = w.slotA := rfl
@[simp] theorem setToken_slotB (w : Wave) (k n : Nat) : (w.setToken k n).slotB = w.slotB := rfl
@[simp] theorem setToken_exited (w : Wave) (k n : Nat) : (w.setToken k n).exited = w.exited := rfl
@[simp] theorem setToken_stack (w : Wave) (k n : Nat) : (w.setToken k n).stack = w.stack := rfl
@[simp] theorem setToken_sys (w : Wave) (k n : Nat) : (w.setToken k n).sys = w.sys := rfl
@[simp] theorem setToken_run (w : Wave) (k n : Nat) : (w.setToken k n).run = w.run := rfl
@[simp] theorem setToken_intr (w : Wave) (k n : Nat) : (w.setToken k n).intr = w.intr := rfl
@[simp] theorem setToken_tx (w : Wave) (k n : Nat) : (w.setToken k n).tx = w.tx := rfl
@[simp] theorem setToken_windows (w : Wave) (k n : Nat) : (w.setToken k n).windows = w.windows := rfl
@[simp] theorem setToken_sync (w : Wave) (k n : Nat) : (w.setToken k n).sync = w.sync := rfl
@[simp] theorem setToken_abandoned (w : Wave) (k n : Nat) : (w.setToken k n).abandoned = w.abandoned := rfl
@[simp] theorem setToken_faults (w : Wave) (k n : Nat) : (w.setToken k n).faults = w.faults := rfl
@[simp] theorem setToken_saved (w : Wave) (k n : Nat) : (w.setToken k n).saved = w.saved := rfl
@[simp] theorem setToken_poison (w : Wave) (k n : Nat) : (w.setToken k n).poison = w.poison := rfl
@[simp] theorem setToken_tokens (w : Wave) (k n : Nat) : (w.setToken k n).tokens = Cells.set 0 w.tokens k n := rfl

end Wave

end Sys2Proof.Machine
end

