-- ==== Sys2Proof/Laws/Memory.lean ====
section
/-! SUPPORT. Memory: every operation keeps its canonical form, and accesses change only what the rules say. -/

namespace Sys2Proof.Machine

theorem Memory.wf_iff {m : Memory} :
    m.wf = true ↔ Cells.wf blankByte m.bytes = true ∧ Cells.wf false m.full = true ∧ Cells.wf false m.poison = true := by
  simp [Memory.wf, and_assoc]

/-- A fold of operations that keep a property keeps it. -/
theorem foldl_keeps {α β : Type} {P : α → Prop} (f : α → β → α) (hf : ∀ a b, P a → P (f a b)) (l : List β) {a : α}
    (h : P a) : P (l.foldl f a) := by
  induction l generalizing a with
  | nil => exact h
  | cons x l ih => exact ih (hf a x h)

theorem Memory.wf_write {m : Memory} (pa : Nat) (b : Byte) (h : m.wf = true) : (m.write pa b).wf = true :=
  Memory.wf_iff.2 ⟨Cells.wf_set _ _ (Memory.wf_iff.1 h).1, (Memory.wf_iff.1 h).2⟩

theorem Memory.wf_writeN {m : Memory} (pa : Nat) (bs : List Byte) (h : m.wf = true) : (m.writeN pa bs).wf = true := by
  obtain ⟨h1, h2, h3⟩ := Memory.wf_iff.1 h
  refine Memory.wf_iff.2 ⟨Cells.wf_fill _ _ h1, h2, ?_⟩
  exact foldl_keeps (P := fun p => Cells.wf false p = true) _
    (fun p k hp => by split <;> first | exact NatSet.wf_remove _ hp | exact hp) _ h3

theorem Memory.wf_setFull {m : Memory} (pa : Nat) (b : Bool) (h : m.wf = true) : (m.setFull pa b).wf = true := by
  obtain ⟨h1, h2, h3⟩ := Memory.wf_iff.1 h
  refine Memory.wf_iff.2 ⟨h1, ?_, h3⟩
  unfold Memory.setFull
  cases b
  · exact NatSet.wf_remove _ h2
  · exact NatSet.wf_add _ h2

/-- ECC_POISON of a line (R405). -/
theorem Memory.wf_poisonLine {m : Memory} (line : Nat) (h : m.wf = true) :
    ({ m with poison := m.poison.add line } : Memory).wf = true := by
  obtain ⟨h1, h2, h3⟩ := Memory.wf_iff.1 h
  exact Memory.wf_iff.2 ⟨h1, h2, NatSet.wf_add _ h3⟩

/-- One byte after the write of one byte. -/
theorem Memory.read_write {m : Memory} (h : m.wf = true) (pa k : Nat) (b : Byte) :
    (m.write pa b).read k = if k = pa then b else m.read k := Cells.get_set (Memory.wf_iff.1 h).1 _ _ _

@[simp] theorem Memory.read_setFull (m : Memory) (pa k : Nat) (b : Bool) : (m.setFull pa b).read k = m.read k := rfl

/-! ### Accesses -/

theorem wf_writePA {s : State} (pa : Nat) (bs : List Byte) (h : s.mem.wf = true) : (s.writePA pa bs).mem.wf = true :=
  Memory.wf_writeN pa bs h

/-- Keeping a translation changes caches only. -/
@[simp] theorem fillCaches_mem (s : State) (g : Agent) (p : Page) : (fillCaches s g p).mem = s.mem := by
  unfold fillCaches; split
  · rfl
  · dsimp only; split <;> rfl

@[simp] theorem fillParts_mem (s : State) (g : Agent) (parts : List Part) : (fillParts s g parts).mem = s.mem := by
  unfold fillParts
  exact foldl_keeps (P := fun t : State => t.mem = s.mem) _
    (fun t q ht => by split <;> simp [ht]) _ rfl

/-- A conflict marks transactions and leaves memory. -/
@[simp] theorem touchTx_mem (s : State) (g : Agent) (pa n : Nat) (writes : Bool) : (touchTx s g pa n writes).mem = s.mem := by
  have marked (l : List Nat) (f : Wave → Wave) : (l.foldl (fun s i => s.updWave i f) s).mem = s.mem :=
    foldl_keeps (P := fun t : State => t.mem = s.mem) _ (fun t i ht => by simp [ht]) _ rfl
  unfold touchTx
  simp only
  split_ifs
  · exact marked _ _
  · cases g.wave <;> rfl

/-- A read leaves memory. -/
@[simp] theorem readRange_mem (s : State) (g : Agent) (pa n : Nat) : (readRange s g pa n).1.mem = s.mem := by
  unfold readRange; dsimp only; split <;> simp

@[simp] theorem readParts_mem (s : State) (g : Agent) (parts : List Part) : (readParts s g parts).1.mem = s.mem := by
  unfold readParts
  exact foldl_keeps (P := fun a : State × List Byte => a.1.mem = s.mem) _ (fun a r ha => by simp [ha]) _ (by simp)

theorem wf_writeRange {s : State} (g : Agent) (pa : Nat) (bs : List Byte) (h : s.mem.wf = true) :
    (writeRange s g pa bs).mem.wf = true := by
  unfold writeRange; dsimp only; split
  · simpa using h
  · exact wf_writePA _ _ (by simpa using h)

@[simp] theorem notePages_mem (s : State) (g : Agent) (parts : List Part) : (notePages s g parts).mem = s.mem := by
  unfold notePages; split <;> rfl

theorem wf_writeParts {s : State} (g : Agent) (parts : List Part) (bs : List Byte) (h : s.mem.wf = true) :
    (writeParts s g parts bs).mem.wf = true := by
  unfold writeParts
  have h1 := foldl_keeps (P := fun a : State × List Byte => a.1.mem.wf = true)
    (fun acc r => (writeRange acc.1 g r.1 (acc.2.take r.2), acc.2.drop r.2)) (fun a r ha => wf_writeRange _ _ _ ha)
    (partRanges parts) (a := (fillParts s g parts, bs)) (by simpa using h)
  dsimp only
  split
  · rw [notePages_mem]; exact h1
  · exact h1

theorem wf_rangeWrite {s : State} (g : Agent) (va : Nat) (bs : List Byte) (h : s.mem.wf = true) :
    (rangeWrite s g va bs).mem.wf = true := by
  unfold rangeWrite
  refine foldl_keeps (P := fun a : State × List Byte => a.1.mem.wf = true) _ (fun a c ha => ?_) (chunks va bs.length)
    (a := (s, bs)) h
  exact wf_writeParts _ _ _ ha

theorem wf_privWrite {s : State} (ctx va : Nat) (bs : List Byte) (h : s.mem.wf = true) :
    (privWrite s ctx va bs).mem.wf = true := by
  unfold privWrite
  refine foldl_keeps (P := fun a : State × List Byte => a.1.mem.wf = true) _ (fun a c ha => ?_) _ h
  dsimp only; split
  · exact wf_writePA _ _ ha
  · exact ha

/-! ### Full bits and pages -/

@[simp] theorem watchReady_mem (s : State) : (watchReady s).mem = s.mem := rfl

theorem wf_setFullBit {s : State} (pa : Nat) (h : s.mem.wf = true) : (setFullBit s pa).mem.wf = true :=
  Memory.wf_setFull pa true h

theorem wf_writeEntry {s : State} (pa e : Nat) (h : s.mem.wf = true) : (writeEntry s pa e).mem.wf = true := wf_writePA _ _ h

theorem wf_copyUnits {m : NatSet} (src dst n : Nat) (h : Cells.wf false m = true) :
    Cells.wf false (copyUnits src dst n m) = true :=
  foldl_keeps (P := fun p => Cells.wf false p = true) _
    (fun p k hp => by split <;> first | exact NatSet.wf_add _ hp | exact hp) _ (Cells.wf_clear _ _ h)

theorem wf_copyPage {s : State} (src dst : Nat) (h : s.mem.wf = true) : (copyPage s src dst).mem.wf = true := by
  have h1 (bs : List Byte) := Memory.wf_iff.1 (wf_writePA dst bs h)
  simp only [copyPage, Memory.wf_iff]
  refine ⟨(h1 _).1, ?_, ?_⟩
  · apply wf_copyUnits; exact (h1 _).2.1
  · apply wf_copyUnits; exact (h1 _).2.2

/-- What a transaction wrote becomes visible (R217). -/
theorem wf_commitWrites {s : State} (rs : List (Nat × List Byte)) (h : s.mem.wf = true) :
    (rs.foldl (fun s r => s.writePA r.1 r.2) s).mem.wf = true :=
  foldl_keeps (P := fun t : State => t.mem.wf = true) _ (fun _ r ht => wf_writePA r.1 r.2 ht) _ h

/-- Memory is in its form at reset. -/
theorem wf_reset : State.reset.mem.wf = true := rfl

end Sys2Proof.Machine
end

