-- ==== Sys2Proof/Laws/PerInstr.lean ====
section
/-! SUPPORT. A statement about every instruction as syntax, one lemma per constructor: the form of its word (R69, R110). -/

namespace Sys2Proof.Laws.Encoding

open Sys2Proof

/-- Bit 62 of the word of an instruction says whether the word is a pair, and no word has the form 0b11 (R69, R81). -/
def Statement (i : Instr) : Prop :=
  ∀ ir w, encode ir i = some w → w.getLsbD 62 = i.pairOp.isSome ∧ (w.getLsbD 62 && w.getLsbD 63) = false

/-- The form of an F3 word. -/
theorem f3Form {opc p la d a b ma mb var} {w : W64} (h : some (f3Word opc p la d a b ma mb var) = some w) :
    w.getLsbD 62 = false ∧ (w.getLsbD 62 && w.getLsbD 63) = false := by
  cases h; constructor <;> simp only [f3Word, BitVec.getLsbD_cast, BitVec.getLsbD_append] <;> simp

/-- The form of an FI word. -/
theorem fiForm {opc p la d a var imm} {w : W64} (h : some (fiWord opc p la d a var imm) = some w) :
    w.getLsbD 62 = false ∧ (w.getLsbD 62 && w.getLsbD 63) = false := by
  cases h; constructor <;> simp only [fiWord, BitVec.getLsbD_cast, BitVec.getLsbD_append] <;> simp

/-- The form of a P2 word. -/
theorem p2Form {p x} {c : Option PairOp} {y} {w : W64} (h : c.map (fun op => p2Word p x op y) = some w) :
    w.getLsbD 62 = true ∧ (w.getLsbD 62 && w.getLsbD 63) = false := by
  obtain ⟨op, -, rfl⟩ := Option.map_eq_some_iff.1 h
  constructor <;> simp only [p2Word, BitVec.getLsbD_cast, BitVec.getLsbD_append] <;> simp

theorem smov (o : SUn) : Statement (.smov o) := fun _ _ h => f3Form h
theorem sli (o : SWide) : Statement (.sli o) := fun _ _ h => fiForm h
theorem slix (o : SWide) : Statement (.slix o) := fun _ _ h => fiForm h
theorem sadd (o : SBinT) : Statement (.sadd o) := fun _ _ h => f3Form h
theorem ssub (o : SBinT) : Statement (.ssub o) := fun _ _ h => f3Form h
theorem smul (o : SBinT) : Statement (.smul o) := fun _ _ h => f3Form h
theorem smulI (o : SImmT) : Statement (.smulI o) := fun _ _ h => fiForm h
theorem smulh (o : SBinT) : Statement (.smulh o) := fun _ _ h => f3Form h
theorem sdiv (o : SBinT) : Statement (.sdiv o) := fun _ _ h => f3Form h
theorem srem (o : SBinT) : Statement (.srem o) := fun _ _ h => f3Form h
theorem sand (o : SBin) : Statement (.sand o) := fun _ _ h => f3Form h
theorem sandI (o : SImm) : Statement (.sandI o) := fun _ _ h => fiForm h
theorem sor (o : SBin) : Statement (.sor o) := fun _ _ h => f3Form h
theorem sorI (o : SImm) : Statement (.sorI o) := fun _ _ h => fiForm h
theorem sxor (o : SBin) : Statement (.sxor o) := fun _ _ h => f3Form h
theorem sxorI (o : SImm) : Statement (.sxorI o) := fun _ _ h => fiForm h
theorem sshl (o : SBinT) : Statement (.sshl o) := fun _ _ h => f3Form h
theorem sshlI (o : SImmT) : Statement (.sshlI o) := fun _ _ h => fiForm h
theorem sshr (o : SBinT) : Statement (.sshr o) := fun _ _ h => f3Form h
theorem sshrI (o : SImmT) : Statement (.sshrI o) := fun _ _ h => fiForm h
theorem ssra (o : SBinT) : Statement (.ssra o) := fun _ _ h => f3Form h
theorem ssraI (o : SImmT) : Statement (.ssraI o) := fun _ _ h => fiForm h
theorem smin (o : SBinT) : Statement (.smin o) := fun _ _ h => f3Form h
theorem sminI (o : SImmT) : Statement (.sminI o) := fun _ _ h => fiForm h
theorem smax (o : SBinT) : Statement (.smax o) := fun _ _ h => f3Form h
theorem smaxI (o : SImmT) : Statement (.smaxI o) := fun _ _ h => fiForm h
theorem scmp (o : SCmp) : Statement (.scmp o) := fun _ _ h => f3Form h
theorem scmpI (o : SCmpI) : Statement (.scmpI o) := fun _ _ h => fiForm h
theorem ssel (o : SBin) : Statement (.ssel o) := fun _ _ h => f3Form h
theorem spopc (o : SUnT) : Statement (.spopc o) := fun _ _ h => f3Form h
theorem sclz (o : SUnT) : Statement (.sclz o) := fun _ _ h => f3Form h
theorem saddi (o : SImmT) : Statement (.saddi o) := fun _ _ h => fiForm h
theorem mfsr (p : Pred) (d : SReg) (idx : BitVec 8) : Statement (.mfsr p d idx) := fun _ _ h => f3Form h
theorem mtsr (p : Pred) (idx : BitVec 8) (a : SReg) : Statement (.mtsr p idx a) := fun _ _ h => f3Form h
theorem srdv (p : Pred) (d : SReg) (va : VReg) (sb : SReg) : Statement (.srdv p d va sb) := fun _ _ h => f3Form h
theorem srdvI (p : Pred) (d : SReg) (va : VReg) (n : BitVec 5) : Statement (.srdvI p d va n) := fun _ _ h => fiForm h
theorem swrv (p : Pred) (vd : VReg) (sa : SReg) (sb : SReg) : Statement (.swrv p vd sa sb) := fun _ _ h => f3Form h
theorem swrvI (p : Pred) (vd : VReg) (sa : SReg) (n : BitVec 5) : Statement (.swrvI p vd sa n) := fun _ _ h => fiForm h
theorem mtm (p : Pred) (md : MReg) (sa : SReg) : Statement (.mtm p md sa) := fun _ _ h => f3Form h
theorem mfm (p : Pred) (d : SReg) (ma : MReg) : Statement (.mfm p d ma) := fun _ _ h => f3Form h
theorem mand (o : MBin) : Statement (.mand o) := fun _ _ h => f3Form h
theorem mor (o : MBin) : Statement (.mor o) := fun _ _ h => f3Form h
theorem mxor (o : MBin) : Statement (.mxor o) := fun _ _ h => f3Form h
theorem mnot (p : Pred) (md : MReg) (ma : MReg) : Statement (.mnot p md ma) := fun _ _ h => f3Form h
theorem mcnt (p : Pred) (d : SReg) (ma : MReg) : Statement (.mcnt p d ma) := fun _ _ h => f3Form h
theorem vmov (o : VUn) : Statement (.vmov o) := fun _ _ h => f3Form h
theorem vli (p : Pred) (t : EType) (d : VReg) (imm : BitVec 17) : Statement (.vli p t d imm) := fun _ _ h => fiForm h
theorem vadd (o : VBin) : Statement (.vadd o) := fun _ _ h => f3Form h
theorem vaddI (o : VImm) : Statement (.vaddI o) := fun _ _ h => fiForm h
theorem vsub (o : VBin) : Statement (.vsub o) := fun _ _ h => f3Form h
theorem vsubI (o : VImm) : Statement (.vsubI o) := fun _ _ h => fiForm h
theorem vmul (o : VBin) : Statement (.vmul o) := fun _ _ h => f3Form h
theorem vmulI (o : VImm) : Statement (.vmulI o) := fun _ _ h => fiForm h
theorem vmulh (o : VBin) : Statement (.vmulh o) := fun _ _ h => f3Form h
theorem vmad (o : VBin) : Statement (.vmad o) := fun _ _ h => f3Form h
theorem vmin (o : VBin) : Statement (.vmin o) := fun _ _ h => f3Form h
theorem vminI (o : VImm) : Statement (.vminI o) := fun _ _ h => fiForm h
theorem vmax (o : VBin) : Statement (.vmax o) := fun _ _ h => f3Form h
theorem vmaxI (o : VImm) : Statement (.vmaxI o) := fun _ _ h => fiForm h
theorem vabsd (o : VBin) : Statement (.vabsd o) := fun _ _ h => f3Form h
theorem vand (o : VBin) : Statement (.vand o) := fun _ _ h => f3Form h
theorem vandI (o : VImm) : Statement (.vandI o) := fun _ _ h => fiForm h
theorem vor (o : VBin) : Statement (.vor o) := fun _ _ h => f3Form h
theorem vorI (o : VImm) : Statement (.vorI o) := fun _ _ h => fiForm h
theorem vxor (o : VBin) : Statement (.vxor o) := fun _ _ h => f3Form h
theorem vxorI (o : VImm) : Statement (.vxorI o) := fun _ _ h => fiForm h
theorem vshl (o : VBin) : Statement (.vshl o) := fun _ _ h => f3Form h
theorem vshlI (o : VImm) : Statement (.vshlI o) := fun _ _ h => fiForm h
theorem vshr (o : VBin) : Statement (.vshr o) := fun _ _ h => f3Form h
theorem vshrI (o : VImm) : Statement (.vshrI o) := fun _ _ h => fiForm h
theorem vsra (o : VBin) : Statement (.vsra o) := fun _ _ h => f3Form h
theorem vsraI (o : VImm) : Statement (.vsraI o) := fun _ _ h => fiForm h
theorem vpopc (o : VUn) : Statement (.vpopc o) := fun _ _ h => f3Form h
theorem vclz (o : VUn) : Statement (.vclz o) := fun _ _ h => f3Form h
theorem vcmp (o : VCmp) : Statement (.vcmp o) := fun _ _ h => f3Form h
theorem vcmpI (o : VCmpI) : Statement (.vcmpI o) := fun _ _ h => fiForm h
theorem vsel (o : VBin) : Statement (.vsel o) := fun _ _ h => f3Form h
theorem vadds (o : VBin) : Statement (.vadds o) := fun _ _ h => f3Form h
theorem vaddsI (o : VImm) : Statement (.vaddsI o) := fun _ _ h => fiForm h
theorem vsubs (o : VBin) : Statement (.vsubs o) := fun _ _ h => f3Form h
theorem vsubsI (o : VImm) : Statement (.vsubsI o) := fun _ _ h => fiForm h
theorem vdot4 (o : VBin) : Statement (.vdot4 o) := fun _ _ h => f3Form h
theorem vbfx (o : VField) : Statement (.vbfx o) := fun _ _ h => f3Form h
theorem vbfi (o : VField) : Statement (.vbfi o) := fun _ _ h => f3Form h
theorem vlane (p : Pred) (d : VReg) : Statement (.vlane p d) := fun _ _ h => f3Form h
theorem vfadd (o : VBin) : Statement (.vfadd o) := fun _ _ h => f3Form h
theorem vfaddI (o : VImm) : Statement (.vfaddI o) := fun _ _ h => fiForm h
theorem vfsub (o : VBin) : Statement (.vfsub o) := fun _ _ h => f3Form h
theorem vfsubI (o : VImm) : Statement (.vfsubI o) := fun _ _ h => fiForm h
theorem vfmul (o : VBin) : Statement (.vfmul o) := fun _ _ h => f3Form h
theorem vfmulI (o : VImm) : Statement (.vfmulI o) := fun _ _ h => fiForm h
theorem vfma (o : VBin) : Statement (.vfma o) := fun _ _ h => f3Form h
theorem vfmin (o : VBin) : Statement (.vfmin o) := fun _ _ h => f3Form h
theorem vfminI (o : VImm) : Statement (.vfminI o) := fun _ _ h => fiForm h
theorem vfmax (o : VBin) : Statement (.vfmax o) := fun _ _ h => f3Form h
theorem vfmaxI (o : VImm) : Statement (.vfmaxI o) := fun _ _ h => fiForm h
theorem vfcmp (o : VFCmp) : Statement (.vfcmp o) := fun _ _ h => f3Form h
theorem vfcmpI (o : VFCmpI) : Statement (.vfcmpI o) := fun _ _ h => fiForm h
theorem vfcls (o : VUn) : Statement (.vfcls o) := fun _ _ h => f3Form h
theorem vfrnd (o : VUn) (rm : RndSel) : Statement (.vfrnd o rm) := fun _ _ h => f3Form h
theorem vadd2 (o : VBin) : Statement (.vadd2 o) := fun _ _ h => f3Form h
theorem vfma2 (o : VBin) : Statement (.vfma2 o) := fun _ _ h => f3Form h
theorem vrcp (o : SpecOp) : Statement (.vrcp o) := fun _ _ h => f3Form h
theorem vrsq (o : SpecOp) : Statement (.vrsq o) := fun _ _ h => f3Form h
theorem vsqrt (o : SpecOp) : Statement (.vsqrt o) := fun _ _ h => f3Form h
theorem vexp2 (o : SpecOp) : Statement (.vexp2 o) := fun _ _ h => f3Form h
theorem vlog2 (o : SpecOp) : Statement (.vlog2 o) := fun _ _ h => f3Form h
theorem vtanh (o : SpecOp) : Statement (.vtanh o) := fun _ _ h => f3Form h
theorem vsigm (o : SpecOp) : Statement (.vsigm o) := fun _ _ h => f3Form h
theorem vsinpi (o : SpecOp) : Statement (.vsinpi o) := fun _ _ h => f3Form h
theorem vcospi (o : SpecOp) : Statement (.vcospi o) := fun _ _ h => f3Form h
theorem vcvt (o : Cvt) : Statement (.vcvt o) := fun _ _ h => f3Form h
theorem vcvq4 (p : Pred) (d : VReg) (a : VReg) (sb : SReg) : Statement (.vcvq4 p d a sb) := fun _ _ h => f3Form h
theorem vdq4 (p : Pred) (d : VReg) (a : VReg) (sb : SReg) : Statement (.vdq4 p d a sb) := fun _ _ h => f3Form h
theorem vscl (o : VBin) : Statement (.vscl o) := fun _ _ h => f3Form h
theorem vsclI (p : Pred) (t : EType) (d : VReg) (a : VReg) (code : BitVec 8) : Statement (.vsclI p t d a code) := fun _ _ h => fiForm h
theorem vgscl (p : Pred) (d : VReg) (a : VReg) : Statement (.vgscl p d a) := fun _ _ h => f3Form h
theorem vfdot2 (o : VBin) : Statement (.vfdot2 o) := fun _ _ h => f3Form h
theorem vdot16 (p : Pred) (d : VReg) (a : VReg) (b : VReg) : Statement (.vdot16 p d a b) := fun _ _ h => f3Form h
theorem vrope3 (p : Pred) (la : BitVec 4) (d : VReg) (a : VReg) : Statement (.vrope3 p la d a) := fun _ _ h => f3Form h
theorem vshuf (o : VBin) : Statement (.vshuf o) := fun _ _ h => f3Form h
theorem vbcast (o : LaneSel) : Statement (.vbcast o) := fun _ _ h => f3Form h
theorem vbcastI (o : LaneImm) : Statement (.vbcastI o) := fun _ _ h => fiForm h
theorem vrot (o : LaneSel) : Statement (.vrot o) := fun _ _ h => f3Form h
theorem vrotI (o : LaneImm) : Statement (.vrotI o) := fun _ _ h => fiForm h
theorem vred (o : RedOp) : Statement (.vred o) := fun _ _ h => f3Form h
theorem vscan (o : RedOp) : Statement (.vscan o) := fun _ _ h => f3Form h
theorem vsegred (o : SegOp) : Statement (.vsegred o) := fun _ _ h => f3Form h
theorem vsegscan (o : SegOp) : Statement (.vsegscan o) := fun _ _ h => f3Form h
theorem vconfl (p : Pred) (t : EType) (md : MReg) (a : VReg) : Statement (.vconfl p t md a) := fun _ _ h => f3Form h
theorem vdupadd (p : Pred) (t : EType) (d : VReg) (a : VReg) (b : VReg) : Statement (.vdupadd p t d a b) := fun _ _ h => f3Form h
theorem vbal (p : Pred) (idx : Bool) (md : MReg) (a : VReg) (b : VReg) : Statement (.vbal p idx md a b) := fun _ _ h => f3Form h
theorem visect (p : Pred) (t : EType) (d : VReg) (a : VReg) (b : VReg) : Statement (.visect p t d a b) := fun _ _ h => f3Form h
theorem vmrg (p : Pred) (uns : Bool) (hi : Bool) (idx : Bool) (d : VReg) (a : VReg) (b : VReg) : Statement (.vmrg p uns hi idx d a b) := fun _ _ h => f3Form h
theorem vcmpr (p : Pred) (d : VReg) (a : VReg) (mb : MReg) : Statement (.vcmpr p d a mb) := fun _ _ h => f3Form h
theorem vexpd (p : Pred) (d : VReg) (a : VReg) (mb : MReg) : Statement (.vexpd p d a mb) := fun _ _ h => f3Form h
theorem vballot (p : Pred) (md : MReg) (a : VReg) : Statement (.vballot p md a) := fun _ _ h => f3Form h
theorem vany (p : Pred) (all : Bool) (md : MReg) (a : VReg) : Statement (.vany p all md a) := fun _ _ h => f3Form h
theorem kvslot (p : Pred) (la : BitVec 4) (d : VReg) (a : VReg) (sb : SReg) (md : MReg) : Statement (.kvslot p la d a sb md) := fun _ _ h => f3Form h
theorem vtriple (p : Pred) (la : BitVec 4) (d : VReg) (a : VReg) (n : BitVec 3) : Statement (.vtriple p la d a n) := fun _ _ h => f3Form h
theorem tokroute (p : Pred) (la : BitVec 4) (d : VReg) (a : VReg) (sb : SReg) : Statement (.tokroute p la d a sb) := fun _ _ h => f3Form h
theorem vld (o : VMem) : Statement (.vld o) := fun _ _ h => f3Form h
theorem vldI (o : VMemI) : Statement (.vldI o) := fun _ _ h => fiForm h
theorem vst (o : VMem) : Statement (.vst o) := fun _ _ h => f3Form h
theorem vstI (o : VMemI) : Statement (.vstI o) := fun _ _ h => fiForm h
theorem vldb (o : BMem) : Statement (.vldb o) := fun _ _ h => f3Form h
theorem vldbI (o : VMemI) : Statement (.vldbI o) := fun _ _ h => fiForm h
theorem vstb (o : BMem) : Statement (.vstb o) := fun _ _ h => f3Form h
theorem vstbI (o : VMemI) : Statement (.vstbI o) := fun _ _ h => fiForm h
theorem sld (o : SMem) : Statement (.sld o) := fun _ _ h => f3Form h
theorem sldI (o : SMemI) : Statement (.sldI o) := fun _ _ h => fiForm h
theorem sst (o : SMem) : Statement (.sst o) := fun _ _ h => f3Form h
theorem sstI (o : SMemI) : Statement (.sstI o) := fun _ _ h => fiForm h
theorem vlds (o : VMem) : Statement (.vlds o) := fun _ _ h => f3Form h
theorem vldsI (o : VMemI) : Statement (.vldsI o) := fun _ _ h => fiForm h
theorem vsts (o : VMem) : Statement (.vsts o) := fun _ _ h => f3Form h
theorem vstsI (o : VMemI) : Statement (.vstsI o) := fun _ _ h => fiForm h
theorem vldq (o : VMem) : Statement (.vldq o) := fun _ _ h => f3Form h
theorem vldqI (o : VMemI) : Statement (.vldqI o) := fun _ _ h => fiForm h
theorem vstq (o : VMem) (a16 : Bool) : Statement (.vstq o a16) := fun _ _ h => f3Form h
theorem vstqI (o : VMemI) (a16 : Bool) : Statement (.vstqI o a16) := fun _ _ h => fiForm h
theorem splk (p : Pred) (d : SReg) (a : SReg) : Statement (.splk p d a) := fun _ _ h => f3Form h
theorem sptag (p : Pred) (a : SReg) (b : SReg) : Statement (.sptag p a b) := fun _ _ h => f3Form h
theorem sptagInv (p : Pred) (a : SReg) : Statement (.sptagInv p a) := fun _ _ h => f3Form h
theorem vatom (o : VMem) (op : AtomOp) : Statement (.vatom o op) := fun _ _ h => f3Form h
theorem satom (o : SMem) (op : AtomOp) : Statement (.satom o op) := fun _ _ h => f3Form h
theorem vatoms (o : VMem) (op : AtomOp) : Statement (.vatoms o op) := fun _ _ h => f3Form h
theorem vcas (o : VMem) : Statement (.vcas o) := fun _ _ h => f3Form h
theorem scas (o : SMem) : Statement (.scas o) := fun _ _ h => f3Form h
theorem lfull (o : FEOp) : Statement (.lfull o) := fun _ _ h => f3Form h
theorem lfullTake (o : FEOp) : Statement (.lfullTake o) := fun _ _ h => f3Form h
theorem sfull (o : FEOp) : Statement (.sfull o) := fun _ _ h => f3Form h
theorem sfullNb (o : FEOp) (md : MReg) : Statement (.sfullNb o md) := fun _ _ h => f3Form h
theorem fempty (o : FEOp) : Statement (.fempty o) := fun _ _ h => f3Form h
theorem fence (p : Pred) (kind : FenceKind) (scope : FenceScope) (eng : Bool) : Statement (.fence p kind scope eng) := fun _ _ h => f3Form h
theorem txbegin (p : Pred) (dist : BitVec 11) (cl : Bool) : Statement (.txbegin p dist cl) := fun _ _ h => f3Form h
theorem forkpg (p : Pred) (la : BitVec 4) (d : SReg) (a : SReg) (b : SReg) : Statement (.forkpg p la d a b) := fun _ _ h => f3Form h
theorem movtc (p : Pred) (la : BitVec 4) (td : TileReg) (sa : SReg) : Statement (.movtc p la td sa) := fun _ _ h => f3Form h
theorem movftc (p : Pred) (la : BitVec 4) (d : SReg) (ta : TileReg) : Statement (.movftc p la d ta) := fun _ _ h => f3Form h
theorem tld (p : Pred) (la : BitVec 4) (td : TileReg) (sa : SReg) : Statement (.tld p la td sa) := fun _ _ h => f3Form h
theorem tst (p : Pred) (la : BitVec 4) (sa : SReg) (tb : TileReg) : Statement (.tst p la sa tb) := fun _ _ h => f3Form h
theorem tzero (p : Pred) (la : BitVec 4) (td : TileReg) : Statement (.tzero p la td) := fun _ _ h => f3Form h
theorem tldv (p : Pred) (la : BitVec 4) (td : TileReg) (va : VReg) (sb : SReg) : Statement (.tldv p la td va sb) := fun _ _ h => f3Form h
theorem mma (o : MmaOp) : Statement (.mma o) := fun _ _ h => f3Form h
theorem mbin (o : MmaOp) (op : BinOp) : Statement (.mbin o op) := fun _ _ h => f3Form h
theorem mrule (p : Pred) (la : BitVec 4) (epi : Bool) (slotNo : BitVec 3) (sa : SReg) (sb : SReg) : Statement (.mrule p la epi slotNo sa sb) := fun _ _ h => f3Form h
theorem mrec (o : RecOp) (ac : Option FrameReg) (tb : Bool) : Statement (.mrec o ac tb) := fun _ _ h => f3Form h
theorem mbwd (o : RecOp) (ah : FrameReg) : Statement (.mbwd o ah) := fun _ _ h => f3Form h
theorem mepi (p : Pred) (la : BitVec 4) (ad : FrameReg) (af : FrameReg) (sc : SReg) : Statement (.mepi p la ad af sc) := fun _ _ h => f3Form h
theorem azero (p : Pred) (la : BitVec 4) (ad : FrameReg) : Statement (.azero p la ad) := fun _ _ h => f3Form h
theorem ald (p : Pred) (la : BitVec 4) (sp : Bool) (ad : FrameReg) (sa : SReg) (sb : SReg) : Statement (.ald p la sp ad sa sb) := fun _ _ h => f3Form h
theorem ast (p : Pred) (la : BitVec 4) (sp : Bool) (sa : SReg) (af : FrameReg) (sb : SReg) : Statement (.ast p la sp sa af sb) := fun _ _ h => f3Form h
theorem amov (p : Pred) (la : BitVec 4) (ad : FrameReg) (af : FrameReg) : Statement (.amov p la ad af) := fun _ _ h => f3Form h
theorem acalloc (p : Pred) (la : BitVec 4) (d : SReg) (sa : SReg) : Statement (.acalloc p la d sa) := fun _ _ h => f3Form h
theorem acallocNb (p : Pred) (la : BitVec 4) (d : SReg) (sa : SReg) : Statement (.acallocNb p la d sa) := fun _ _ h => f3Form h
theorem acfree (p : Pred) (la : BitVec 4) (sa : SReg) : Statement (.acfree p la sa) := fun _ _ h => f3Form h
theorem eld (p : Pred) (la : BitVec 4) (sp : Bool) (ed : EdgeReg) (sa : SReg) : Statement (.eld p la sp ed sa) := fun _ _ h => f3Form h
theorem est (p : Pred) (la : BitVec 4) (sp : Bool) (sa : SReg) (eb : EdgeReg) : Statement (.est p la sp sa eb) := fun _ _ h => f3Form h
theorem stexp (p : Pred) (la : BitVec 4) (vd : VReg) (sa : SReg) (sb : SReg) : Statement (.stexp p la vd sa sb) := fun _ _ h => f3Form h
theorem stimp (p : Pred) (la : BitVec 4) (vd : VReg) (sa : SReg) (sb : SReg) : Statement (.stimp p la vd sa sb) := fun _ _ h => f3Form h
theorem cpy (o : CopyOp) (out : Bool) : Statement (.cpy o out) := fun _ _ h => f3Form h
theorem cgath (o : CopyOp) (fmt : BitVec 4) : Statement (.cgath o fmt) := fun _ _ h => f3Form h
theorem cscat (o : CopyOp) (fmt : BitVec 4) : Statement (.cscat o fmt) := fun _ _ h => f3Form h
theorem cexp (o : CopyOp) (fmt : BitVec 4) : Statement (.cexp o fmt) := fun _ _ h => f3Form h
theorem cpack (o : CopyOp) (fmt : BitVec 4) : Statement (.cpack o fmt) := fun _ _ h => f3Form h
theorem cpost (p : Pred) (la : BitVec 4) (sa : SReg) : Statement (.cpost p la sa) := fun _ _ h => f3Form h
theorem cpostBind (p : Pred) (la : BitVec 4) (sa : SReg) : Statement (.cpostBind p la sa) := fun _ _ h => f3Form h
theorem waittkReg (p : Pred) (sa : SReg) : Statement (.waittkReg p sa) := fun _ _ h => f3Form h
theorem tkintReg (p : Pred) (group : Bool) (sa : SReg) : Statement (.tkintReg p group sa) := fun _ _ h => f3Form h
theorem chain (p : Pred) (la : BitVec 4) (sa : SReg) (sb : SReg) : Statement (.chain p la sa sb) := fun _ _ h => f3Form h
theorem chwait (p : Pred) (sa : SReg) (sb : SReg) : Statement (.chwait p sa sb) := fun _ _ h => f3Form h
theorem gjoin (p : Pred) (d : SReg) (sa : SReg) : Statement (.gjoin p d sa) := fun _ _ h => f3Form h
theorem gbarRole (p : Pred) (sa : SReg) : Statement (.gbarRole p sa) := fun _ _ h => f3Form h
theorem gbarRoleI (p : Pred) (role : BitVec 3) : Statement (.gbarRoleI p role) := fun _ _ h => fiForm h
theorem gbarRows (p : Pred) (sa : SReg) : Statement (.gbarRows p sa) := fun _ _ h => f3Form h
theorem gbarRowsI (p : Pred) (n : BitVec 17) : Statement (.gbarRowsI p n) := fun _ _ h => fiForm h
theorem vsync (p : Pred) (va : VReg) : Statement (.vsync p va) := fun _ _ h => f3Form h
theorem gelect (p : Pred) (md : MReg) (sa : SReg) : Statement (.gelect p md sa) := fun _ _ h => f3Form h
theorem gelectI (p : Pred) (md : MReg) (role : BitVec 3) : Statement (.gelectI p md role) := fun _ _ h => fiForm h
theorem spawn (p : Pred) (la : BitVec 4) (sa : SReg) : Statement (.spawn p la sa) := fun _ _ h => f3Form h
theorem spawnPipe (p : Pred) (la : BitVec 4) (sa : SReg) : Statement (.spawnPipe p la sa) := fun _ _ h => f3Form h
theorem qpush (p : Pred) (la : BitVec 4) (sa : SReg) (sb : SReg) : Statement (.qpush p la sa sb) := fun _ _ h => f3Form h
theorem qpushClose (p : Pred) (la : BitVec 4) (sa : SReg) : Statement (.qpushClose p la sa) := fun _ _ h => f3Form h
theorem qpop (p : Pred) (la : BitVec 4) (d : SReg) (md : MReg) (sa : SReg) : Statement (.qpop p la d md sa) := fun _ _ h => f3Form h
theorem tmerge (p : Pred) (la : BitVec 4) (d : SReg) (sa : SReg) : Statement (.tmerge p la d sa) := fun _ _ h => f3Form h
theorem tunmerge (p : Pred) (la : BitVec 4) (sa : SReg) : Statement (.tunmerge p la sa) := fun _ _ h => f3Form h
theorem swmv (p : Pred) (la : BitVec 4) (d : SReg) (sa : SReg) : Statement (.swmv p la d sa) := fun _ _ h => f3Form h
theorem swmig (p : Pred) (la : BitVec 4) (d : SReg) (sa : SReg) (sb : SReg) : Statement (.swmig p la d sa sb) := fun _ _ h => f3Form h
theorem swage (p : Pred) (la : BitVec 4) (sa : SReg) : Statement (.swage p la sa) := fun _ _ h => f3Form h
theorem xput (p : Pred) (la : BitVec 4) (tok : Tok) (sa : SReg) : Statement (.xput p la tok sa) := fun _ _ h => f3Form h
theorem xgetB64 (p : Pred) (la : BitVec 4) (d : SReg) (sa : SReg) : Statement (.xgetB64 p la d sa) := fun _ _ h => f3Form h
theorem xgetBlk (p : Pred) (la : BitVec 4) (sa : SReg) : Statement (.xgetBlk p la sa) := fun _ _ h => f3Form h
theorem xsig (p : Pred) (la : BitVec 4) (op : SigOp) (tok : Tok) (sa : SReg) (sb : SReg) : Statement (.xsig p la op tok sa sb) := fun _ _ h => f3Form h
theorem xcoll (p : Pred) (la : BitVec 4) (sa : SReg) : Statement (.xcoll p la sa) := fun _ _ h => f3Form h
theorem xwait (p : Pred) (sa : SReg) : Statement (.xwait p sa) := fun _ _ h => f3Form h
theorem br (p : Pred) (dist : BitVec 11) (off : BitVec 28) : Statement (.br p dist off) := fun _ _ h => fiForm h
theorem bru (p : Pred) (off : BitVec 28) : Statement (.bru p off) := fun _ _ h => fiForm h
theorem jmp (p : Pred) (off : BitVec 28) : Statement (.jmp p off) := fun _ _ h => fiForm h
theorem jmpReg (p : Pred) (sa : SReg) : Statement (.jmpReg p sa) := fun _ _ h => f3Form h
theorem call (p : Pred) (d : SReg) (off : BitVec 28) : Statement (.call p d off) := fun _ _ h => fiForm h
theorem callReg (p : Pred) (d : SReg) (sa : SReg) : Statement (.callReg p d sa) := fun _ _ h => f3Form h
theorem ret (p : Pred) (sa : SReg) : Statement (.ret p sa) := fun _ _ h => f3Form h
theorem loop (p : Pred) (d : SReg) (off : BitVec 28) : Statement (.loop p d off) := fun _ _ h => fiForm h
theorem tlbinv (p : Pred) (sa : SReg) (sb : SReg) : Statement (.tlbinv p sa sb) := fun _ _ h => f3Form h
theorem nop : Statement .nop := fun _ _ h => f3Form h
theorem wakeResume : Statement .wakeResume := fun _ _ h => nomatch h
theorem wakeKill : Statement .wakeKill := fun _ _ h => nomatch h
theorem txend : Statement .txend := fun _ _ h => f3Form h
theorem txabort : Statement .txabort := fun _ _ h => fiForm h
theorem mwait : Statement .mwait := fun _ _ h => f3Form h
theorem waittk : Statement .waittk := fun _ _ h => fiForm h
theorem tkint : Statement .tkint := fun _ _ h => fiForm h
theorem uiret : Statement .uiret := fun _ _ h => f3Form h
theorem gleave : Statement .gleave := fun _ _ h => f3Form h
theorem gbar : Statement .gbar := fun _ _ h => f3Form h
theorem ckpt : Statement .ckpt := fun _ _ h => f3Form h
theorem tdone : Statement .tdone := fun _ _ h => f3Form h
theorem exit : Statement .exit := fun _ _ h => f3Form h
theorem trap : Statement .trap := fun _ _ h => fiForm h
theorem brk : Statement .brk := fun _ _ h => f3Form h
theorem eret : Statement .eret := fun _ _ h => f3Form h
theorem halt : Statement .halt := fun _ _ h => f3Form h
theorem smovPair : Statement .smovPair := fun _ _ h => p2Form h
theorem saddPair : Statement .saddPair := fun _ _ h => p2Form h
theorem ssubPair : Statement .ssubPair := fun _ _ h => p2Form h
theorem smulPair : Statement .smulPair := fun _ _ h => p2Form h
theorem sandPair : Statement .sandPair := fun _ _ h => p2Form h
theorem sorPair : Statement .sorPair := fun _ _ h => p2Form h
theorem sxorPair : Statement .sxorPair := fun _ _ h => p2Form h
theorem sshlPair : Statement .sshlPair := fun _ _ h => p2Form h
theorem sshrPair : Statement .sshrPair := fun _ _ h => p2Form h
theorem ssraPair : Statement .ssraPair := fun _ _ h => p2Form h
theorem sminPair : Statement .sminPair := fun _ _ h => p2Form h
theorem smaxPair : Statement .smaxPair := fun _ _ h => p2Form h
theorem spopcPair : Statement .spopcPair := fun _ _ h => p2Form h
theorem sclzPair : Statement .sclzPair := fun _ _ h => p2Form h
theorem mandPair : Statement .mandPair := fun _ _ h => p2Form h
theorem morPair : Statement .morPair := fun _ _ h => p2Form h
theorem mxorPair : Statement .mxorPair := fun _ _ h => p2Form h
theorem mnotPair : Statement .mnotPair := fun _ _ h => p2Form h
theorem vmovPair : Statement .vmovPair := fun _ _ h => p2Form h
theorem vaddPair : Statement .vaddPair := fun _ _ h => p2Form h
theorem vsubPair : Statement .vsubPair := fun _ _ h => p2Form h
theorem vmulPair : Statement .vmulPair := fun _ _ h => p2Form h
theorem vminPair : Statement .vminPair := fun _ _ h => p2Form h
theorem vmaxPair : Statement .vmaxPair := fun _ _ h => p2Form h
theorem vabsdPair : Statement .vabsdPair := fun _ _ h => p2Form h
theorem vandPair : Statement .vandPair := fun _ _ h => p2Form h
theorem vorPair : Statement .vorPair := fun _ _ h => p2Form h
theorem vxorPair : Statement .vxorPair := fun _ _ h => p2Form h
theorem vshlPair : Statement .vshlPair := fun _ _ h => p2Form h
theorem vshrPair : Statement .vshrPair := fun _ _ h => p2Form h
theorem vsraPair : Statement .vsraPair := fun _ _ h => p2Form h
theorem vpopcPair : Statement .vpopcPair := fun _ _ h => p2Form h
theorem vclzPair : Statement .vclzPair := fun _ _ h => p2Form h
theorem vaddsPair : Statement .vaddsPair := fun _ _ h => p2Form h
theorem vsubsPair : Statement .vsubsPair := fun _ _ h => p2Form h
theorem vfaddPair : Statement .vfaddPair := fun _ _ h => p2Form h
theorem vfsubPair : Statement .vfsubPair := fun _ _ h => p2Form h
theorem vfmulPair : Statement .vfmulPair := fun _ _ h => p2Form h
theorem vfminPair : Statement .vfminPair := fun _ _ h => p2Form h
theorem vfmaxPair : Statement .vfmaxPair := fun _ _ h => p2Form h
theorem txConflictAbort : Statement .txConflictAbort := fun _ _ h => nomatch h
theorem arrayOpStart : Statement .arrayOpStart := fun _ _ h => nomatch h
theorem arrayOpCommit : Statement .arrayOpCommit := fun _ _ h => nomatch h
theorem arrayResidueError : Statement .arrayResidueError := fun _ _ h => nomatch h
theorem arrayUncorrectable : Statement .arrayUncorrectable := fun _ _ h => nomatch h
theorem copyEntryStart : Statement .copyEntryStart := fun _ _ h => nomatch h
theorem copyCompletion : Statement .copyCompletion := fun _ _ h => nomatch h
theorem userInterruptDelivery : Statement .userInterruptDelivery := fun _ _ h => nomatch h
theorem cardStart : Statement .cardStart := fun _ _ h => nomatch h
theorem cardCompletion : Statement .cardCompletion := fun _ _ h => nomatch h
theorem queueAutoClose : Statement .queueAutoClose := fun _ _ h => nomatch h
theorem mergeCompletion : Statement .mergeCompletion := fun _ _ h => nomatch h
theorem swmvCompletion : Statement .swmvCompletion := fun _ _ h => nomatch h
theorem automaticAgeing : Statement .automaticAgeing := fun _ _ h => nomatch h
theorem splitInstantAct : Statement .splitInstantAct := fun _ _ h => nomatch h
theorem fabricTargetWrite : Statement .fabricTargetWrite := fun _ _ h => nomatch h
theorem fabricTargetSignal : Statement .fabricTargetSignal := fun _ _ h => nomatch h
theorem fabricTargetRead : Statement .fabricTargetRead := fun _ _ h => nomatch h
theorem xgetReply : Statement .xgetReply := fun _ _ h => nomatch h
theorem collectivePacket : Statement .collectivePacket := fun _ _ h => nomatch h
theorem collectiveCompletion : Statement .collectiveCompletion := fun _ _ h => nomatch h
theorem collectiveAbort : Statement .collectiveAbort := fun _ _ h => nomatch h
theorem flitCrcFail : Statement .flitCrcFail := fun _ _ h => nomatch h
theorem routeFailure : Statement .routeFailure := fun _ _ h => nomatch h
theorem laneFailure : Statement .laneFailure := fun _ _ h => nomatch h
theorem illegalWord : Statement .illegalWord := fun _ _ h => nomatch h
theorem longLatencyCompletion : Statement .longLatencyCompletion := fun _ _ h => nomatch h
theorem waveRelease : Statement .waveRelease := fun _ _ h => nomatch h
theorem groupHaltDelivery : Statement .groupHaltDelivery := fun _ _ h => nomatch h
theorem groupResume : Statement .groupResume := fun _ _ h => nomatch h
theorem preemptionRequest : Statement .preemptionRequest := fun _ _ h => nomatch h
theorem compatSwapOut : Statement .compatSwapOut := fun _ _ h => nomatch h
theorem pageFaultServiced : Statement .pageFaultServiced := fun _ _ h => nomatch h
theorem pageMapDeclined : Statement .pageMapDeclined := fun _ _ h => nomatch h
theorem replayLimit : Statement .replayLimit := fun _ _ h => nomatch h
theorem copyDone : Statement .copyDone := fun _ _ h => nomatch h
theorem copyFault : Statement .copyFault := fun _ _ h => nomatch h
theorem cardDone : Statement .cardDone := fun _ _ h => nomatch h
theorem trapRecord : Statement .trapRecord := fun _ _ h => nomatch h
theorem retired : Statement .retired := fun _ _ h => nomatch h
theorem blocked : Statement .blocked := fun _ _ h => nomatch h
theorem arrayReplay : Statement .arrayReplay := fun _ _ h => nomatch h
theorem eccCorrected : Statement .eccCorrected := fun _ _ h => nomatch h
theorem eccPoison : Statement .eccPoison := fun _ _ h => nomatch h
theorem uint : Statement .uint := fun _ _ h => nomatch h
theorem trapQueueRelease : Statement .trapQueueRelease := fun _ _ h => nomatch h
theorem singleBitError : Statement .singleBitError := fun _ _ h => nomatch h
theorem uncorrectableError : Statement .uncorrectableError := fun _ _ h => nomatch h
theorem machineCheck : Statement .machineCheck := fun _ _ h => nomatch h
theorem patrolScrub : Statement .patrolScrub := fun _ _ h => nomatch h
theorem pseudoChannelSparing : Statement .pseudoChannelSparing := fun _ _ h => nomatch h
theorem corePairRetirement : Statement .corePairRetirement := fun _ _ h => nomatch h
theorem clockThrottle : Statement .clockThrottle := fun _ _ h => nomatch h
theorem resetBoot : Statement .resetBoot := fun _ _ h => nomatch h
theorem dispatchRound : Statement .dispatchRound := fun _ _ h => nomatch h
theorem recordReserving : Statement .recordReserving := fun _ _ h => nomatch h
theorem launchDrain : Statement .launchDrain := fun _ _ h => nomatch h
theorem interruptCountReached : Statement .interruptCountReached := fun _ _ h => nomatch h
theorem interruptWindowExpiry : Statement .interruptWindowExpiry := fun _ _ h => nomatch h
theorem doorbell : Statement .doorbell := fun _ _ h => nomatch h
theorem kill : Statement .kill := fun _ _ h => nomatch h
theorem ctxctlLive : Statement .ctxctlLive := fun _ _ h => nomatch h
theorem ctxctlRetire : Statement .ctxctlRetire := fun _ _ h => nomatch h
theorem registerWrite : Statement .registerWrite := fun _ _ h => nomatch h
theorem hostAccess : Statement .hostAccess := fun _ _ h => nomatch h
theorem setnode : Statement .setnode := fun _ _ h => nomatch h
theorem setroute : Statement .setroute := fun _ _ h => nomatch h
theorem bindjobBind : Statement .bindjobBind := fun _ _ h => nomatch h
theorem bindjobUnbind : Statement .bindjobUnbind := fun _ _ h => nomatch h
theorem windowExport : Statement .windowExport := fun _ _ h => nomatch h
theorem windowUnexport : Statement .windowUnexport := fun _ _ h => nomatch h
theorem extendmr : Statement .extendmr := fun _ _ h => nomatch h
theorem attest : Statement .attest := fun _ _ h => nomatch h
theorem readport : Statement .readport := fun _ _ h => nomatch h
theorem fwstage : Statement .fwstage := fun _ _ h => nomatch h
theorem fwactivate : Statement .fwactivate := fun _ _ h => nomatch h
theorem raisesvn : Statement .raisesvn := fun _ _ h => nomatch h
theorem fabricCommandCompletion : Statement .fabricCommandCompletion := fun _ _ h => nomatch h
theorem linkTrained : Statement .linkTrained := fun _ _ h => nomatch h
theorem owlFirmwareReplaced : Statement .owlFirmwareReplaced := fun _ _ h => nomatch h

end Sys2Proof.Laws.Encoding
end

