-- ==== Sys2Proof/Laws/Words.lean ====
section
/-! SUPPORT. How a word ends: what `finish`, `runWord` and the operations over them do, each said once. -/

namespace Sys2Proof.Machine

/-! ### Waves of a state -/

@[simp] theorem State.setWave_same {s : State} {i : Nat} {w : Wave} (h : s.wave i = some w) : s.setWave i w = s := by
  obtain ⟨hi, hw⟩ := List.getElem?_eq_some_iff.1 h
  have e : s.waves.set i w = s.waves := by rw [← hw]; exact List.set_getElem_self hi
  simp only [State.setWave, e]

theorem State.wave_setWave {s : State} {i : Nat} {w : Wave} (x : Wave) (h : s.wave i = some w) :
    (s.setWave i x).wave i = some x := by
  obtain ⟨hi, -⟩ := List.getElem?_eq_some_iff.1 h
  simp [State.wave, State.setWave, hi]

theorem State.wave_setWave_other {s : State} {i j : Nat} (x : Wave) (h : i ≠ j) : (s.setWave i x).wave j = s.wave j := by
  simp [State.wave, State.setWave, h]

/-! ### Causes -/

/-- Every cause has its place in the list of codes. -/
theorem Causes.ofCode_code (c : Cause) : Causes.ofCode c.code = c := by cases c <;> rfl

@[simp] theorem settleRaises_nil : settleRaises [] = none := rfl

/-- One cause is taken as it was recorded. -/
theorem settleRaises_one (r : Raise) (h : r.detail ≤ 255) : settleRaises [r] = some r := by
  obtain ⟨cause, lanes, detail, addr, eng, declined, pairY⟩ := r
  simp only at h
  simp only [settleRaises, List.foldl_nil, List.filter_cons, beq_self_eq_true, if_true, List.filter_nil, List.foldl_cons,
    Causes.ofCode_code, List.any_cons, List.any_nil, Bool.or_false, List.all_cons, List.all_nil, Bool.and_true,
    Nat.min_eq_right h]
  cases hf : (List.range 32).find? (fun l => lanes.getLsbD l) with
  | none => simp [hf]
  | some l =>
    have hl := List.find?_some hf
    simp [hf, hl]

/-- Some cause is taken as soon as one was recorded. -/
theorem settleRaises_isSome (rs : List Raise) : (settleRaises rs).isSome = !rs.isEmpty := by cases rs <;> rfl

/-! ### The end of a word -/

theorem finish_done {s t : State} (h : s.raised = []) : finish s (.done t []) = .next (commit s t true) := by
  simp [finish, h]

theorem finish_placed {s t : State} (h : s.raised = []) : finish s (.placed t []) = .next (commit s t false) := by
  simp [finish, h]

theorem finish_wait {s t : State} {k : WaitKind} (h : s.raised = []) : finish s (.wait k t) = .next (waitWord s t k) := by
  simp [finish, h]

theorem finish_raise {s t : State} {rs : List Raise} {r : Raise} (h : s.raised = []) (hr : settleRaises rs = some r) :
    finish s (.done t rs) = .next (trapWord s t r) := by
  simp [finish, h, hr]

/-- A cause of the issue checks is taken, alone or with those of the meaning. -/
theorem finish_raised {s : State} {rs : Result} (h : s.raised ≠ []) : ∃ t r, finish s rs = .next (trapWord s t r) := by
  have some_of (l : List Raise) : ∃ r, settleRaises (s.raised ++ l) = some r := by
    apply Option.isSome_iff_exists.1
    rw [settleRaises_isSome]
    cases hs : s.raised <;> simp_all
  cases rs with
  | done t l => obtain ⟨r, hr⟩ := some_of l; exact ⟨t, r, by simp [finish, hr]⟩
  | placed t l => obtain ⟨r, hr⟩ := some_of l; exact ⟨t, r, by simp [finish, hr]⟩
  | wait k t =>
    obtain ⟨r, hr⟩ := some_of []
    rw [List.append_nil] at hr
    exact ⟨s, r, by simp [finish, hr]⟩

/-- The end of a word is always a next state: it completes, it waits, or it takes a trap. -/
theorem finish_next (s : State) (r : Result) : ∃ t, finish s r = .next t := by
  cases r <;> simp only [finish] <;> split <;> exact ⟨_, rfl⟩

theorem runWord_next {s : State} {w : Wave} (f : Wave → Result) (h : s.wave s.cur = some w) : runWord s f = finish s (f w) := by
  simp [runWord, h]

/-- A word stops only where no wave is current. -/
theorem runWord_cases (s : State) (f : Wave → Result) :
    (s.wave s.cur = none ∧ runWord s f = .fault .noWave) ∨ ∃ w t, s.wave s.cur = some w ∧ runWord s f = .next t := by
  cases h : s.wave s.cur with
  | none => exact .inl ⟨rfl, by simp [runWord, h]⟩
  | some w =>
    obtain ⟨t, ht⟩ := finish_next s (f w)
    exact .inr ⟨w, t, rfl, by rw [runWord_next f h, ht]⟩

/-! ### Words that execute once, and words that compute lane by lane -/

/-- Without an active lane a word has no effect and its slot goes on (R43). -/
theorem onceWord_idle {s : State} {w : Wave} {p : Pred} (f : Wave → Result) (h : s.wave s.cur = some w) (hr : s.raised = [])
    (ha : w.active s.slotB p = 0) : onceWord p s f = .next (commit s s true) := by
  rw [onceWord, runWord_next _ h, if_pos ha, finish_done hr]

theorem onceWord_active {s : State} {w : Wave} {p : Pred} (f : Wave → Result) (h : s.wave s.cur = some w)
    (ha : w.active s.slotB p ≠ 0) : onceWord p s f = finish s (f w) := by
  rw [onceWord, runWord_next _ h, if_neg ha]

/-- A word that changes its wave only. -/
theorem onceWord_doneWave {s : State} {w : Wave} {p : Pred} (g : Wave → Wave) (h : s.wave s.cur = some w) (hr : s.raised = []) :
    onceWord p s (fun w => doneWave s (g w)) =
      .next (commit s (s.setWave s.cur (if w.active s.slotB p = 0 then w else g w)) true) := by
  by_cases ha : w.active s.slotB p = 0
  · rw [onceWord_idle _ h hr ha, if_pos ha, State.setWave_same h]
  · rw [onceWord_active _ h ha, if_neg ha, doneWave, finish_done hr]

theorem scalarWord_next {s : State} {w : Wave} {p : Pred} (d : SReg) (g : Wave → W64) (h : s.wave s.cur = some w)
    (hr : s.raised = []) : scalarWord p s d g =
      .next (commit s (s.setWave s.cur (if w.active s.slotB p = 0 then w else w.setS d.toNat (g w))) true) :=
  onceWord_doneWave (fun w => w.setS d.toNat (g w)) h hr

theorem maskOnce_next {s : State} {w : Wave} {p : Pred} (d : MReg) (g : Wave → W32) (h : s.wave s.cur = some w)
    (hr : s.raised = []) : maskOnce p s d g =
      .next (commit s (s.setWave s.cur (if w.active s.slotB p = 0 then w else w.setM d.toNat (g w))) true) :=
  onceWord_doneWave (fun w => w.setM d.toNat (g w)) h hr

/-- A cause for the lanes of active(S) alone. -/
theorem finish_raiseActive {s : State} {w : Wave} {p : Pred} {c : Cause} {detail : Nat} (hr : s.raised = [])
    (h : detail ≤ 255) : finish s (raiseActive s w p c detail) =
      .next (trapWord s s { cause := c, lanes := w.active s.slotB p, detail := detail }) :=
  finish_raise hr (settleRaises_one _ h)

end Sys2Proof.Machine
end

