-- ==== Sys2Proof/Laws/Traps.lean ====
section
/-! SUPPORT. What the end of a word does to memory: completing, waiting and retiring leave it; a trap writes the wave's private
area and keeps its canonical form. -/

namespace Sys2Proof.Machine

/-! ### Operations that leave memory -/

@[simp] theorem recordOf_mem (s : State) (i k : Nat) (c : Cause) (d : Nat) (a : W64) : (recordOf s i k c d a).mem = s.mem := by
  unfold recordOf; split <;> simp

@[simp] theorem updGroup_mem (s : State) (cl ctx : Nat) (key : W64) (f : Group → Group) :
    (s.updGroup cl ctx key f).mem = s.mem := rfl
@[simp] theorem updGroupOf_mem (s : State) (w : Wave) (f : Group → Group) : (s.updGroupOf w f).mem = s.mem := rfl

@[simp] theorem passSlot_mem (s : State) (i : Nat) (b : Bool) (f : Wave → Wave) : (passSlot s i b f).mem = s.mem := rfl

@[simp] theorem passMember_mem (s : State) (i : Nat) (p : WaitKind → Bool) : (passMember s i p).mem = s.mem := by
  unfold passMember; split
  · rfl
  · exact foldl_keeps (P := fun t : State => t.mem = s.mem) _ (fun t b ht => by simp [ht]) _ rfl

@[simp] theorem settleBarrier_mem (s : State) (cl ctx : Nat) (key : W64) (role : Option Nat) :
    (settleBarrier s cl ctx key role).mem = s.mem := by
  unfold settleBarrier
  cases s.findGroup cl ctx key with
  | none => rfl
  | some g =>
    simp only
    split_ifs
    · rfl
    · exact foldl_keeps (P := fun t : State => t.mem = s.mem) _ (fun t m ht => by simp [ht]) _ (by simp)

@[simp] theorem serveRows_mem (n : Nat) (s : State) (cl ctx : Nat) (key : W64) : (serveRows n s cl ctx key).mem = s.mem := by
  induction n generalizing s with
  | zero => rfl
  | succ n ih =>
    unfold serveRows
    cases s.findGroup cl ctx key with
    | none => rfl
    | some g =>
      dsimp only
      split
      · rfl
      · split
        · rw [ih]; split <;> simp
        · rfl

@[simp] theorem settleGroup_mem (s : State) (cl ctx : Nat) (key : W64) : (settleGroup s cl ctx key).mem = s.mem := by
  unfold settleGroup
  rw [serveRows_mem]
  exact foldl_keeps (P := fun t : State => t.mem = s.mem) _ (fun t r ht => by simp [ht]) _ rfl

@[simp] theorem settleHalt_mem (s : State) (cl ctx : Nat) (key : W64) : (settleHalt s cl ctx key).mem = s.mem := rfl

@[simp] theorem leaveGroup_mem (s : State) (i : Nat) : (leaveGroup s i).mem = s.mem := by
  unfold leaveGroup
  cases s.wave i with
  | none => rfl
  | some w =>
    dsimp only
    cases s.groupOf w with
    | none => rfl
    | some g => dsimp only; split <;> simp

@[simp] theorem lowerLive_mem (s : State) (i : Nat) : (lowerLive s i).mem = s.mem := by
  unfold lowerLive; split <;> simp

/-- A wave that retires leaves memory (R51, R53). -/
@[simp] theorem retireWave_mem (s : State) (i : Nat) : (retireWave s i).mem = s.mem := by simp [retireWave]

@[simp] theorem settleOrRetire_mem (s : State) (i : Nat) : (settleOrRetire s i).mem = s.mem := by
  unfold settleOrRetire; dsimp only; split
  · split <;> simp
  · simp

/-- A word that completes leaves memory as its meaning gave it. -/
@[simp] theorem commit_mem (s t : State) (b : Bool) : (commit s t b).mem = t.mem := by
  unfold commit; split <;> simp

@[simp] theorem abandonOps_mem (s : State) (i : Nat) : (abandonOps s i).mem = s.mem := by
  unfold abandonOps; cases s.wave i <;> simp

@[simp] theorem abandonWaits_mem (s : State) (i : Nat) : (abandonWaits s i).mem = s.mem := by
  unfold abandonWaits; cases s.wave i with
  | none => rfl
  | some w => dsimp only; split <;> simp

@[simp] theorem trapRecordOf_mem (s : State) (i : Nat) (c : Cause) (replay : Bool) : (trapRecordOf s i c replay).mem = s.mem := by
  unfold trapRecordOf; split <;> rfl

@[simp] theorem markStopped_mem (s : State) (i : Nat) : (markStopped s i).mem = s.mem := by
  unfold markStopped; split <;> simp

/-! ### Operations that write the private area of a wave -/

theorem wf_writeStack {s : State} (i : Nat) (h : s.mem.wf = true) : (writeStack s i).mem.wf = true := by
  unfold writeStack; split
  · exact h
  · exact wf_privWrite _ _ _ h

theorem wf_stopMember {s : State} (i skid : Nat) (h : s.mem.wf = true) : (stopMember s i skid).mem.wf = true := by
  unfold stopMember
  split
  · exact h
  · rename_i w0 _
    have h1 : (abandonOps (abandonWaits (s.setWave i (w0.abortTx 7 0 0).flushWindows) i) i).mem.wf = true := by
      rw [abandonOps_mem, abandonWaits_mem]; exact h
    simp only
    split
    · exact h1
    · rw [markStopped_mem, trapRecordOf_mem, State.updWave_mem]
      exact wf_privWrite _ _ _ (wf_writeStack _ h1)

theorem wf_ite {c : Prop} [Decidable c] {a b : State} (ha : a.mem.wf = true) (hb : b.mem.wf = true) :
    (if c then a else b).mem.wf = true := by split <;> assumption

theorem wf_haltGroup {s : State} (i : Nat) (h : s.mem.wf = true) : (haltGroup s i).mem.wf = true := by
  unfold haltGroup
  split
  · exact h
  · split
    · exact h
    · rw [markStopped_mem]
      refine foldl_keeps (P := fun t : State => t.mem.wf = true) _ (fun t m ht => ?_) _ (by rw [updGroupOf_mem]; exact h)
      simp only
      split_ifs
      · rw [State.updWave_mem]; exact ht
      · split
        · rw [State.updWave_mem]; exact ht
        · split_ifs <;> simpa using ht

/-- A halt that reaches a member keeps memory in its form (R326). -/
theorem wf_haltArrives {s : State} (i : Nat) (h : s.mem.wf = true) : (haltArrives s i).mem.wf = true := by
  unfold haltArrives
  split
  · exact h
  · split_ifs
    · exact wf_stopMember _ _ h
    · simpa using h

/-- Taking a trap keeps memory in its form (R60, R62). -/
theorem wf_takeTrap {s : State} (i : Nat) (r : Raise) (b : Bool) (pc word : W64) (part fromOp : Bool)
    (h : s.mem.wf = true) : (takeTrap s i r b pc word part fromOp).mem.wf = true := by
  have left (w : Wave) : (abandonOps (abandonWaits (s.setWave i w) i) i).mem.wf = true := by
    rw [abandonOps_mem, abandonWaits_mem, State.setWave_mem]; exact h
  unfold takeTrap
  split
  · exact h
  · simp only
    split
    · exact left _
    · refine wf_ite ?_ (wf_ite (wf_haltGroup _ ?_) ?_)
      · rw [State.updWave_mem]
        exact wf_privWrite _ _ _ (wf_privWrite _ _ _ (wf_writeStack _ (left _)))
      · rw [trapRecordOf_mem, State.updWave_mem]
        exact wf_privWrite _ _ _ (wf_writeStack _ (left _))
      · rw [trapRecordOf_mem, State.updWave_mem]
        exact wf_privWrite _ _ _ (wf_writeStack _ (left _))

theorem wf_takeOrAbort {s : State} (r : Raise) (pc : W64) (h : s.mem.wf = true) : (takeOrAbort s r pc).mem.wf = true := by
  unfold takeOrAbort
  dsimp only
  split
  · exact h
  · split_ifs
    · exact wf_takeTrap _ _ _ _ _ _ _ (by simpa using h)
    · simpa using h
    · exact wf_takeTrap _ _ _ _ _ _ _ h

theorem wf_trapOrAbort {s : State} (r : Raise) (pc : W64) (h : s.mem.wf = true) : (trapOrAbort s r pc).mem.wf = true := by
  unfold trapOrAbort
  dsimp only
  split_ifs
  · exact wf_takeOrAbort _ _ (by simpa using h)
  · simpa using h
  · exact wf_takeOrAbort _ _ (by simpa using h)

/-- A word that takes a cause keeps memory in its form, whatever it did before. -/
theorem wf_trapWord {s t : State} (r : Raise) (h : s.mem.wf = true) (ht : t.mem.wf = true) : (trapWord s t r).mem.wf = true := by
  unfold trapWord
  split
  · exact h
  · dsimp only
    split_ifs
    · exact wf_trapOrAbort _ _ (by simpa using ht)
    · exact wf_trapOrAbort _ _ (by simpa using h)
    · exact wf_trapOrAbort _ _ (by simpa using h)

end Sys2Proof.Machine
end

