-- ==== Sys2Proof/Tests/Slice0.lean ====
section
/-! SUPPORT. Tests: well-formedness, decoding, and for every statement states and operands that meet its hypotheses. Expected
values come from the rules of spec/ and its worked tables, or by hand from them. -/

namespace Sys2Proof.Tests

set_option Elab.async false

open Sys2Proof Sys2Proof.Machine Sys2Proof.Claims

/-- The predicate that every lane passes, and one that none does. -/
def all : Pred := ⟨false, 0⟩
def never : Pred := ⟨true, 0⟩

/-! ### Well-formedness: an ill-formed term for each check, which the check refuses (R73, R76-R80, R114, R115) -/

def vb (t : EType) (ma mb : BitVec 3) : VBin := ⟨all, t, 2, 4, 5, ma, mb⟩
def vu (t : EType) (ma : BitVec 3) : VUn := ⟨all, t, 2, 4, ma⟩
def vi (t : EType) (imm : BitVec 17) : VImm := ⟨all, t, 2, 4, imm⟩
def vm (la : BitVec 4) (o : Ord) (w : Width) (sc : Scope) (scale : BitVec 3) (chk : Bool) : VMem :=
  ⟨all, la, 2, 4, 5, scale, o, chk, w, sc⟩
def bm (la : BitVec 4) (o : Ord) : BMem := ⟨all, la, 2, 4, 5, 0, o, false, .b32, .cl⟩
def sm (d : SReg) (la : BitVec 4) (o : Ord) (w : Width) (scale : BitVec 3) (chk : Bool) : SMem :=
  ⟨all, la, d, 4, 5, scale, o, chk, w, .cl⟩
def vmi (la : BitVec 4) (w : Width) (sc : Scope) : VMemI := ⟨all, la, 2, 4, 1, w, sc⟩
def cp (sa : SReg) : CopyOp := ⟨all, 0, 1, sa, false, false⟩
def sp (ma : BitVec 3) : SpecOp := ⟨all, 0, 2, 4, ma⟩
def fe (o : Ord) : FEOp := ⟨all, 0, 2, 4, o, .cl⟩

/-- Masks named as destination, system register indices, and operands of the scalar and mask words. -/
def badScalar : List Instr :=
  [.scmp ⟨all, .i32, .eq, 0, 1, 2⟩, .scmpI ⟨all, .i32, .eq, 0, 1, 2⟩, .mfsr all 1 0x0E, .mfsr all 1 0x84, .mtsr all 0x0E 1,
    .mtsr all 0x84 1, .mtm all 0 1, .mand ⟨all, 0, 1, 2⟩, .mor ⟨all, 0, 1, 2⟩, .mxor ⟨all, 0, 1, 2⟩, .mnot all 0 1,
    .gelect all 0 1, .gelectI all 0 1, .qpop all 0 1 0 2]

/-- Types and modifiers of the vector words. -/
def badVector : List Instr :=
  [Instr.vadd, .vsub, .vmul, .vmulh, .vmad, .vmin, .vmax, .vabsd, .vadds, .vsubs].flatMap
    (fun c => [c (vb .f32 0 0), c (vb .i32 4 0), c (vb .i32 0 4)])
  ++ [Instr.vand, .vor, .vxor].flatMap (fun c => [c (vb .f32 0 0), c (vb .i32 1 0), c (vb .i32 0 1)])
  ++ [Instr.vshl, .vshr, .vsra].flatMap (fun c => [c (vb .b1 0 0), c (vb .i16 4 0), c (vb .i16 0 4)])
  ++ [Instr.vsel (vb .i8 5 0), .vsel (vb .i8 0 5), .vmov (vu .b1 1), .vpopc (vu .b1 0), .vpopc (vu .i32 1), .vclz (vu .f16 0),
    .vclz (vu .i16 4), .vdot4 (vb .i16 0 0), .vdot4 (vb .i8 5 0), .vdot4 (vb .i8 0 5)]
  ++ [Instr.vaddI, .vsubI, .vmulI, .vminI, .vmaxI, .vaddsI, .vsubsI, .vandI, .vorI, .vxorI, .vshlI, .vshrI, .vsraI].map
    (fun c => c (vi .f32 0))
  ++ [Instr.vli all .b1 2 0, .vli all .f16 2 0x10000, .vcmp ⟨all, .i16, .lt, 2, 4, 5, 0, 0⟩, .vcmp ⟨all, .i32, .lt, 0, 4, 5, 0, 0⟩,
    .vcmp ⟨all, .i32, .lt, 2, 4, 5, 4, 0⟩, .vcmp ⟨all, .i32, .lt, 2, 4, 5, 0, 4⟩, .vcmpI ⟨all, .n8, .lt, 2, 4, 0⟩,
    .vcmpI ⟨all, .n32, .lt, 0, 4, 0⟩, .vbfx ⟨all, .i16, 2, 4, 5⟩, .vbfi ⟨all, .f32, 2, 4, 5⟩]

/-- Types, modifiers and fields of the float and cross-lane words. -/
def badFloat : List Instr :=
  [Instr.vfadd, .vfsub, .vfmul, .vfma, .vfmin, .vfmax].flatMap
    (fun c => [c (vb .i32 0 0), c (vb .f32 4 0), c (vb .f32 0 4)])
  ++ [Instr.vfaddI, .vfsubI, .vfmulI, .vfminI, .vfmaxI].flatMap (fun c => [c (vi .i32 0), c (vi .bf16 0x10000)])
  ++ [Instr.vrcp, .vrsq, .vsqrt, .vexp2, .vlog2, .vtanh, .vsigm, .vsinpi, .vcospi].map (fun c => c (sp 4))
  ++ [Instr.vfcmp ⟨all, .i32, .lt, 2, 4, 5, 0, 0⟩, .vfcmp ⟨all, .f32, .lt, 0, 4, 5, 0, 0⟩, .vfcmp ⟨all, .f32, .lt, 2, 4, 5, 4, 0⟩,
    .vfcmp ⟨all, .f32, .lt, 2, 4, 5, 0, 4⟩, .vfcmpI ⟨all, .i32, .lt, 2, 4, 0⟩, .vfcmpI ⟨all, .f32, .lt, 0, 4, 0⟩,
    .vfcmpI ⟨all, .f16, .lt, 2, 4, 0x10000⟩, .vfcls (vu .i32 0), .vfcls (vu .f32 1), .vfrnd (vu .n8 0) .rne,
    .vfrnd (vu .f32 1) .rne, .vadd2 (vb .f16 0 0), .vadd2 (vb .f32 2 0), .vadd2 (vb .f32 0 4),
    .vadd2 ⟨all, .f32, 3, 4, 6, 0, 0⟩, .vadd2 ⟨all, .f32, 2, 5, 6, 0, 0⟩, .vfma2 (vb .f16 0 0), .vfma2 (vb .f32 4 0),
    .vfma2 (vb .f32 0 4), .vfma2 ⟨all, .f32, 3, 4, 6, 0, 0⟩, .vscl (vb .i32 0 0), .vscl (vb .f32 4 0), .vscl (vb .f32 0 1),
    .vsclI all .i32 2 4 0, .vfdot2 (vb .f16 0 0), .vdot16 all 2 5 8, .vdot16 all 2 4 9]
  ++ [Instr.vcvt ⟨all, .b1, .f32, 0, 2, 4, 0, false, false, false⟩, .vcvt ⟨all, .f32, .b1, 0, 2, 4, 0, false, false, false⟩,
    .vcvt ⟨all, .f32, .f32, 0, 2, 4, 0, false, false, false⟩, .vcvt ⟨all, .f32, .f16, 2, 2, 4, 0, false, false, false⟩,
    .vcvt ⟨all, .f32, .f16, 0, 2, 4, 4, false, false, false⟩]

def badCrossLane : List Instr :=
  [Instr.vshuf (vb .i32 1 0), .vshuf (vb .i32 0 1), .vbcast ⟨all, .i16, 2, 4, 5, 4⟩, .vrot ⟨all, .i8, 2, 4, 5, 5⟩,
    .vred ⟨all, .and, 2, 4, 1⟩, .vred ⟨all, .fadd, 2, 4, 4⟩, .vscan ⟨all, .xor, 2, 4, 1⟩, .vscan ⟨all, .fadd, 2, 4, 4⟩,
    .vsegred ⟨all, .i16, 2, 4, 3, 0⟩, .vsegred ⟨all, .f32, 2, 4, 3, 4⟩, .vsegscan ⟨all, .f16, 2, 4, 3, 0⟩,
    .vsegscan ⟨all, .i32, 2, 4, 3, 4⟩, .vconfl all .f32 2 4, .vconfl all .i32 0 4, .vdupadd all .n32 2 4 5,
    .vbal all true 0 4 5, .vbal all false 2 4 5, .visect all .f32 2 4 5, .vballot all 0 4, .vany all true 0 4,
    .kvslot all 0 2 4 63 3, .kvslot all 0 2 4 8 0, .tokroute all 0 2 4 8, .tokroute all 0 4 4 63]

/-- Lookahead, ordering, width, scale and registers of the memory words and of the words with register blocks. -/
def badMemory : List Instr :=
  [.vld (vm 0 .rel .b32 .cl 0 false), .vst (vm 1 .plain .b32 .cl 0 false), .vst (vm 0 .acq .b32 .cl 0 false),
    .vstI (vmi 1 .b32 .cl), .vldb (bm 0 .rel), .vstb (bm 1 .plain), .vstb (bm 0 .acq), .vstbI (vmi 1 .b32 .cl),
    .sld (sm 2 0 .rel .b64 0 false), .sst (sm 2 1 .plain .b64 0 false), .sst (sm 2 0 .acq .b64 0 false),
    .sstI ⟨all, 1, 2, 4, 0, .b64, .cl⟩, .vlds (vm 0 .plain .b32 .die 0 false), .vlds (vm 0 .acq .b32 .cl 0 false),
    .vldsI (vmi 0 .b32 .die), .vsts (vm 1 .plain .b32 .cl 0 false), .vsts (vm 0 .plain .b32 .die 0 false),
    .vsts (vm 0 .rel .b32 .cl 0 false), .vstsI (vmi 1 .b32 .cl), .vstsI (vmi 0 .b32 .die),
    .vldq (vm 0 .plain .b32 .cl 0 false), .vldq (vm 0 .rel .b8 .cl 0 false), .vldqI (vmi 0 .b16 .cl)]
  ++ [.vstq (vm 1 .plain .b8 .cl 0 false) false, .vstq (vm 0 .plain .b32 .cl 0 false) false,
    .vstq (vm 0 .acq .b8 .cl 0 false) false, .vstqI (vmi 1 .b8 .cl) false, .vstqI (vmi 0 .b32 .cl) true,
    .vatom (vm 0 .plain .b16 .cl 0 false) .add, .vatom (vm 0 .plain .b64 .cl 0 false) .fadd,
    .vatom (vm 0 .plain .b32 .cl 1 false) .add, .satom (sm 2 0 .plain .b8 0 false) .add,
    .satom (sm 2 0 .plain .b32 1 false) .add, .vatoms (vm 0 .plain .b32 .die 0 false) .add,
    .vatoms (vm 0 .acq .b32 .cl 0 false) .add, .vatoms (vm 0 .plain .b32 .cl 1 false) .add,
    .vcas (vm 0 .plain .b16 .cl 0 false), .vcas (vm 0 .plain .b32 .cl 0 true), .vcas (vm 0 .plain .b32 .cl 1 false),
    .scas (sm 2 0 .plain .b16 0 false), .scas (sm 63 0 .plain .b32 0 false), .scas (sm 2 0 .plain .b32 0 true),
    .scas (sm 2 0 .plain .b32 1 false), .lfull (fe .rel), .lfullTake (fe .rel), .sfull (fe .acq), .sfullNb (fe .acq) 1,
    .sfullNb (fe .plain) 0, .txbegin all 0 false]
  ++ [.mrule all 0 false 1 4 63, .mbwd ⟨all, 0, 1, 63, false, false⟩ 2, .stexp all 0 2 4 62, .stimp all 0 2 4 62, .cpy (cp 0) false,
    .cpy (cp 61) true, .cgath (cp 0) 0, .cscat (cp 61) 0, .cexp (cp 0) 0, .cpack (cp 61) 0, .cpost all 0 0, .cpost all 0 61,
    .xput all 0 1 0, .xput all 0 1 62, .xgetBlk all 0 0, .xgetBlk all 0 62]

theorem test_wf_scalar : badScalar.all (fun i => !Instr.wellFormed 0 i) = true := by decide +kernel
theorem test_wf_vector : badVector.all (fun i => !Instr.wellFormed 0 i) = true := by decide +kernel
theorem test_wf_float : badFloat.all (fun i => !Instr.wellFormed 0 i) = true := by decide +kernel
theorem test_wf_crossLane : badCrossLane.all (fun i => !Instr.wellFormed 0 i) = true := by decide +kernel
theorem test_wf_memory : badMemory.all (fun i => !Instr.wellFormed 0 i) = true := by decide +kernel

/-- An instruction without a word; a pair whose slot Y has no code, whose slots write one register, whose slots are both of the
vector-float class, or whose slot has a register, a variant or a modifier bit that its code does not take (R82-R86). -/
theorem test_wf_pairs : Instr.wellFormed 0 .resetBoot = false ∧
    Instr.wellFormed 0x4880_0C04_7F40_0806 .smaxPair = false ∧ Instr.wellFormed 0x4880_0C04_1100_1808 .smaxPair = false ∧
    Instr.wellFormed 0x7000_0402_6000_0002 .vfaddPair = false ∧ Instr.wellFormed 0x4881_0C04_4F40_0806 .smaxPair = false ∧
    Instr.wellFormed 0x48C0_0C04_4F40_0806 .smaxPair = false ∧ Instr.wellFormed 0x4880_0C04_CF40_0806 .smaxPair = false ∧
    Instr.wellFormed 0x4880_0C04_4F40_0806 .smaxPair = true := by decide +kernel

/-! ### Decoding: the word of every constructor, written out from the fields that the rules give it -/

/-- Whether the decoder and the two names of the host read these words as these instructions. -/
def decodesTo (l : List (Nat × Instr)) : Bool :=
  l.all (fun e => decode true (BitVec.ofNat 64 e.1) == e.2 && decodeTableWord 64 e.1 == some e.2 &&
    encode (BitVec.ofNat 64 e.1) e.2 == some (BitVec.ofNat 64 e.1))

/-- The scalar, mask and control words (R119-R126, R137-R143, R431-R434). -/
def scalarWords : List (Nat × Instr) :=
  [(0x0000_0000_0000_0000, .nop), (0x0010_0005_00C0_0000, .smov ⟨all, 5, 6⟩),
    (0x8020_0005_8000_0001, .sli ⟨all, 5, 0x8000001⟩), (0x8030_0005_7FE0_0003, .slix ⟨all, 5, 0x7FE0003⟩),
    (0x0040_0005_00C0_1C00, .sadd ⟨all, .i64, 5, 6, 7⟩), (0x0050_0005_00C0_1C01, .ssub ⟨all, .n64, 5, 6, 7⟩),
    (0x0060_0005_00C0_1C02, .smul ⟨all, .i32, 5, 6, 7⟩), (0x0070_0005_00C0_1C03, .smulh ⟨all, .n32, 5, 6, 7⟩),
    (0x0080_0005_00C0_1C00, .sdiv ⟨all, .i64, 5, 6, 7⟩), (0x0090_0005_00C0_1C01, .srem ⟨all, .n64, 5, 6, 7⟩),
    (0x00D0_0005_00C0_1C02, .sshl ⟨all, .i32, 5, 6, 7⟩), (0x00E0_0005_00C0_1C03, .sshr ⟨all, .n32, 5, 6, 7⟩),
    (0x00F0_0005_00C0_1C02, .ssra ⟨all, .i32, 5, 6, 7⟩), (0x0100_0005_00C0_1C00, .smin ⟨all, .i64, 5, 6, 7⟩),
    (0x0110_0005_00C0_1C01, .smax ⟨all, .n64, 5, 6, 7⟩), (0x00A0_0005_00C0_1C00, .sand ⟨all, 5, 6, 7⟩),
    (0x00B0_0005_00C0_1C00, .sor ⟨all, 5, 6, 7⟩), (0x00C0_0005_00C0_1C00, .sxor ⟨all, 5, 6, 7⟩),
    (0x0130_0005_00C0_1C00, .ssel ⟨all, 5, 6, 7⟩), (0x8060_0005_00C5_FFFD, .smulI ⟨all, .i32, 5, 6, 0x1FFFD⟩),
    (0x80D0_0005_00C3_FFFD, .sshlI ⟨all, .n64, 5, 6, 0x1FFFD⟩), (0x80E0_0005_00C7_FFFD, .sshrI ⟨all, .n32, 5, 6, 0x1FFFD⟩),
    (0x80F0_0005_00C1_FFFD, .ssraI ⟨all, .i64, 5, 6, 0x1FFFD⟩), (0x8100_0005_00C5_FFFD, .sminI ⟨all, .i32, 5, 6, 0x1FFFD⟩),
    (0x8110_0005_00C3_FFFD, .smaxI ⟨all, .n64, 5, 6, 0x1FFFD⟩), (0x8160_0005_00C7_FFFD, .saddi ⟨all, .n32, 5, 6, 0x1FFFD⟩),
    (0x80A0_0005_00C1_0001, .sandI ⟨all, 5, 6, 0x10001⟩), (0x80B0_0005_00C1_0001, .sorI ⟨all, 5, 6, 0x10001⟩),
    (0x80C0_0005_00C1_0001, .sxorI ⟨all, 5, 6, 0x10001⟩), (0x0140_0005_00C0_0002, .spopc ⟨all, .i32, 5, 6⟩),
    (0x0150_0005_00C0_0001, .sclz ⟨all, .n64, 5, 6⟩), (0x0120_030A_0400_2803, .scmp ⟨all, .n32, .le, 10, 32, 10⟩),
    (0x8120_0005_0105_FFFF, .scmpI ⟨all, .i32, .eq, 5, 8, 0x1FFFF⟩), (0x0170_0005_1020_0000, .mfsr all 5 0x81),
    (0x0180_000D_00C0_0000, .mtsr all 0x0D 6), (0x0190_0005_FFE0_1C00, .srdv all 5 2047 7),
    (0x8190_0020_0120_001F, .srdvI all 32 9 31), (0x01A0_07FF_00C0_1C00, .swrv all 2047 6 7),
    (0x81A0_0009_00C0_0011, .swrvI all 9 6 17), (0x01B0_0005_00C0_0000, .mtm all 5 6), (0x01C0_0005_01E0_0000, .mfm all 5 15),
    (0x01D0_0001_0040_3C00, .mand ⟨all, 1, 2, 15⟩), (0x01E0_0001_0040_3C00, .mor ⟨all, 1, 2, 15⟩),
    (0x01F0_0001_0040_3C00, .mxor ⟨all, 1, 2, 15⟩), (0x0200_0001_0040_0000, .mnot all 1 2),
    (0x0210_9805_0040_0000, .mcnt ⟨true, 3⟩ 5 2), (0xB800_0003_FFE1_FFFF, .br all 3 0xFFFFFFF),
    (0xB810_8800_0000_0005, .bru ⟨true, 1⟩ 5), (0xB820_0000_0000_0009, .jmp all 9), (0x3820_0000_00C0_0000, .jmpReg all 6),
    (0xB830_0028_0000_002F, .call all 40 47), (0x3830_0028_0520_0000, .callReg all 40 41),
    (0x3840_0000_0500_0000, .ret all 40), (0xB850_0009_FFE1_FFFD, .loop all 9 0xFFFFFFD), (0x3860_0000_0000_0000, .exit),
    (0xB870_0000_0000_00FF, .trap), (0x3880_0000_0000_0000, .brk), (0x3890_0000_0000_0000, .eret),
    (0x38A0_0000_0000_0000, .halt), (0x38B0_0000_0080_1400, .tlbinv all 4 5)]
theorem test_decode_scalar : decodesTo scalarWords = true := by decide +kernel

/-- The vector integer words (R129-R135). -/
def vectorWords : List (Nat × Instr) :=
  [(0x0820_0006_009F_FCA0, .vadd ⟨all, .i32, 6, 4, 2047, 1, 2⟩), (0x0830_0006_009F_FD91, .vsub ⟨all, .n32, 6, 4, 2047, 3, 1⟩),
    (0x0840_0006_009F_FFC2, .vmul ⟨all, .i16, 6, 4, 2047, 7, 4⟩),
    (0x0850_0006_009F_FEE3, .vmulh ⟨all, .n16, 6, 4, 2047, 5, 6⟩), (0x0860_0006_009F_FE14, .vmad ⟨all, .i8, 6, 4, 2047, 4, 1⟩),
    (0x0870_0006_009F_FD35, .vmin ⟨all, .n8, 6, 4, 2047, 2, 3⟩), (0x0880_0006_009F_FF96, .vmax ⟨all, .i4, 6, 4, 2047, 7, 1⟩),
    (0x0890_0006_009F_FF57, .vabsd ⟨all, .n4, 6, 4, 2047, 6, 5⟩), (0x08A0_0006_009F_FC0D, .vand ⟨all, .b1, 6, 4, 2047, 0, 0⟩),
    (0x08B0_0006_009F_FD92, .vor ⟨all, .i16, 6, 4, 2047, 3, 1⟩), (0x08C0_0006_009F_FE25, .vxor ⟨all, .n8, 6, 4, 2047, 4, 2⟩),
    (0x08D0_0006_009F_FC00, .vshl ⟨all, .i32, 6, 4, 2047, 0, 0⟩), (0x08E0_0006_009F_FEF7, .vshr ⟨all, .n4, 6, 4, 2047, 5, 7⟩),
    (0x08F0_0006_009F_FC84, .vsra ⟨all, .i8, 6, 4, 2047, 1, 0⟩), (0x0930_0006_009F_FD4C, .vsel ⟨all, .e5m2, 6, 4, 2047, 2, 4⟩),
    (0x0940_0006_009F_FF22, .vadds ⟨all, .i16, 6, 4, 2047, 6, 2⟩),
    (0x0950_0006_009F_FC81, .vsubs ⟨all, .n32, 6, 4, 2047, 1, 0⟩),
    (0x0960_0006_009F_FDC4, .vdot4 ⟨all, .i8, 6, 4, 2047, 3, 4⟩), (0x8820_0006_0081_FFFF, .vaddI ⟨all, .i32, 6, 4, 0x1ffff⟩),
    (0x8830_0006_0086_0001, .vsubI ⟨all, .n16, 6, 4, 0x1⟩), (0x8840_0006_0088_0002, .vmulI ⟨all, .i8, 6, 4, 0x2⟩),
    (0x8870_0006_008A_0003, .vminI ⟨all, .n8, 6, 4, 0x3⟩), (0x8880_0006_008C_0004, .vmaxI ⟨all, .i4, 6, 4, 0x4⟩),
    (0x88A0_0006_009A_0005, .vandI ⟨all, .b1, 6, 4, 0x5⟩), (0x88B0_0006_008E_0006, .vorI ⟨all, .n4, 6, 4, 0x6⟩),
    (0x88C0_0006_0084_0007, .vxorI ⟨all, .i16, 6, 4, 0x7⟩), (0x88D0_0006_0082_0100, .vshlI ⟨all, .n32, 6, 4, 0x100⟩),
    (0x88E0_0006_0080_0009, .vshrI ⟨all, .i32, 6, 4, 0x9⟩), (0x88F0_0006_0088_0009, .vsraI ⟨all, .i8, 6, 4, 0x9⟩),
    (0x8940_0006_0084_000A, .vaddsI ⟨all, .i16, 6, 4, 0xa⟩), (0x8950_0006_008A_000B, .vsubsI ⟨all, .n8, 6, 4, 0xb⟩),
    (0x0800_0006_0080_0088, .vmov ⟨all, .f32, 6, 4, 1⟩), (0x8810_0006_0014_BF80, .vli all .bf16 6 0xBF80),
    (0x0900_0006_0080_0102, .vpopc ⟨all, .i16, 6, 4, 2⟩), (0x0910_0006_0080_0001, .vclz ⟨all, .n32, 6, 4, 0⟩),
    (0x0920_0202_0080_1400, .vcmp ⟨all, .i32, .lt, 2, 4, 5, 0, 0⟩),
    (0x8920_050F_0083_FFFF, .vcmpI ⟨all, .n32, .ge, 15, 4, 0x1FFFF⟩), (0x0970_0006_0080_1401, .vbfx ⟨all, .n32, 6, 4, 5⟩),
    (0x0980_0006_0080_1400, .vbfi ⟨all, .i32, 6, 4, 5⟩), (0x0990_0006_0000_0000, .vlane all 6)]
theorem test_decode_vector : decodesTo vectorWords = true := by decide +kernel

/-- The float words (R144-R159). -/
def floatWords : List (Nat × Instr) :=
  [(0x1000_0006_0080_1CA8, .vfadd ⟨all, .f32, 6, 4, 7, 1, 2⟩), (0x1010_0006_0080_1E79, .vfsub ⟨all, .f16, 6, 4, 7, 4, 7⟩),
    (0x1020_0006_0080_1D8A, .vfmul ⟨all, .bf16, 6, 4, 7, 3, 0⟩), (0x1030_0006_0080_1C18, .vfma ⟨all, .f32, 6, 4, 7, 0, 1⟩),
    (0x1040_0006_0080_1CA9, .vfmin ⟨all, .f16, 6, 4, 7, 1, 2⟩), (0x1050_0006_0080_1EEA, .vfmax ⟨all, .bf16, 6, 4, 7, 5, 6⟩),
    (0x1090_0006_0080_1D38, .vfma2 ⟨all, .f32, 6, 4, 7, 2, 3⟩), (0x1180_0006_0080_1CCA, .vfdot2 ⟨all, .bf16, 6, 4, 7, 1, 4⟩),
    (0x1080_0006_0080_1CB8, .vadd2 ⟨all, .f32, 6, 4, 7, 1, 3⟩), (0x1160_0006_0080_1E09, .vscl ⟨all, .f16, 6, 4, 7, 4, 0⟩),
    (0x9000_0006_0091_FC00, .vfaddI ⟨all, .f32, 6, 4, 0x1fc00⟩), (0x9010_0006_0092_3C00, .vfsubI ⟨all, .f16, 6, 4, 0x3c00⟩),
    (0x9020_0006_0094_3F80, .vfmulI ⟨all, .bf16, 6, 4, 0x3f80⟩), (0x9040_0006_0090_0001, .vfminI ⟨all, .f32, 6, 4, 0x1⟩),
    (0x9050_0006_0092_0002, .vfmaxI ⟨all, .f16, 6, 4, 0x2⟩), (0x1060_0303_0080_1518, .vfcmp ⟨all, .f32, .le, 3, 4, 5, 2, 1⟩),
    (0x9060_0603_0092_3C00, .vfcmpI ⟨all, .f16, .un, 3, 4, 0x3C00⟩), (0x1070_0006_0080_0089, .vfcls ⟨all, .f16, 6, 4, 1⟩),
    (0x11B0_0006_0080_0028, .vfrnd ⟨all, .f32, 6, 4, 0⟩ .rz), (0x10A0_0006_0080_0008, .vrcp ⟨all, 0, 6, 4, 0⟩),
    (0x10B1_0006_0080_0088, .vrsq ⟨all, 1, 6, 4, 1⟩), (0x10C2_0006_0080_0108, .vsqrt ⟨all, 2, 6, 4, 2⟩),
    (0x10D3_0006_0080_0188, .vexp2 ⟨all, 3, 6, 4, 3⟩), (0x10E4_0006_0080_0008, .vlog2 ⟨all, 4, 6, 4, 0⟩),
    (0x10F5_0006_0080_0088, .vtanh ⟨all, 5, 6, 4, 1⟩), (0x1106_0006_0080_0108, .vsigm ⟨all, 6, 6, 4, 2⟩),
    (0x1117_0006_0080_0188, .vsinpi ⟨all, 7, 6, 4, 3⟩), (0x1128_0006_0080_0008, .vcospi ⟨all, 8, 6, 4, 0⟩),
    (0x1130_000A_0060_604B, .vcvt ⟨all, .e4m3, .f32, 1, 10, 3, 0, false, false, true⟩),
    (0x1140_0006_0080_1C00, .vcvq4 all 6 4 7), (0x1150_0006_0080_1C00, .vdq4 all 6 4 7),
    (0x9160_0006_0094_00FF, .vsclI all .bf16 6 4 0xFF), (0x1170_0006_0080_0008, .vgscl all 6 4),
    (0x1190_0006_0080_200B, .vdot16 all 6 4 8), (0x11A2_0006_0080_0008, .vrope3 all 2 6 4)]
theorem test_decode_float : decodesTo floatWords = true := by decide +kernel

/-- The cross-lane words (R161-R174, R465). -/
def crossWords : List (Nat × Instr) :=
  [(0x1800_0006_0080_1C82, .vshuf ⟨all, .i16, 6, 4, 7, 1, 0⟩), (0x1810_0006_0080_1D84, .vbcast ⟨all, .i8, 6, 4, 7, 3⟩),
    (0x9810_0006_0090_001F, .vbcastI ⟨all, .f32, 6, 4, 31⟩), (0x1820_0006_0080_1D84, .vrot ⟨all, .i8, 6, 4, 7, 3⟩),
    (0x9820_0006_0090_001F, .vrotI ⟨all, .f32, 6, 4, 31⟩), (0x1830_0009_0040_0008, .vred ⟨all, .fadd, 9, 2, 0⟩),
    (0x1840_0009_0040_0080, .vscan ⟨all, .addI32, 9, 2, 1⟩), (0x1850_0009_0040_0C88, .vsegred ⟨all, .f32, 9, 2, 3, 1⟩),
    (0x1860_0009_0040_0C01, .vsegscan ⟨all, .n32, 9, 2, 3, 0⟩), (0x1870_0003_0080_0001, .vconfl all .n32 3 4),
    (0x1880_0006_0080_1408, .vdupadd all .f32 6 4 5), (0x1890_0003_0080_2401, .vbal all true 3 4 9),
    (0x18A0_0006_0080_1401, .visect all .n32 6 4 5), (0x18B0_0006_0080_1405, .vmrg all true false true 6 4 5),
    (0x18C0_0006_0080_0C00, .vcmpr all 6 4 3), (0x18D0_0006_0080_0C00, .vexpd all 6 4 3),
    (0x18E0_0003_0080_0000, .vballot all 3 4), (0x18F0_0003_0080_0001, .vany all true 3 4),
    (0x1901_0014_0103_2800, .kvslot all 1 20 8 10 3), (0x1913_0006_0200_1C08, .vtriple all 3 6 16 7),
    (0x1921_0028_0100_2800, .tokroute all 1 40 8 10)]
theorem test_decode_cross : decodesTo crossWords = true := by decide +kernel

/-- The memory words (R88-R90, R199-R217, R411). -/
def memoryWords : List (Nat × Instr) :=
  [(0x2002_0014_0080_24A9, .vld ⟨all, 2, 20, 4, 9, 2, .acq, false, .b32, .die⟩),
    (0x2010_0014_0080_2716, .vst ⟨all, 0, 20, 4, 9, 1, .rel, true, .b16, .pkg⟩),
    (0x2061_0014_0080_263C, .vlds ⟨all, 1, 20, 4, 9, 3, .plain, true, .b64, .cl⟩),
    (0x2070_0014_0080_2400, .vsts ⟨all, 0, 20, 4, 9, 0, .plain, false, .b8, .cl⟩),
    (0x20B3_0014_0080_258D, .vcas ⟨all, 3, 20, 4, 9, 0, .ar, false, .b64, .die⟩),
    (0x2171_0014_0080_26C1, .vldq ⟨all, 1, 20, 4, 9, 4, .acq, true, .b8, .die⟩),
    (0x2180_0014_0080_2515, .vstq ⟨all, 0, 20, 4, 9, 1, .rel, false, .b8, .die⟩ true),
    (0xA004_0002_0031_000E, .vldI ⟨all, 4, 2, 1, 0x1000E, .b32, .cl⟩),
    (0xA010_0002_003B_000E, .vstI ⟨all, 0, 2, 1, 0x1000E, .b64, .die⟩),
    (0xA021_0002_0029_000E, .vldbI ⟨all, 1, 2, 1, 0x1000E, .b16, .cl⟩),
    (0xA030_0002_0025_000E, .vstbI ⟨all, 0, 2, 1, 0x1000E, .b8, .pkg⟩),
    (0xA062_0002_0031_000E, .vldsI ⟨all, 2, 2, 1, 0x1000E, .b32, .cl⟩),
    (0xA070_0002_0039_000E, .vstsI ⟨all, 0, 2, 1, 0x1000E, .b64, .cl⟩),
    (0xA171_0002_0023_000E, .vldqI ⟨all, 1, 2, 1, 0x1000E, .b8, .die⟩),
    (0xA180_0002_002C_0003, .vstqI ⟨all, 0, 2, 1, 3, .b8, .pkg⟩ true),
    (0x2021_0014_0080_2428, .vldb ⟨all, 1, 20, 4, 9, 2, .plain, false, .b32, .cl⟩),
    (0x2030_0014_0080_270D, .vstb ⟨all, 0, 20, 4, 9, 0, .rel, true, .b64, .die⟩),
    (0x2041_0008_02A0_1CBC, .sld ⟨all, 1, 8, 21, 7, 3, .acq, false, .b64, .cl⟩),
    (0x2050_0008_02A0_1D0D, .sst ⟨all, 0, 8, 21, 7, 0, .rel, false, .b64, .die⟩),
    (0x20D2_0008_02A0_1D89, .scas ⟨all, 2, 8, 21, 7, 0, .ar, false, .b32, .die⟩),
    (0xA042_0008_02A1_FFFF, .sldI ⟨all, 2, 8, 21, 0x1FFFF, .b8, .cl⟩),
    (0xA050_0008_02B6_0001, .sstI ⟨all, 0, 8, 21, 1, .b32, .sys⟩),
    (0x20A0_300C_0080_2A18, .vatom ⟨⟨false, 6⟩, 0, 12, 4, 10, 0, .plain, true, .b32, .cl⟩ .fadd),
    (0x20C0_0008_0080_298E, .satom ⟨all, 0, 8, 4, 10, 0, .ar, false, .b64, .pkg⟩ .add),
    (0x20E1_0008_0080_2808, .vatoms ⟨all, 1, 8, 4, 10, 0, .plain, false, .b32, .cl⟩ .add),
    (0x2080_0005_00C0_0000, .splk all 5 6), (0x2090_0000_00C0_1C00, .sptag all 6 7), (0x2090_0001_00C0_0000, .sptagInv all 6),
    (0x20F1_0005_0060_000C, .lfull ⟨all, 1, 5, 3, .plain, .cl⟩),
    (0x20F0_0005_0060_009D, .lfullTake ⟨all, 0, 5, 3, .acq, .die⟩), (0x2100_0005_0060_010C, .sfull ⟨all, 0, 5, 3, .rel, .cl⟩),
    (0x2100_0005_0060_082E, .sfullNb ⟨all, 0, 5, 3, .plain, .pkg⟩ 2),
    (0x2110_0005_0060_018D, .fempty ⟨all, 0, 5, 3, .ar, .die⟩), (0x2130_0006_0000_0001, .txbegin all 6 true),
    (0x2140_0000_0000_0000, .txend), (0xA150_0000_0000_007F, .txabort), (0x2160_0009_0140_2C00, .forkpg all 0 9 10 11),
    (0x2120_0000_0000_010D, .fence all .st .pkg true)]
theorem test_decode_memory : decodesTo memoryWords = true := by decide +kernel

/-- The array words (R286-R306). -/
def arrayWords : List (Nat × Instr) :=
  [(0x2800_0002_02A0_0000, .movtc all 0 2 21), (0x2811_0015_0040_0000, .movftc all 1 21 2),
    (0x2820_0002_02A0_0000, .tld all 0 2 21), (0x2830_0000_02A0_0800, .tst all 0 21 2),
    (0x2840_001F_0000_0000, .tzero all 0 31), (0x2850_0002_0120_1C00, .tldv all 0 2 9 7),
    (0x2862_0123_0000_0400, .mma ⟨all, 2, 3, 9, 0, 1, false⟩), (0x2870_0003_0000_0403, .mbin ⟨all, 0, 3, 0, 0, 1, true⟩ .xor),
    (0x2880_0007_0180_3401, .mrule all 0 true 7 12 13), (0x2890_0004_019F_FC01, .mrec ⟨all, 0, 4, 12, true, false⟩ none false),
    (0x2890_0004_0180_1406, .mrec ⟨all, 0, 4, 12, false, true⟩ (some 5) true),
    (0x28A0_0006_0180_1000, .mbwd ⟨all, 0, 6, 12, false, false⟩ 4), (0x28B0_0003_0080_2400, .mepi all 0 3 4 9),
    (0x28C0_0003_0000_0000, .azero all 0 3), (0x28D0_0003_0180_3401, .ald all 0 true 3 12 13),
    (0x28E0_0003_0180_3400, .ast all 0 false 12 3 13), (0x28F0_0003_0080_0000, .amov all 0 3 4),
    (0x2900_0005_00C0_0000, .acalloc all 0 5 6), (0x2900_0005_00C0_0001, .acallocNb all 0 5 6),
    (0x2910_0000_00C0_0000, .acfree all 0 6), (0x2920_0007_00C0_0001, .eld all 0 true 7 6),
    (0x2930_0007_00C0_0000, .est all 0 false 6 7), (0x2940_0000_0000_0000, .mwait),
    (0x2950_0008_00C0_F400, .stexp all 0 8 6 61), (0x2960_0008_00C0_F400, .stimp all 0 8 6 61)]
theorem test_decode_array : decodesTo arrayWords = true := by decide +kernel

/-- The words of the engines, groups, tasks and the fabric (R225-R240, R346-R357, R372-R420, R449-R462). -/
def engineWords : List (Nat × Instr) :=
  [(0x3000_0000_0280_0001, .cpy ⟨all, 0, 0, 20, true, false⟩ false),
    (0x3011_0007_0780_0C02, .cgath ⟨all, 1, 7, 60, false, true⟩ 3),
    (0x3020_0001_0280_0800, .cscat ⟨all, 0, 1, 20, false, false⟩ 2),
    (0x3030_0001_0280_0400, .cexp ⟨all, 0, 1, 20, false, false⟩ 1),
    (0x3040_0001_0280_2400, .cpack ⟨all, 0, 1, 20, false, false⟩ 9), (0x3050_0000_0280_0000, .cpost all 0 20),
    (0x3050_0000_0280_0001, .cpostBind all 0 20), (0xB060_0000_0000_0002, .waittk), (0x3060_0000_00C0_0000, .waittkReg all 6),
    (0xB070_0000_0002_00FF, .tkint), (0x3070_0000_00C0_0001, .tkintReg all true 6), (0x3080_0000_0000_0000, .uiret),
    (0x3091_0000_00C0_1C00, .chain all 1 6 7), (0x30A0_0000_00C0_1C00, .chwait all 6 7),
    (0x30B0_0004_0060_0000, .gjoin all 4 3), (0x30C0_0000_0000_0000, .gleave), (0x30D0_0000_0000_0000, .gbar),
    (0x30D0_0000_00C0_0001, .gbarRole all 6), (0xB0D0_0000_0002_0002, .gbarRoleI all 2),
    (0x30D0_0000_00C0_0002, .gbarRows all 6), (0xB0D0_0000_0004_0010, .gbarRowsI all 16),
    (0x30E0_0000_0120_0000, .vsync all 9), (0x30F0_0004_00C0_0000, .gelect all 4 6), (0xB0F0_0004_0000_0001, .gelectI all 4 1),
    (0x3140_0000_0000_0000, .ckpt), (0x3100_0000_03C0_0000, .spawn all 0 30), (0x3100_0000_0100_0001, .spawnPipe all 0 8),
    (0x3110_0000_0080_1400, .qpush all 0 4 5), (0x3110_0000_0080_0001, .qpushClose all 0 4),
    (0x3120_0006_0080_0800, .qpop all 0 6 2 4), (0x3130_0000_0000_0000, .tdone), (0x3151_000C_0280_0000, .tmerge all 1 12 20),
    (0x3160_0000_02A0_0000, .tunmerge all 0 21), (0x3171_000C_0280_0000, .swmv all 1 12 20),
    (0x3180_0005_0280_5400, .swmig all 0 5 20 21), (0x3190_0000_0280_0000, .swage all 0 20),
    (0x31A0_0002_0280_0000, .xput all 0 2 20), (0x31B0_0005_0280_0000, .xgetB64 all 0 5 20),
    (0x31B0_0000_0300_0001, .xgetBlk all 0 24), (0x31C0_0000_0100_0000, .xcoll all 0 8), (0x31D0_0000_0120_0000, .xwait all 9),
    (0x31E0_0001_0280_5401, .xsig all 0 .fill 1 20 21)]
theorem test_decode_engine : decodesTo engineWords = true := by decide +kernel

/-- The pairs with a VAND in slot Y (R81-R86, R109). -/
def pairWords : List (Nat × Instr) :=
  [(0x4080_0C04_4A00_0002, .smovPair), (0x4200_0C04_4A00_0002, .saddPair), (0x4280_0C04_4A00_0002, .ssubPair),
    (0x4300_0C04_4A00_0002, .smulPair), (0x4500_0C04_4A00_0002, .sandPair), (0x4580_0C04_4A00_0002, .sorPair),
    (0x4600_0C04_4A00_0002, .sxorPair), (0x4680_0C04_4A00_0002, .sshlPair), (0x4700_0C04_4A00_0002, .sshrPair),
    (0x4780_0C04_4A00_0002, .ssraPair), (0x4800_0C04_4A00_0002, .sminPair), (0x4880_0C04_4A00_0002, .smaxPair),
    (0x4A00_0C04_4A00_0002, .spopcPair), (0x4A80_0C04_4A00_0002, .sclzPair), (0x4E80_0C04_4A00_0002, .mandPair),
    (0x4F00_0C04_4A00_0002, .morPair), (0x4F80_0C04_4A00_0002, .mxorPair), (0x5000_0C04_4A00_0002, .mnotPair),
    (0x6000_0C04_4A00_0002, .vmovPair), (0x6100_0C04_4A00_0002, .vaddPair), (0x6180_0C04_4A00_0002, .vsubPair),
    (0x6200_0C04_4A00_0002, .vmulPair), (0x6380_0C04_4A00_0002, .vminPair), (0x6400_0C04_4A00_0002, .vmaxPair),
    (0x6480_0C04_4A00_0002, .vabsdPair), (0x6500_0C04_4A00_0002, .vandPair), (0x6580_0C04_4A00_0002, .vorPair),
    (0x6600_0C04_4A00_0002, .vxorPair), (0x6680_0C04_4A00_0002, .vshlPair), (0x6700_0C04_4A00_0002, .vshrPair),
    (0x6780_0C04_4A00_0002, .vsraPair), (0x6800_0C04_4A00_0002, .vpopcPair), (0x6880_0C04_4A00_0002, .vclzPair),
    (0x6A00_0C04_4A00_0002, .vaddsPair), (0x6A80_0C04_4A00_0002, .vsubsPair), (0x7000_0C04_4A00_0002, .vfaddPair),
    (0x7080_0C04_4A00_0002, .vfsubPair), (0x7100_0C04_4A00_0002, .vfmulPair), (0x7200_0C04_4A00_0002, .vfminPair),
    (0x7280_0C04_4A00_0002, .vfmaxPair)]
theorem test_decode_pair : decodesTo pairWords = true := by decide +kernel

/-! ### Steps: one word from its fetch to its effect -/

/-- A state that fetches the word next, with its wave changed. -/
def placed (w : Nat) (f : Wave → Wave) : State :=
  let s := State.reset.withFetchWord 64 w
  { s with waves := s.waves.map f }

/-- Whether a step of that state completes with a wave as told. -/
def gives (w : Nat) (f : Wave → Wave) (g : Wave → Bool) : Bool := match step (placed w f) with
  | .next t => match t.wave 0 with
    | some x => g x
    | none => false
  | _ => false

/-- Registers s6 and s7; lane 0 of v4 and v5. -/
def scalars (x y : W64) (w : Wave) : Wave := (w.setS 6 x).setS 7 y
def lanes0 (x y : W32) (w : Wave) : Wave := (w.setV 4 0 x).setV 5 0 y
def caused (c : Cause) (w : Wave) : Bool := match w.run.trap with
  | some t => t.cause == c
  | none => false

/-- The six words of the table of R113: what each decodes to, or its cause and DETAIL. -/
theorem test_fates :
    decodeWord false 0xC000_0000_0000_0000 = .error ⟨0xC000_0000_0000_0000, 1, 0, false⟩ ∧
    decodeWord false 0x0220_0000_0000_0000 = .error ⟨0x0220_0000_0000_0000, 2, 0, false⟩ ∧
    decodeWord false 0x8050_0000_0000_0000 = .error ⟨0x8050_0000_0000_0000, 2, 1, false⟩ ∧
    decodeWord false 0x0042_0000_0000_0000 = .error ⟨0x0042_0000_0000_0000, 3, 1, false⟩ ∧
    decodeWord false 0x38A0_0000_0000_0000 = .error ⟨0x38A0_0000_0000_0000, 7, 1, false⟩ ∧
    decodeWord false 0x6280_0000_0400_0804 = .error ⟨0x6280_0000_0400_0804, 5, 1, false⟩ :=
  ⟨rfl, rfl, rfl, rfl, rfl, rfl⟩

/-! The borderline results of the table after R135, and the wave at its next word. -/

theorem test_sdiv_wraps : gives 0x0080_0005_00C0_1C00 (scalars 0x8000_0000_0000_0000 0xFFFF_FFFF_FFFF_FFFF) (fun w => w.getS 5 == 0x8000_0000_0000_0000) = true := by decide +kernel
theorem test_srem_sign : gives 0x0090_0005_00C0_1C02 (scalars 0xFFFF_FFF9 2) (fun w => w.getS 5 == 0xFFFF_FFFF_FFFF_FFFF) = true := by decide +kernel
theorem test_smulh_n64 : gives 0x0070_0005_00C0_1C01 (scalars 0x8000_0000_0000_0000 4) (fun w => w.getS 5 == 2) = true := by decide +kernel
theorem test_ssra_all : gives 0x00F0_0005_00C0_1C00 (scalars 0x8000_0000_0000_0000 70) (fun w => w.getS 5 == 0xFFFF_FFFF_FFFF_FFFF) = true := by decide +kernel
theorem test_sshr_i32_zero : gives 0x00E0_0005_00C0_1C02 (scalars 0x8000_0000 0) (fun w => w.getS 5 == 0xFFFF_FFFF_8000_0000) = true := by decide +kernel
theorem test_sdiv_zero : gives 0x0080_0005_00C0_1C01 (fun w => scalars 5 0 (w.setS 5 9)) (fun w => w.getS 5 == 9 && caused .intDivideZero w && w.slotA.pc == 0x10000) = true := by
  decide +kernel
theorem test_vadds_i8 : gives 0x0940_0006_0080_1404 (lanes0 120 20) (fun w => w.getV 6 0 == 127 && w.sys.fpstat == 128) = true := by
  decide +kernel
theorem test_vsubs_n8 : gives 0x0950_0006_0080_1405 (lanes0 3 5) (fun w => w.getV 6 0 == 0 && w.sys.fpstat == 128) = true := by
  decide +kernel
theorem test_vmulh_i16 : gives 0x0850_0006_0080_1402 (lanes0 0x4000 0x4000) (fun w => w.getV 6 0 == 0x1000 && w.sys.fpstat == 0) = true := by
  decide +kernel
theorem test_vmulh_i16_min : gives 0x0850_0006_0080_1402 (lanes0 0x8000 0x8000) (fun w => w.getV 6 0 == 0x4000 && w.sys.fpstat == 0) = true := by
  decide +kernel
theorem test_vsra_i8 : gives 0x08F0_0006_0080_1404 (lanes0 0x80 9) (fun w => w.getV 6 0 == 0xFF && w.sys.fpstat == 0) = true := by
  decide +kernel
theorem test_vabsd_i8 : gives 0x0890_0006_0080_1404 (lanes0 0x80 0x7F) (fun w => w.getV 6 0 == 0xFF && w.sys.fpstat == 0) = true := by
  decide +kernel
theorem test_vclz_i4 : gives 0x0910_0006_0080_0006 (lanes0 0x1111_1110 0) (fun w => w.getV 6 0 == 0x3333_3334) = true := by decide +kernel
theorem test_vbfx_sign : gives 0x0970_0006_0080_1C00 (fun w => lanes0 0x0000_0F00 0 (w.setS 7 0x408)) (fun w => w.getV 6 0 == 0xFFFF_FFFF) = true := by
  decide +kernel
theorem test_pc_advances : gives 0x0000_0000_0000_0000 id (fun w => w.slotA.pc == 0x10008 && w.slotA.mask == 0xFFFF_FFFF) = true := by decide +kernel
theorem test_brk_traps : gives 0x3880_0000_0000_0000 id (fun w => w.slotA.pc == 0x10008 && caused .breakpoint w && w.run.status == .halted) = true := by
  decide +kernel
theorem test_pair_step : gives 0x4880_0C04_4F40_0806 (fun w => ((w.setS 3 5).setS 4 7).setV 5 0 0x8000_4000 |>.setV 7 0 0x0001_0002)
    (fun w => w.getS 3 == 7 && w.getV 5 0 == 0xC000_1000) = true := by decide +kernel

/-! ### Witnesses: states and operands that meet the hypotheses of the statements, clause by clause -/

/-- A wave alone, at a word. -/
def alone (w : Wave) (ir : W64) : State := { State.reset with waves := [w], ir := ir }
theorem runs_alone (w : Wave) (ir : W64) : Runs (alone w ir) w := ⟨rfl, rfl⟩

/-- A wave with all its lanes, one with lane 31 alone, one without a lane, and one of a user context. -/
def full : Wave := Placed.theWave
def lane31 : Wave := { full with slotA := Slot.running 0x10000 0x80000000 none }
def empty : Wave := { full with slotA := Slot.running 0x10000 0 none }
def user : Wave := { full with place := { full.place with ctx := 1 } }

theorem ok_of {ε α : Type} {x : Except ε α} (h : x.isOk = true) : ∃ q, x = .ok q := by
  cases x with
  | ok q => exact ⟨q, rfl⟩
  | error e => cases h

/-- ScalarWords: a scalar word that writes s0 and one that writes s63, with and without a lane; a compare whose condition holds
and one whose does not; a division by 1 and one by 0. -/
theorem witness_ScalarWords :
    (∃ f, Runs (alone full 0) full ∧ scalarResult (.sadd ⟨all, .i64, 0, 1, 2⟩) = some (all, 0, f)) ∧
    (∃ f, Runs (alone empty 0) empty ∧ empty.active false all = 0 ∧ scalarResult (.smov ⟨all, 63, 1⟩) = some (all, 63, f)) ∧
    maskResult full (.scmp ⟨all, .i32, .eq, 15, 1, 2⟩) all 15 0xFFFFFFFF ∧
    maskResult full (.scmp ⟨all, .i32, .ne, 1, 1, 2⟩) all 1 0 ∧ maskResult full (.mnot all 1 0) all 1 0 ∧
    (∃ f, divides (.sdiv ⟨all, .i64, 5, 6, 7⟩) = some (⟨all, .i64, 5, 6, 7⟩, f)) ∧ lane31.active false all ≠ 0 ∧
    val .i64 ((lane31.setS 7 1).getS 7) ≠ 0 ∧ val .i64 (lane31.getS 7) = 0 :=
  ⟨⟨_, runs_alone .., rfl⟩, ⟨_, runs_alone .., by decide +kernel, rfl⟩,
    ⟨rfl, rfl, fun _ => rfl, fun h => absurd rfl h⟩, ⟨rfl, rfl, fun h => absurd rfl h, fun _ => rfl⟩, ⟨rfl, rfl, by decide⟩,
    ⟨_, rfl⟩, by decide +kernel, by decide +kernel, by decide +kernel⟩

/-- VectorIntegerWords: a word of 8 elements and one of 1, a clamped sum that is clamped and one that is not, and a compare. -/
theorem witness_VectorIntegerWords :
    (∃ f, Runs (alone full 0) full ∧ Instr.wellFormed 0 (.vadd (vb .i4 0 0)) = true ∧
      vectorResult (.vadd (vb .i4 0 0)) = some (.i4, all, 2, f)) ∧
    (∃ f, Instr.wellFormed 0 (.vshlI (vi .n32 0x1FFFF)) = true ∧ vectorResult (.vshlI (vi .n32 0x1FFFF)) = some (.n32, all, 2, f)) ∧
    (∃ f, Instr.wellFormed 0 (.vadds (vb .i8 0 0)) = true ∧ exactResult (.vadds (vb .i8 0 0)) = some (.i8, all, 2, f) ∧
      f ((full.setV 4 0 127).setV 5 0 1) 0 0 = 128 ∧ f full 0 0 = 0) ∧
    (∃ c, Instr.wellFormed 0 (.vcmp ⟨all, .n32, .lt, 15, 4, 5, 0, 0⟩) = true ∧
      compares (.vcmp ⟨all, .n32, .lt, 15, 4, 5, 0, 0⟩) = some (all, 15, c)) ∧ Pred.dead all = false :=
  ⟨⟨_, runs_alone .., by decide +kernel, rfl⟩, ⟨_, by decide +kernel, rfl⟩, ⟨_, by decide +kernel, rfl, by decide +kernel, by decide +kernel⟩,
    ⟨_, by decide +kernel, rfl⟩, rfl⟩

/-- WordPasses: slot A goes on with slot B free; its RPC lies behind the next word. -/
theorem witness_WordPasses : (alone full 0).wave (alone full 0).cur = some full ∧ (full.slot false).valid = true ∧
    Settled (full.slot true) ∧ Settled (nextWord (full.slot false)) ∧ Settled (full.slot false) ∧
    Settled (nextWord (Slot.running 0x10000 1 (some 0x10000))) :=
  ⟨rfl, rfl, .inl rfl, .inr ⟨rfl, by decide⟩, .inr ⟨rfl, by decide⟩, .inr ⟨rfl, by decide⟩⟩

/-- RegistersHoldTheirValues: a wave in its form, with registers at the ends of the files. -/
theorem witness_RegistersHoldTheirValues : let w := (((full.setS 63 1).setM 15 1).setV 2047 31 1)
    Cells.wf 0 w.s = true ∧ Cells.wf 0 w.m = true ∧ Cells.wf 0 w.v = true ∧ (63 : Nat) ≠ 0 ∧ 31 < 32 := by
  decide +kernel

theorem ungrouped_full (ir : W64) : Ungrouped (alone full ir) full := ⟨rfl, by intro g hg; cases hg⟩

/-- SystemRegisters: the first and the last index of each part, with and without the right; a wave that HALT stopped, one that a
trap halted, and one to be killed, each named by its PRIV. -/
theorem witness_SystemRegisters :
    mayName full 0x80 = true ∧ (∃ v, regValue (alone full 0) full 0x83 = some v) ∧ (∃ v, regValue (alone full 0) full 0x0D = some v) ∧
    mayName user 0x80 = false ∧ mayName user 0x7F = true ∧ regValue (alone full 0) full 0x0E = none ∧
    regValue (alone full 0) full 0x84 = none ∧ Ungrouped (alone full 0) full ∧ full.place.ctx = 0 ∧ full.active false all ≠ 0 ∧
    (let asleep : Wave := { full with run := { full.run with status := .asleep } }
     let halted : Wave := { full with run := { full.run with status := .halted } }
     let x : W64 := 0x20000
     let w := full.setS 5 x
     let s : State := { alone w 0 with waves := [w, { asleep with sys := { asleep.sys with priv := 0x20000 } }] }
     let t : State := { alone w 0 with waves := [w, { halted with sys := { halted.sys with priv := 0x20000 } }] }
     wokenWave s x = some 1 ∧ wokenWave t x = some 1 ∧ x.toNat % 4 = 0 ∧ (x + 1).toNat % 4 = 1 ∧ wokenWave t (x + 1) = some 1) ∧
    (wordPred 0x0180_0081_00A0_0000 = all ∧ (0x0180_0081_00A0_0000 : W64).extractLsb' 21 6 = 5) :=
  ⟨by decide, ⟨_, rfl⟩, ⟨_, rfl⟩, by decide, by decide, rfl, rfl, ungrouped_full 0, rfl, by decide +kernel,
    by decide +kernel, by decide +kernel⟩

/-- Waves for a branch: slot B busy, and a stack of 62 and of 64 entries. -/
def split : Wave := { full with slotA := Slot.running 0x10000 0xFFFF none, slotB := Slot.running 0x20000 0xFFFF0000 none }
def deep (n : Nat) (w : Wave) : Wave := { w with stack := List.replicate n (.join 0x30000 1 none) }
def m1 (x : W32) (w : Wave) : Wave := w.setM 1 x

/-- BranchAndSplit: no lane, every lane, some lanes with distance 0 and 1, with room and without, the other slot free and busy. -/
theorem witness_BranchAndSplit : let p : Pred := ⟨false, 1⟩
    (m1 0 full).active false p = 0 ∧ (m1 0xFFFFFFFF full).active false p = (full.slot false).mask ∧
    (m1 1 full).active false p ≠ 0 ∧ (m1 1 full).active false p ≠ (full.slot false).mask ∧ full.windows = [] ∧
    64 < (deep 64 full).stack.length + 1 ∧ (deep 63 full).stack.length < 64 ∧ (full.slot true).valid = false ∧
    64 < (deep 63 split).stack.length + 2 ∧ (deep 62 split).stack.length < 63 ∧ (split.slot true).valid = true ∧
    (m1 1 split).active false p ≠ 0 ∧ (m1 1 split).active false p ≠ (split.slot false).mask ∧ (1 : BitVec 11) ≠ 0 := by
  decide +kernel

/-- The same state with a page that may be executed, in which addresses of the page stand in registers. -/
def mapped (w : Wave) (ir : W64) : State := { State.reset.withFetchWord 64 0 with waves := [w], ir := ir }
theorem runs_mapped (w : Wave) (ir : W64) : Runs (mapped w ir) w := ⟨rfl, rfl⟩

/-- UniformBranches: every transfer, a loop whose counter is 0 and one whose is not, and each kind of target. -/
theorem witness_UniformBranches :
    (∃ c e, offsetJump (alone full 0) (.loop all 9 0xFFFFFFF) = some (all, c, e, 0xFFFFFFF) ∧ c full = false ∧
      c (full.setS 9 1) = true) ∧
    (∃ c e, offsetJump (alone full 0) (.call all 0 1) = some (all, c, e, 1)) ∧
    (∃ e, registerJump (alone full 0) (.callReg all 0 63) = some (all, 63, e)) ∧
    (0x1_0008 : W64).toNat % 8 = 0 ∧ (0x1_0004 : W64).toNat % 8 ≠ 0 ∧ (2 ^ 56 - 8 : W64).toNat < 2 ^ 56 ∧
    2 ^ 56 ≤ (2 ^ 56 : W64).toNat ∧ Executable (mapped full 0) full 0x10008 ∧ ¬ Executable (mapped full 0) full 0x8000000000 := by
  refine ⟨⟨_, _, rfl, by decide +kernel, by decide +kernel⟩, ⟨_, _, rfl⟩, ⟨_, rfl⟩, by decide, by decide, by decide, by decide,
    ok_of (by decide +kernel), ?_⟩
  rintro ⟨q, h⟩
  have e : (partOf (mapped full 0) (waveAgent full (mapped full 0).cur) .exec (0x8000000000 : W64).toNat 8).page =
      .error .pageNotPresent := rfl
  rw [e] at h; cases h

theorem quiet_full (ir : W64) : Quiet (mapped full ir) full := ⟨rfl, ⟨rfl, rfl⟩, rfl, rfl, rfl, rfl, rfl, rfl⟩

/-- A wave whose system handler stands at 0x4000, in memory that maps its private area. -/
def handler : Wave := { full with sys := { full.sys with sysvec := 0x4000 } }

/-- TakingATrap: a division by zero and an FP_TRAP of a quiet wave, without and with a handler. -/
theorem witness_TakingATrap : let r : Raise := { cause := .intDivideZero, lanes := 1 }
    let fp : Raise := { cause := .fpTrap, lanes := 1 }
    fp.kind = .p ∧ fp.eng = false ∧ fp.cause ∈ flagCauses ∧ (flagged full 0x10).sys.fpstat ≠ full.sys.fpstat ∧
    r.cause ∉ flagCauses ∧ (flagged full 0).sys.fpstat = full.sys.fpstat ∧
    Quiet (mapped full 0) full ∧ ¬ handled full ∧ handled handler ∧ Quiet (mapped handler 0) handler ∧
    r.kind = .p ∧ r.cause ≠ .pageNotPresent ∧ r.eng = false ∧
    (∃ q, walk (mapped full 0) 0 full.sys.priv.toNat = .ok q) ∧ full.sys.priv.toNat % 4096 = 0 ∧
    (match walk (mapped handler 0) 0 handler.sys.priv.toNat with
      | .ok q => (walk ((mapped handler 0).writePA q.pa (trapFrame (trapSlot handler r false) r false 0x10000 0)) 0
          (handler.sys.priv.toNat + 0x800)).isOk
      | .error _ => false) = true :=
  ⟨rfl, rfl, by decide, by decide, by decide, by decide, quiet_full 0, by unfold handled; decide, by unfold handled; decide, ⟨rfl, ⟨rfl, rfl⟩, rfl, rfl, rfl, rfl, rfl, rfl⟩, rfl, by decide,
    rfl, ok_of (by decide +kernel), by decide, by decide +kernel⟩

/-- TrapWords: a TRAP of code 255 and a BRK, with and without a lane. -/
theorem witness_TrapWords : trapCause 0xB870_0000_0000_00FF .trap = some (.softwareTrap, 255) ∧
    trapCause 0x3880_0000_0000_0000 .brk = some (.breakpoint, 0) ∧ full.active false (wordPred 0x3880_0000_0000_0000) ≠ 0 ∧
    empty.active false (wordPred 0x3880_0000_0000_0000) = 0 := by
  decide +kernel

/-- Few lanes, so that values are small: lane 0 alone. -/
def lane0 : Wave := { full with slotA := Slot.running 0x10000 1 none }
/-- The same with the trap of IV enabled and a signalling NaN in lane 0 of v4. -/
def trapping : Wave := { lane0.setV 4 0 0x7F80_0001 with sys := { lane0.sys with fpctl := 0x40 } }

/-- The cause of the words whose lanes raised flags, as `FlagEnds` takes it. -/
def ends (w : Wave) (fl : Nat → W32) : Option Raise := flagCause w (flagLanes (alone w 0) w all fl)
/-- A wave with some trap of FPCTL enabled. -/
def enabled (e : W32) (w : Wave) : Wave := { w with sys := { w.sys with fpctl := e } }

/-- RoundingIsCorrect: the least and the greatest mode, an exact value and one between two encodings, an exact zero, and a sum of
two numbers that cancel. -/
theorem witness_RoundingIsCorrect :
    Fmt.fp32 ∈ [Fmt.fp32, Fmt.fp16, Fmt.bf16] ∧ Fmt.bf16 ∈ [Fmt.fp32, Fmt.fp16, Fmt.bf16] ∧
    (roundNum Fmt.fp32 0 false false 1 0 false).2 &&& flagOF = 0 ∧
    (roundNum Fmt.bf16 3 false true 0x1000001 (-40) false).2 &&& flagOF = 0 ∧ ratio false 3 1 + ratio true 6 0 = 0 := by
  refine ⟨by simp, by simp, ?_, ?_, ?_⟩ <;> decide +kernel

/-- FloatWords: a sum without a flag, one whose flag traps, a scale of NaN that traps, and a compare without and with a trap. -/
theorem witness_FloatWords :
    (∃ f, Runs (alone lane0 0) lane0 ∧ Instr.wellFormed 0 (.vfadd (vb .f32 0 0)) = true ∧
      floatResult (.vfadd (vb .f32 0 0)) = some (all, f) ∧
      ends lane0 (fun l => (f lane0 l).2) = none ∧ ends trapping (fun l => (f trapping l).2) = some { cause := .fpTrap, lanes := 1 }) ∧
    (∃ f, Instr.wellFormed 0 (.vscl (vb .f32 0 0)) = true ∧ floatResult (.vscl (vb .f32 0 0)) = some (all, f) ∧
      ends (enabled 0x100 (lane0.setV 5 0 0xFF)) (fun l => (f (enabled 0x100 (lane0.setV 5 0 0xFF)) l).2) =
        some { cause := .scaleNan, lanes := 1 }) ∧
    (∃ c v, Instr.wellFormed 0 (.vfcmp ⟨all, .f16, .ge, 15, 4, 5, 7, 0⟩) = true ∧
      fcompares (.vfcmp ⟨all, .f16, .ge, 15, 4, 5, 7, 0⟩) = some (all, 15, c, v) ∧
      (∀ w ∈ [(lane0, (none : Option Raise)), (enabled 0x40 (lane0.setV 4 0 0x7E00_7E00), some { cause := .fpTrap, lanes := 1 })],
        ends w.1 (fun l => if (fmeets c (v w.1 l).1 (v w.1 l).2).2 then 0x10 else 0) = w.2)) :=
  ⟨⟨_, runs_alone .., by decide +kernel, rfl, by decide +kernel, by decide +kernel⟩, ⟨_, by decide +kernel, rfl, by decide +kernel⟩,
    ⟨_, _, by decide +kernel, rfl, by decide +kernel⟩⟩

/-- Conversions: one that narrows into the last part, without and with a trap, and one that widens; the groups: a scale below 255
and the scale 255, a NaN that traps, a marker in the last slot that traps; no unit poisoned. -/
theorem witness_Conversions :
    (let o : Cvt := ⟨all, .e4m3, .f32, 3, 10, 3, 0, false, false, true⟩
     Instr.wellFormed 0 (.vcvt o) = true ∧ cvtCount o = 1 ∧ cvtTo o 0 = 3 ∧
      (∀ w ∈ [(lane0, (none : Option Raise)), (enabled 0x40 (lane0.setV 3 0 0x7F80_0001), some { cause := .fpTrap, lanes := 1 })],
        ends w.1 (fun l => ((List.range (cvtCount o)).map (fun k => (cvtOne w.1 o l k).2)).foldl (· ||| ·) 0) = w.2)) ∧
    Instr.wellFormed 0 (.vcvt ⟨all, .f32, .i4, 7, 10, 3, 0, false, false, false⟩) = true ∧ Pred.dead all = false ∧
    q4Scale (lane0.setS 7 254) 7 < 255 ∧ q4Scale (lane0.setS 7 0xFFFF) 7 = 255 ∧ lane0.sys.fpctl.getLsbD 8 = false ∧
    (let w := enabled 0x40 (lane0.setV 4 0 0x7F80_0001)
     q4Signals (alone w 0) w all 4 0 ≠ 0 ∧ w.sys.fpctl.getLsbD 6 = true) ∧
    (enabled 0x100 lane0).sys.fpctl.getLsbD 8 = true ∧
    (let w := enabled 0x200 (lane0.setV 4 3 0x8000_0000)
     (decodeQ4 (q4Slots w 4) 32 0).2 ≠ [] ∧ w.sys.fpctl.getLsbD 9 = true) ∧
    poisonRaises lane0 4 0xF = [] := by
  decide +kernel

/-- SpecialFunctions: a reciprocal of a lane, and one that traps; a rotation without and with a trap; bands of 128 and of 129 pairs, pair indices 127 and 128; a partial of 3 registers. -/
theorem witness_SpecialFunctions :
    (∃ o f, special (.vrcp ⟨all, 15, 6, 4, 0⟩) = some (o, f) ∧ lane0.active false o.p ≠ 0 ∧
      (∀ w ∈ [(lane0.setV 4 0 0x3F80_0000, (none : Option Raise)), (trapping, some { cause := .fpTrap, lanes := 1 })],
        ends w.1 (fun l => (f (Fmt.fp32.decode (src .f32 o.ma (w.1.getV o.a.toNat l) 0))).2) = w.2)) ∧
    (let w : Wave := { lane0 with sys := { lane0.sys with ropepart := 0x2A2B2B } }
     let far := w.setV 10 0 128
     let signals := enabled 0x40 (w.setV 4 0 0x7F80_0001)
     bandT w + bandH w + bandW w = 128 ∧ ends w (fun l => (rope w 20 4 l).2) = none ∧
      ends signals (fun l => (rope signals 20 4 l).2) = some { cause := .fpTrap, lanes := 1 } ∧
      128 < bandT { w with sys := { w.sys with ropepart := 0x2B2B2B } } + 0x2B + 0x2B ∧ 127 < (far.getV 10 0).toNat ∧
      ¬ 127 < ((w.setV 10 0 127).getV 10 0).toNat) :=
  ⟨⟨_, _, rfl, by decide +kernel, by decide +kernel⟩, by decide +kernel⟩

/-- LanesAcross: lane 31 read and written by SRDV and SWRV, poisoned and not; lanes that move, a mask over lanes, no lane. -/
theorem witness_LanesAcross :
    (∃ n, reads (.srdvI all 5 2047 31) = some (all, 5, 2047, n) ∧ n full = 31 ∧ full.active false all ≠ 0 ∧
      full.poison.has (32 * 2047 + 31) = false ∧ ({ full with poison := [(32 * 2047 + 31, true)] } : Wave).poison.has (32 * 2047 + 31) = true) ∧
    (∃ n, writes (.swrv all 9 6 7) = some (all, 9, 6, n) ∧ n (full.setS 7 0xFFFF) = 31) ∧ empty.active false all = 0 ∧
    full.poison = [] ∧ (∃ m, moves (.vrotI ⟨all, .i8, 6, 4, 31⟩) = some m ∧ m.take full 31 = 30) ∧
    (∃ f, crossMask (alone full 0) full (.vany all true 1 4) = some (all, 1, f)) ∧ Pred.dead all = false :=
  ⟨⟨_, rfl, by decide +kernel, by decide +kernel, by decide +kernel, by decide +kernel⟩, ⟨_, rfl, by decide +kernel⟩,
    by decide +kernel, rfl, ⟨_, rfl, by decide +kernel⟩, ⟨_, rfl⟩, rfl⟩

/-- Two lanes, of which one holds a signalling NaN in v4; all its registers may trap. -/
def lane01 : Wave := { (trapping.setV 2 0 0x7F80_0001) with slotA := Slot.running 0x10000 3 none }

/-- Reductions: one active lane, none, integer words that raise no flag, and a sum, a segmented sum and a sum by key that trap
for the two lanes of whose values one is a signalling NaN. -/
theorem witness_Reductions :
    lane0.active false all ≠ 0 ∧ empty.active false all = 0 ∧ (activeLanes (alone lane0 0) lane0 all).length = 1 ∧
    ends lane0 (fun _ => (aloneValue .fadd lane0.ftz 0).2) = none ∧
    (∃ p d z y, steps (alone lane0 0) lane0 (.vsegscan ⟨all, .i32, 6, 4, 3, 0⟩) = some (p, d, z, y) ∧
      ends lane0 (raisedBy y) = none) ∧
    ends lane01 ((node (combine .fadd lane01.rm lane01.ftz) (enters (alone lane01 0) lane01 all (lane01.getV 4)) 5 0).flags) =
      some { cause := .fpTrap, lanes := 3 } ∧
    (∃ p d z y, steps (alone lane01 0) lane01 (.vsegscan ⟨all, .f32, 6, 4, 3, 0⟩) = some (p, d, z, y) ∧
      ends lane01 (raisedBy y) = some { cause := .fpTrap, lanes := 3 }) ∧
    leads (alone lane01 0) lane01 all 7 0 = true ∧
    ends lane01 (raisedBy (fun l => foldOf (combine (addIn .f32) lane01.rm lane01.ftz)
      (if leads (alone lane01 0) lane01 all 7 l then ofKey (alone lane01 0) lane01 all 7 4 l else []))) =
      some { cause := .fpTrap, lanes := 3 } :=
  ⟨by decide +kernel, by decide +kernel, by decide +kernel, by decide +kernel, ⟨_, _, _, _, rfl, by decide +kernel⟩, by decide +kernel,
    ⟨_, _, _, _, rfl, by decide +kernel⟩, by decide +kernel, by decide +kernel⟩

/-- RowsAndOrder: rows of 2^20 - 1 and 2^20 elements, rows that end at 2^20 and beyond it, both types, both halves. -/
theorem witness_RowsAndOrder :
    (let s := alone (full.setV 4 0 0xFFFFF) 0
     let w := full.setV 4 0 0xFFFFF
     (∀ i, i < 32 → rowLen s w all 4 i < 2 ^ 20) ∧ rowStart s w all 4 32 ≤ 2 ^ 20) ∧
    2 ^ 20 ≤ rowLen (alone (full.setV 4 31 0x100000) 0) (full.setV 4 31 0x100000) all 4 31 ∧
    (let w := (full.setV 4 0 0xFFFFF).setV 4 31 2
     2 ^ 20 < rowStart (alone w 0) w all 4 32) ∧ full.poison = [] ∧ placeOf full false 4 5 63 = 63 := by
  decide +kernel

/-- Lane 0 with a scratchpad window, an address in s4, and BOUND at the end of the element. -/
def memw : Wave := { lane0.setS 4 0x4000 with
  place := { lane0.place with scratchLen := 4096 }
  sys := { lane0.sys with bound := 8 } }
/-- The same with its address at the last word of the window. -/
def scrw : Wave := { (lane0.setS 4 4088) with
  place := { lane0.place with scratchLen := 4096 }
  sys := { lane0.sys with bound := 8 } }
/-- A state whose page is tagged (R407), and one in which a word of it is full. -/
def tagged (w : Wave) (ir : W64) : State :=
  let s := mapped w ir
  { s with mem := s.mem.writeN Placed.third (leBytes 16 (Placed.leafEntry Placed.page + 0x20)) }
def fullWord (w : Wave) (ir : W64) : State :=
  let s := tagged w ir
  { s with mem := s.mem.setFull 0x4000_4000 true }

theorem noTx_of {s : State} (h : s.waves.all (fun u => u.tx.isNone) = true) : NoTx s := by
  intro u hu
  have := List.all_eq_true.1 h u hu
  cases ht : u.tx <;> simp_all

/-- MemoryReadsBack: the empty memory, and a memory with a byte. -/
theorem witness_MemoryReadsBack : ({} : Memory).wf = true ∧ (({} : Memory).writeN 0 [1]).wf = true := by decide +kernel

/-- LoadWords: an aligned .acq load of 8 bytes whose element ends at BOUND, a block load, a load at the end of the scratchpad. -/
theorem witness_LoadWords :
    NoTx (mapped memw 0) ∧ Runs (mapped memw 0) memw ∧
    (∃ f d, loads (.vld (vm 1 .acq .b64 .cl 0 true)) = some (f, d, false) ∧ f.Clear (mapped memw 0) memw .read) ∧
    (∃ f d, loads (.vldbI ⟨all, 0, 2, 4, 0x1FFFF, .b16, .die⟩) = some (f, d, false) ∧ f.Clear (mapped memw 0) memw .read) ∧
    (∃ f d, loads (.sldI ⟨all, 0, 2, 4, 1, .b64, .cl⟩) = some (f, d, false) ∧ f.Clear (mapped memw 0) memw .read) ∧
    (∃ f d, loads (.vlds (vm 0 .plain .b64 .cl 7 true)) = some (f, d, true) ∧ f.Reaches (mapped scrw 0) scrw true) := by
  refine ⟨noTx_of rfl, runs_mapped .., ⟨_, _, rfl, ?_⟩, ⟨_, _, rfl, ?_⟩, ⟨_, _, rfl, ?_⟩, ⟨_, _, rfl, ?_⟩⟩ <;>
    simp only [Form.Clear, Form.Reaches, Claims.Clear] <;> decide +kernel

/-- StoreWords: a store of 16 bytes, a scalar one, one at the end of the scratchpad. -/
theorem witness_StoreWords :
    (∃ f d, stores (.vstq (vm 0 .rel .b8 .cl 0 false) true) = some (f, d, false) ∧ f.Clear (mapped memw 0) memw .write) ∧
    (∃ f d, stores (.sst (sm 2 0 .rel .b64 7 true)) = some (f, d, false) ∧ f.Clear (mapped memw 0) memw .write) ∧
    (∃ f d, stores (.vstsI ⟨all, 0, 2, 4, 0, .b64, .cl⟩) = some (f, d, true) ∧ f.Reaches (mapped scrw 0) scrw false) ∧
    (mapped memw 0).mem.wf = true := by
  refine ⟨⟨_, _, rfl, ?_⟩, ⟨_, _, rfl, ?_⟩, ⟨_, _, rfl, ?_⟩, by decide +kernel⟩ <;>
    simp only [Form.Clear, Form.Reaches, Claims.Clear] <;> decide +kernel

/-- AtomicWords: one that host memory does not support, one that it does, one in the scratchpad. -/
theorem witness_AtomicWords :
    (∃ a, atomics (.vatom (vm 0 .ar .b64 .sys 0 true) .smin) = some a ∧ a.form.Clear (mapped memw 0) memw .both ∧ a.scratch = false ∧
      ∀ l ∈ a.form.lanes (mapped memw 0) memw, ∀ r ∈ rangesAt (mapped memw 0) memw .both (a.form.at memw l) a.form.size,
        isHost r.1 = false) ∧
    (∃ a, atomics (.scas (sm 62 0 .plain .b32 0 false)) = some a ∧ a.form.Clear (mapped memw 0) memw .both ∧ a.host = true) ∧
    (∃ a, atomics (.vatoms (vm 0 .plain .b32 .cl 0 true) .fadd) = some a ∧ a.scratch = true ∧
      a.form.Reaches (mapped scrw 0) scrw true) := by
  refine ⟨⟨_, rfl, ?_, rfl, ?_⟩, ⟨_, rfl, ?_, rfl⟩, ⟨_, rfl, rfl, ?_⟩⟩
  all_goals simp only [Form.Clear, Form.Reaches, Claims.Clear]
  all_goals decide +kernel

/-- ScratchpadChecks: an element that ends one byte beyond BOUND and no lane left; one of two lanes beyond it; the tag table empty and with the line in
another slot, the first and the last slot of the window. -/
theorem witness_ScratchpadChecks :
    (let w := { scrw with sys := { scrw.sys with bound := 7 } }
     let f := vecForm (vm 0 .plain .b64 .cl 0 true) 8 1
     maskOf (fun l => (w.active false all).getLsbD l && decide (w.sys.bound.toNat < (f.term w l).toNat + 8)) = 1 ∧
       (activeLanes (mapped w 0) w all).filter (fun l => !(1 : W32).getLsbD l) = [] ∧ (1 : W32).getLsbD 0 = true ∧ ∀ l, ¬ l < 0) ∧
    (let w := { scrw.setV 5 1 8 with slotA := Slot.running 0x10000 3 none }
     let f := vecForm (vm 2 .plain .b64 .cl 0 true) 8 1
     maskOf (fun l => (w.active false all).getLsbD l && decide (w.sys.bound.toNat < (f.term w l).toNat + 8)) = 2 ∧
       (activeLanes (mapped w 0) w all).filter (fun l => !(2 : W32).getLsbD l) = [0] ∧
       reaches (scratchRanges (mapped w 0) 0) (f.at w 0) 8 = true ∧ ((mapped w 0).core 0).spPoison (f.at w 0) 8 = none ∧
       (2 : W32).getLsbD 1 = true ∧ ∀ l, l < 1 → (2 : W32).getLsbD l = false) ∧
    (let w := { scrw with place := { scrw.place with scratchLen := 4096 } }
     reaches (scratchRanges (mapped w 0) 0) (128 * 31) 128 = true ∧ reaches (scratchRanges (mapped w 0) 0) 0 128 = true ∧
      ((mapped w 0).core 0).tags.find? (fun e => e.2 == 0x8000_0000_0000_0000) = none ∧
      (let s := (mapped w 0).updCore 0 (fun c => { c with tags := [(1, 0x8000_0000_0000_0000)] })
       (s.core 0).tags.find? (fun e => e.2 == 0x8000_0000_0000_0000) = some (1, 0x8000_0000_0000_0000))) := by
  decide +kernel

theorem tagged_of {s : State} {w : Wave} {need : Need} {va pa : Nat} (h : Claims.Clear s w need va 8 8)
    (q : (match partsAt s w need va 8 with
      | [⟨v, 8, .ok q⟩] => v == va && q.tag && q.pa == pa
      | _ => false) = true) : Tagged s w need va pa := by
  refine ⟨h, ?_⟩
  split at q
  · rename_i v x e
    simp only [Bool.and_eq_true, beq_iff_eq] at q
    obtain ⟨⟨rfl, h1⟩, h2⟩ := q
    exact ⟨_, e, h1, h2⟩
  · cases q

/-- FullEmptyWords: a word that is full and one that is empty, on a tagged page, without waiters. -/
theorem witness_FullEmptyWords :
    Tagged (tagged memw 0) memw .read 0x4000 0x4000_4000 ∧ Tagged (fullWord memw 0) memw .both 0x4000 0x4000_4000 ∧
    (tagged memw 0).mem.isFull 0x4000_4000 = false ∧ (fullWord memw 0).mem.isFull 0x4000_4000 = true ∧
    NoWaiters (fullWord memw 0) 0x4000_4000 ∧ NoTx (tagged memw 0) ∧ feAt memw ⟨all, 0, 2, 4, .plain, .cl⟩ = 0x4000 ∧
    wordPred 0 = all := by
  refine ⟨tagged_of ?_ ?_, tagged_of ?_ ?_, ?_, ?_, ?_, noTx_of rfl, ?_, ?_⟩
  all_goals try simp only [Claims.Clear, NoWaiters]
  all_goals decide +kernel

/-- Another wave that waits on the word for a state of it: its word is an LFULL or an SFULL of s5. -/
def waiter (kind : WaitKind) : Wave :=
  { full with slotA := { full.slotA with wait := some { kind := kind, ticket := 7, word := 0x20F0_0005_0060_000C } } }
def besides (kind : WaitKind) (isFull : Bool) : State :=
  let s := if isFull then fullWord memw 0 else tagged memw 0
  { s with waves := [memw, waiter kind] }

theorem oneWaiter_of {s : State} {pa j : Nat} {b full take : Bool} {u : Wave} {x : Wait} (hw : s.wave j = some u)
    (hx : (u.slot b).wait = some x) (h : decide ((j ≠ s.cur ∧ (u.slot b).valid = true ∧
      waitersOf s pa full = [⟨j, b, x.ticket, take, x.word⟩] ∧ waitersOf s pa (!full) = []) ∧
      s.fabric.fills.find? (fun e => e.2.2 == pa) = none ∧ u.windows = [] ∧ wordLa x.word = 0 ∧
      ((nextWord (u.slot b)).parked = false ∧ (nextWord (u.slot b)).rpc ≠ some (nextWord (u.slot b)).pc) ∧
      (u.slot (!b)).valid = false) = true) : OneWaiter s pa full j b u x take := by
  have h := of_decide_eq_true h
  exact ⟨h.1.1, hw, ⟨h.1.2.1, hx⟩, h.1.2.2, h.2.1, ⟨h.2.2.1, h.2.2.2.1⟩, .inr h.2.2.2.2.1, .inl h.2.2.2.2.2⟩

/-- FullEmptyWaiters: another wave waits in LFULL, in LFULL.take and in SFULL, on a word in the other state. -/
theorem witness_FullEmptyWaiters :
    (∀ take, OneWaiter (besides (.wordFull 0x4000_4000 take 0x4000) false) 0x4000_4000 true 1 false
      (waiter (.wordFull 0x4000_4000 take 0x4000)) ⟨.wordFull 0x4000_4000 take 0x4000, 7, 0x20F0_0005_0060_000C⟩ take ∧
      Tagged (besides (.wordFull 0x4000_4000 take 0x4000) false) memw .both 0x4000 0x4000_4000 ∧
      (besides (.wordFull 0x4000_4000 take 0x4000) false).mem.isFull 0x4000_4000 = false) ∧
    OneWaiter (besides (.wordEmpty 0x4000_4000 0x4000) true) 0x4000_4000 false 1 false
      (waiter (.wordEmpty 0x4000_4000 0x4000)) ⟨.wordEmpty 0x4000_4000 0x4000, 7, 0x20F0_0005_0060_000C⟩ false ∧
    Tagged (besides (.wordEmpty 0x4000_4000 0x4000) true) memw .both 0x4000 0x4000_4000 ∧
    (besides (.wordEmpty 0x4000_4000 0x4000) true).mem.isFull 0x4000_4000 = true ∧
    (let m := ((besides (.wordEmpty 0x4000_4000 0x4000) false).mem.writeN 0x4000_4000 (leBytes 8 5)).setFull 0x4000_4000 true
     m.poisoned 0x4000_4000 8 = false) ∧ feAt memw ⟨all, 0, 2, 4, .plain, .cl⟩ = 0x4000 := by
  refine ⟨fun take => ?_, oneWaiter_of rfl rfl (by decide +kernel), tagged_of ?_ ?_, ?_, ?_, ?_⟩
  · cases take <;> refine ⟨oneWaiter_of rfl rfl (by decide +kernel), tagged_of ?_ ?_, ?_⟩
    all_goals try simp only [Claims.Clear]
    all_goals decide +kernel
  all_goals try simp only [Claims.Clear]
  all_goals decide +kernel

/-- NopAndFence: a fence of a wave that posted nothing, and of one that posted a copy; the words 0 and 1 of opcode 0. -/
theorem witness_NopAndFence : full.active false all ≠ 0 ∧ (full.slot false).wait = none ∧
    postedBefore (alone full 0) 0 (alone full 0).ticket = false ∧ (0 : W64).toNat / 2 ^ 52 = 0 ∧ (1 : W64).toNat / 2 ^ 52 = 0 ∧
    (let s := { (alone full 0).updCore 0 (fun c => { c with rings := [{ base := 0, size := 0, ctx := 0, key := 0, entries := [
      { words := [], bound := 0, wave := 0, oete := false, order := 0, index := 0 }] }] }) with ticket := 1 }
     postedBefore s 0 s.ticket = true) := by
  decide +kernel

/-- A wave with an open transaction, that wrote a byte, and one whose transaction met a conflict. -/
def open1 : Wave := { full with tx := some { openedTx false full.slotA 0 0x18000 false 0 false with written := [(0x4000_4000, some 1)] } }
def clash : Wave := { full with tx := some { openedTx false full.slotA 0 0x18000 false 0 false with conflict := true } }
/-- One that wrote a page which has since been shared (two references, no W), and a serialised one of the cluster. -/
def sharer : Wave := { full with tx := some { openedTx false full.slotA 0 0x18000 false 0 false with pages := [0x4000] } }
def sharedState : State :=
  let s := mapped sharer 0
  { s with mem := s.mem.writeN Placed.third (leBytes 16 (2 ^ 65 + Placed.page + 0x117)) }
def serial1 : Wave := { full with tx := some (openedTx false full.slotA 0 0x18000 true 0 true) }

/-- Transactions: a wave that may begin one, one that has one and one with both slots; a commit, a page shared since, and
the aborts; another wave's serialised transaction. -/
theorem witness_Transactions : full.active false all ≠ 0 ∧ NoTx (alone full 0) ∧ (full.slot true).valid = false ∧
    open1.tx.isSome = true ∧ (split.slot true).valid = true ∧ full.tx = none ∧
    (∃ t, open1.tx = some t ∧ t.conflict = false ∧ Cells.wf none t.written = true ∧ ¬ SharedSince (alone open1 0) open1 t ∧
      Settled (Slot.running t.abortPc t.mask t.rpc)) ∧
    (∃ t, sharer.tx = some t ∧ t.conflict = false ∧ SharedSince sharedState sharer t) ∧
    (∀ cl, SerialMeets { alone full 0 with waves := [full, serial1] } full cl) ∧
    open1.active false (wordPred 0) ≠ 0 ∧ open1.windows = [] ∧ (alone open1 0).mem.wf = true ∧
    (∃ t, clash.tx = some t ∧ t.conflict = true ∧ Settled (Slot.running t.abortPc t.mask t.rpc) ∧
      ({ alone clash 0 with target := .wave 0 } : State).wave 0 = some clash) :=
  ⟨by decide +kernel, noTx_of rfl, rfl, rfl, rfl, rfl,
    ⟨_, rfl, rfl, by decide +kernel, (by rintro ⟨va, h, -⟩; cases h), .inr ⟨rfl, by decide +kernel⟩⟩,
    ⟨_, rfl, rfl, 0x4000, by decide, by decide +kernel⟩,
    fun _ => ⟨1, serial1, _, by decide, rfl, rfl, rfl, rfl, by cases ‹Bool› <;> rfl⟩, by decide +kernel, rfl, by decide +kernel,
    ⟨_, rfl, rfl, .inr ⟨rfl, by decide +kernel⟩, rfl⟩⟩

/-- A table at 0x4000 with an entry for one block, or for 64 experts; its first word holds a placement entry of rank 7. -/
def tabled : Wave := (full.setS 4 0x4000).setS 5 1
def tableMem : State :=
  let s := mapped tabled 0
  { s with mem := s.mem.writeN 0x4000_4000 (leBytes 8 (2 ^ 63 + 7)) }

/-- TableLookups: position 0 in a table of one block; position 0 of one expert, with a valid entry; and each beyond the table. -/
theorem witness_TableLookups : NoTx tableMem ∧ Runs tableMem tabled ∧ tabled.active false all ≠ 0 ∧ (tabled.getS 4).toNat % 8 = 0 ∧
    (∀ l ∈ activeLanes tableMem tabled all, (tabled.getV 2 l).toNat / 64 < tableCount tabled 4 ∧
      Claims.Clear tableMem tabled .read (tableAt tabled 4 ((tabled.getV 2 l).toNat / 64)) 8 1) ∧
    (∀ l ∈ activeLanes tableMem tabled all, (tabled.getV 2 l).toNat < tableCount tabled 4 ∧
      Claims.Clear tableMem tabled .read (tableAt tabled 4 (tabled.getV 2 l).toNat) 8 1 ∧ placement tableMem tabled 2 4 l / 2 ^ 63 % 2 = 1 ∧
      placement tableMem tabled 2 4 l / 2 ^ 48 % 2 ^ 15 = 0 ∧ placement tableMem tabled 2 4 l / 2 ^ 16 % 2 ^ 8 = 0) ∧
    tableCount tabled 4 ≤ ((tabled.setV 2 31 64).getV 2 31).toNat / 64 ∧ tableCount tabled 4 ≤ ((tabled.setV 2 31 1).getV 2 31).toNat := by
  refine ⟨noTx_of rfl, ⟨rfl, rfl⟩, ?_⟩
  simp only [Claims.Clear]
  decide +kernel

/-! #### Pairs, the end of a wave, system words, forked pages -/

/-- A wave with a signalling NaN in lane 0 of v0 to v63 and the trap of IV enabled. -/
def nans : Wave := (List.range 64).foldl (fun w k => w.setV k 0 0x7F80_0001) (enabled 0x40 lane0)

/-- PairWords: two scalar slots, which take no trap, and a vector-float slot Y beside a scalar slot X, which takes one for slot Y
alone. -/
theorem witness_PairWords :
    (Instr.wellFormed 0x4880_0C04_4F40_0806 .smaxPair = true ∧ Instr.pairOp .smaxPair = some .smax ∧
      ∃ q, codeY 0x4880_0C04_4F40_0806 = some q) ∧
    (let x := halfResult (alone full 0x4880_0C04_4F40_0806) full .smax (halfX 0x4880_0C04_4F40_0806) false
     let y := halfResult (alone full 0x4880_0C04_4F40_0806) full .mnot (halfY 0x4880_0C04_4F40_0806) true
     flagLanes (alone full 0x4880_0C04_4F40_0806) full ⟨false, 0⟩ (fun l => x.2 l ||| y.2 l) (fpEnabled full) = 0) ∧
    Instr.wellFormed 0x4880_0C04_6000_0002 .smaxPair = true ∧ codeY 0x4880_0C04_6000_0002 = some .vfadd ∧
    (let s := alone nans 0x4880_0C04_6000_0002
     let x := halfResult s nans .smax (halfX 0x4880_0C04_6000_0002) false
     let y := halfResult s nans .vfadd (halfY 0x4880_0C04_6000_0002) true
     flagLanes s nans ⟨false, 0⟩ (fun l => x.2 l ||| y.2 l) (fpEnabled nans) = 1 ∧
      flagLanes s nans ⟨false, 0⟩ x.2 (fpEnabled nans) = 0) :=
  ⟨⟨by decide +kernel, rfl, _, rfl⟩, by decide +kernel⟩

/-- ExitAndSystemWords: no lane, one lane of many, all of them with the other slot valid, and all of them at the end; a saved
frame behind a handler; and each kind of operand of TLBINV. -/
theorem witness_ExitAndSystemWords : let ir : W64 := 0x0000_0800_0000_0000
    wordPred ir = ⟨false, 1⟩ ∧ full.sync = [] ∧ full.run.status = .running ∧
    (m1 0 full).active false (wordPred ir) = 0 ∧ (m1 0 full).slotA.valid = true ∧
    (m1 1 full).active false (wordPred ir) ≠ 0 ∧ full.slotA.mask &&& ~~~ (m1 1 full).active false (wordPred ir) ≠ 0 ∧
    split.slotA.mask &&& ~~~ (m1 0xFFFF split).active false (wordPred ir) = 0 ∧ (split.slot true).valid = true ∧
    Settled (split.slot true) ∧ full.slotA.mask &&& ~~~ (m1 0xFFFFFFFF full).active false (wordPred ir) = 0 ∧
    (full.slot true).valid = false ∧ full.stack = [] := by
  refine ⟨by decide +kernel, rfl, rfl, by decide +kernel, rfl, by decide +kernel, by decide +kernel, by decide +kernel, rfl,
    .inr ⟨rfl, by decide +kernel⟩, by decide +kernel, rfl, rfl⟩

/-- A wave in its handler; memory holds the slots that the entry saved. -/
def inside1 : Wave := { full with sys := { full.sys with inHandler := true } }
def saved1 : State :=
  let s := mapped inside1 0
  { s with mem := s.mem.writeN 0x4002_0800 (slotImage full.slotA ++ slotImage split.slotB) }

theorem witness_handlers : inside1.active false (wordPred 0) ≠ 0 ∧ inside1.slotB.valid = false ∧ inside1.sys.inHandler = true ∧
    inside1.abandoned = [] ∧ full.slotA.faults = inside1.run.heldFaults.1 ∧ split.slotB.faults = inside1.run.heldFaults.2 ∧ (∃ q, walk saved1 0 (inside1.sys.priv.toNat + 0x800) = .ok q) ∧
    (match walk saved1 0 (inside1.sys.priv.toNat + 0x800) with
      | .ok q => (saved1.mem.readN q.pa 64).take 48 == slotImage full.slotA ++ slotImage split.slotB
      | .error _ => false) = true ∧
    full.slotA.wait = none ∧ split.slotB.wait = none ∧ full.slotA.rpc ≠ some (BitVec.allOnes 64) ∧
    split.slotB.rpc ≠ some (BitVec.allOnes 64) ∧ Settled full.slotA ∧ Settled split.slotB ∧
    full.sys.inHandler = false ∧ split.slotB.valid = true ∧ split.active false (wordPred 0) ≠ 0 ∧
    (let b : Nat := 0x5FF; b < 2 ^ 11 ∧ b / 2 ^ 9 % 4 ≠ 3) ∧ (let b : Nat := 0x600; b / 2 ^ 9 % 4 = 3) :=
  ⟨by decide +kernel, rfl, rfl, rfl, rfl, rfl, ok_of (by decide +kernel), by decide +kernel, rfl, rfl, by decide, by decide,
    .inr ⟨rfl, by decide +kernel⟩, .inr ⟨rfl, by decide +kernel⟩, rfl, rfl, by decide +kernel, by decide, by decide⟩

/-- Context 1 with a table of 64 KiB pages: one at 0, one that names it as forked, a large page elsewhere and a free slot. -/
def forkMem : Memory :=
  let m := ((((({} : Memory).writeN 0x100000 (leBytes 16 0x102001)).writeN 0x102000 (leBytes 16 0x104001)).writeN 0x104000
    (leBytes 16 0x106001)).writeN 0x106000 (leBytes 16 0x108001)).writeN 0x108000 (leBytes 16 0x8000_017F)
  (m.writeN 0x108010 (leBytes 16 (0x9000_0177 + 2 ^ 127 + 0x10800 * 2 ^ 64))).writeN 0x108020 (leBytes 16 0xA000_016F)
def forker : Wave := { ((full.setS 4 0x1230).setS 5 0x50000) with place := { full.place with ctx := 1 } }
def forks : State :=
  { State.reset with
    mem := forkMem
    waves := [forker]
    ctxs := updAt State.reset.ctxs 1 (fun x => { x with root := 0x100000 }) }

/-- ForkedPages: a page that can be shared, a forked one, one that is not a user page and a slot that is taken. -/
theorem witness_ForkedPages : Runs forks forker ∧ forker.active false all ≠ 0 ∧
    (∀ va ∈ [0x1230, 0x11230], (match walk forks 1 va with
      | .ok x => decide (x.size = 2 ^ 16 ∧ x.user = true ∧ x.host = false) &&
        decide (leNat (forks.mem.readN (primaryOf x) 16) / 2 ^ 64 % 2 ^ 16 < 0xFFFF)
      | .error _ => false) = true) ∧
    (match walk forks 1 0x21230 with
      | .ok x => decide (x.size = 2 ^ 16) && !x.user
      | .error _ => false) = true ∧
    (slotFrom forks 0x50000 ((forks.ctx 1).root.toNat / 4096 * 4096) pageLevels = .slot 0x108050 false) ∧
    (slotFrom forks 0x11230 ((forks.ctx 1).root.toNat / 4096 * 4096) pageLevels = .slot 0x108010 true) :=
  ⟨⟨rfl, rfl⟩, by decide +kernel, by decide +kernel, by decide +kernel, rfl, rfl⟩

/-! #### The array -/

/-- A wave that owns every frame but those of its last entries, and every edge register. -/
def framed : Wave := { full with place := { full.place with
  frameMap := (List.range 32).map (fun e => if e < 30 then some e else none)
  edgeMap := (List.range 8).map some } }
/-- One without any. -/
def bare : Wave := full
/-- An array operation of the wave. -/
def opOf (i : Instr) (sc : List W64) : ArrayOp :=
  { wave := 0
    card := none
    cap :=
      { instr := i
        word := 0
        pc := 0x10000
        slotB := false
        lanes := 1
        scalars := sc
        vectors := []
        order := 0 } }
/-- The wave with that operation at the head of the sequencer of its core. -/
def queued (i : Instr) (sc : List W64) : State := (alone framed 0).updCore 0 (fun c => { c with queue := [opOf i sc] })
def mma1 : MmaOp := ⟨all, 0, 1, 0, 2, 3, false⟩

/-- ArrayPosting: an MMA with room, without room, and without its frame; without a lane. -/
theorem witness_ArrayPosting : arrayForm (.mma mma1) = some (all, 0) ∧ wordPred 0 = all ∧ empty.active false all = 0 ∧
    framed.active false all ≠ 0 ∧
    arrayChecks framed 0xFFFFFFFF (arrayScalars framed.getS (.mma mma1)) (.mma mma1) ++
      streamPoison framed (arrayScalars framed.getS (.mma mma1)) (.mma mma1) = [] ∧
    arrayPending (alone framed 0) 0 < 4 ∧
    arrayPending ((alone framed 0).updCore 0 (fun c => { c with queue := List.replicate 4 (opOf (.mma mma1) []) })) 0 = 4 ∧
    (settleRaises (arrayChecks bare 0xFFFFFFFF (arrayScalars bare.getS (.mma mma1)) (.mma mma1))).isSome = true := by
  decide +kernel

/-- FrameWords: a frame and an edge that the wave lacks; ACALLOC of 64, of more than the map holds, of 0, of 3 where 2 are free, and
of the last 2. -/
theorem witness_FrameWords : bare.place.frameMap.getD 0 none = none ∧ bare.place.edgeMap.getD 7 none = none ∧
    full.run.status = .running ∧ (framed.place.frameMap.filter (·.isSome)).length = 30 ∧
    grantable (alone framed 0) framed = 2 ∧ (ownedFrames (alone framed 0) 0).length + 2 ≤ 32 ∧ 32 < 30 + 3 ∧
    (let s : State := { alone bare 0 with waves := [bare, framed] }
     (bare.place.frameMap.filter (·.isSome)).length + 3 ≤ 32 ∧ grantable s bare < 3 ∧ frameRequests s 0 = []) ∧
    (let keeper : Wave := { framed with place := { framed.place with frameHold := 1 } }
     let s : State := { alone bare 0 with waves := [bare, keeper] }
     grantable s bare = 1 ∧ grantable s keeper = 2) ∧
    framed.place.frameMap.length = 32 ∧ frameRequests (alone framed 0) 0 = [] ∧
    Cells.wf 0 ((alone framed 0).core 0).store.frames = true ∧ arrayPending (alone framed 0) 0 = 0 ∧
    arrayPending (queued (.mma mma1) []) 0 ≠ 0 ∧ wordLa 0 = 0 ∧ framed.active false (wordPred 0) ≠ 0 := by
  decide +kernel

/-- A HeadOp with decidable parts. -/
theorem headOp_on {s : State} {c : Nat} {o : ArrayOp} {w : Wave} (hw : s.wave o.wave = some w)
    (h : decide ((c < s.cores.length ∧ (s.core c).running = none ∧ (s.core (partnerOf c)).running = none ∧ (s.core c).queue = [o] ∧
      o.card = none) ∧ (w.place.core = c ∧ w.place.frameMap.length = 32 ∧ w.run.status ≠ .gone) ∧ (ownedFrames s c).length ≤ 32 ∧
      frameRequests s c = [] ∧ arrayChecks w o.cap.lanes o.cap.scalars o.cap.instr = [] ∧
      Cells.wf 0 (s.core c).store.frames = true) = true) : HeadOp s c o w [] := by
  have h := of_decide_eq_true h
  exact ⟨h.1.1, ⟨h.1.2.1, h.1.2.2.1⟩, h.1.2.2.2.1, h.1.2.2.2.2, hw, h.2.1, h.2.2.1, h.2.2.2.1, h.2.2.2.2.1, h.2.2.2.2.2⟩

/-- A wave with a scratchpad window of 64 rows, and its operation. -/
def rowed (i : Instr) (sc : List W64) : State :=
  let w := { framed with place := { framed.place with scratchLen := 16384 } }
  { queued i sc with waves := [w] }
def rower : Wave := { framed with place := { framed.place with scratchLen := 16384 } }

/-- ArrayOperations: each operation at the head of the sequencer; all 64 rows and the last row; a cause at the start; a fourth
residue error. -/
theorem witness_ArrayOperations :
    HeadOp (queued (.azero all 0 29) []) 0 (opOf (.azero all 0 29) []) framed [] ∧
    (HeadOp (queued (.amov all 0 1 2) []) 0 (opOf (.amov all 0 1 2) []) framed [] ∧
      framePoisoned (queued (.amov all 0 1 2) []) framed 2 64 64 = false) ∧
    (HeadOp (rowed (.ald all 0 true 1 2 3) [0, 0]) 0 (opOf (.ald all 0 true 1 2 3) [0, 0]) rower [] ∧
      reaches (scratchRanges (rowed (.ald all 0 true 1 2 3) [0, 0]) 0) 0 (256 * 64) = true ∧
      ((rowed (.ald all 0 true 1 2 3) [0, 0]).core 0).spPoison 0 (256 * 64) = none) ∧
    (HeadOp (rowed (.ast all 0 true 2 1 3) [16128, 0x13F]) 0 (opOf (.ast all 0 true 2 1 3) [16128, 0x13F]) rower [] ∧
      reaches (scratchRanges (rowed (.ast all 0 true 2 1 3) [16128, 0x13F]) 0) 16128 (256 * 1) = true ∧
      ((rowed (.ast all 0 true 2 1 3) [16128, 0x13F]).core 0).store.framePoison.hasAny (2048 * 1 + 32 * 63) (32 * 1) = false) ∧
    (HeadOp (queued (.movtc all 0 7 0) [0x1401]) 0 (opOf (.movtc all 0 7 0) [0x1401]) framed [] ∧ Tiles.tcrOk 0x1401 = true) ∧
    HeadOp (queued (.movftc all 0 0 7) []) 0 (opOf (.movftc all 0 0 7) []) framed [] ∧
    HeadOp (queued (.tzero all 0 7) []) 0 (opOf (.tzero all 0 7) []) framed [] ∧
    (HeadOp (queued (.acfree all 0 0) [0x2000_0001]) 0 (opOf (.acfree all 0 0) [0x2000_0001]) framed [] ∧
      ∀ e < 32, (0x2000_0001 : Nat).testBit e = true → framed.place.frameMap.getD e none ≠ none) ∧
    (∃ rs, startOp (queued (.movtc all 0 7 0) [0x1_0000_1401]) (opOf (.movtc all 0 7 0) [0x1_0000_1401]) = .error rs ∧
      ∃ r, settleRaises rs = some r ∧ r.cause ≠ .pageNotPresent) ∧ framed.tx = none := by
  refine ⟨headOp_on rfl (by decide +kernel), ⟨headOp_on rfl (by decide +kernel), by decide +kernel⟩,
    ⟨headOp_on rfl (by decide +kernel), by decide +kernel, by decide +kernel⟩,
    ⟨headOp_on rfl (by decide +kernel), by decide +kernel, by decide +kernel⟩,
    ⟨headOp_on rfl (by decide +kernel), by decide +kernel⟩, headOp_on rfl (by decide +kernel), headOp_on rfl (by decide +kernel),
    ⟨headOp_on rfl (by decide +kernel), by decide +kernel⟩, ⟨_, rfl, _, rfl, by decide +kernel⟩, rfl⟩

/-- A core that runs an MMA after so many restarts. -/
def rerun (n : Nat) : State :=
  { (queued (.mma mma1) [0]).updCore 0 (fun c => { c with
      queue := []
      running := some { op := opOf (.mma mma1) [0], writes := [], follower := none, attempts := n } }) with target := .core 0 }
theorem witness_arrayReplays : (∃ r, ((rerun 3).core 0).running = some r ∧ (rerun 3).wave r.op.wave = some framed ∧
      r.op.card = none ∧ r.attempts = 3 ∧ r.restart = false) ∧ 0 < (rerun 3).cores.length ∧ framed.place.core = 0 ∧
    framed.tx = none ∧ ((rerun 2).core 0).eventRoom = true ∧
    (let e : EventRec := { kind := 7, wave := 0, token := 0, cause := .noCause, data := 1, addr := 0, who := 0 }
     ((rerun 2).updCore 0 (fun c => { c with events := List.replicate 192 e })).core 0).eventRoom = false ∧
    residueChecked (.mma mma1) = true ∧ framed.run.status = .running ∧
    (match startOp (recordOf (rerun 2) 0 7 .noCause 3 0) (opOf (.mma mma1) [0]) with
      | .ok _ => true
      | .error _ => false) = true :=
  ⟨⟨_, rfl, rfl, rfl, rfl, rfl⟩, by decide +kernel, rfl, rfl, by decide +kernel, by decide +kernel, rfl, rfl, by decide +kernel⟩

/-- Tiles 2 and 3 with these control registers. -/
def tiled (i : Instr) (a b : W32) : State :=
  (queued i [0]).updCore 0 (fun c => { c with store := { c.store with tcr := [(2, a), (3, b)] } })
def mbin1 : MmaOp := mma1

/-- Contraction: tiles of one element and of 64 rows of 128, a B1 tile, and two tiles of different lengths. -/
theorem witness_Contraction :
    (∀ x ∈ [(1 : W32), 0x1_FFF0, 0x10_7C00, 0x3F2, 0x7FF5], HeadOp (tiled (.mma mma1) x x) 0 (opOf (.mma mma1) [0]) framed [] ∧
      Contracts (tiled (.mma mma1) x x) framed mma1 0 false) ∧
    (HeadOp (tiled (.mbin mbin1 .xor) 0x1C06 0x1C06) 0 (opOf (.mbin mbin1 .xor) [0]) framed [] ∧
      Contracts (tiled (.mbin mbin1 .xor) 0x1C06 0x1C06) framed mbin1 0 true) ∧
    (HeadOp (tiled (.mma mma1) 0x400 0x800) 0 (opOf (.mma mma1) [0]) framed [] ∧
      tcrValid ((tiled (.mma mma1) 0x400 0x800).core 0) 2 = true ∧ tcrValid ((tiled (.mma mma1) 0x400 0x800).core 0) 3 = true ∧
      (tileOf ((tiled (.mma mma1) 0x400 0x800).core 0) 2).tcr.cols ≠ (tileOf ((tiled (.mma mma1) 0x400 0x800).core 0) 3).tcr.cols) := by
  refine ⟨?_, ⟨headOp_on rfl (by decide +kernel), ⟨by decide, by decide +kernel, by decide +kernel, by decide +kernel, by decide +kernel⟩⟩,
    headOp_on rfl (by decide +kernel), by decide +kernel⟩
  intro x hx
  simp only [List.mem_cons, List.not_mem_nil, or_false] at hx
  rcases hx with rfl | rfl | rfl | rfl | rfl <;> exact ⟨headOp_on rfl (by decide +kernel), ⟨by decide, by decide +kernel, by decide +kernel, by decide +kernel, by decide +kernel⟩⟩

/-- A plane of one cell, and one of 2 rows and 3 columns. -/
def rec1 : RecOp := ⟨all, 0, 1, 0, false, false⟩
def plane1 (m n : Nat) : Plane :=
  { us := []
    k := []
    top := List.replicate (n + 1) 0
    left := List.replicate m 0
    rowv := List.replicate m 0
    colv := List.replicate n 0
    c := List.replicate m (List.replicate n 0) }

/-- A core with a loaded rule 3 and edges of length n + 1 and m. -/
def ruled (m n : Nat) : State :=
  (queued (.mrec rec1 none false) [0x3443]).updCore 0 (fun c => { c with store := { c.store with
    rules := updAt c.store.rules 3 (fun x => { x with uops := [0x0800_3000] })
    edgeLen := [(0, n + 1), (1, m)] } })

/-- RecurrencePlane: planes of one cell, of 2 rows and 3 columns, and of 64 rows and columns. -/
theorem witness_RecurrencePlane : PlaneSize (plane1 1 1) 1 1 ∧ PlaneSize (plane1 2 3) 2 3 ∧
    (∀ x ∈ [(1, 1), (2, 3), (64, 64)], HeadOp (ruled x.1 x.2) 0 (opOf (.mrec rec1 none false) [0x3443]) framed [] ∧
      Recurs (ruled x.1 x.2) framed rec1 (recDesc 0x3443) x.1 x.2) := by
  refine ⟨⟨rfl, rfl, rfl, rfl, rfl, by decide⟩, ⟨rfl, rfl, rfl, rfl, rfl, by decide⟩, ?_⟩
  intro x hx
  simp only [List.mem_cons, List.not_mem_nil, or_false] at hx
  rcases hx with rfl | rfl | rfl <;> exact ⟨headOp_on rfl (by decide +kernel),
    ⟨rfl, by decide +kernel, by decide +kernel, by decide +kernel, by decide +kernel, by decide +kernel, by decide +kernel⟩⟩

/-- Two waves of a group on the cores of a pair: each owns 30 frames of its core, and both cores hold the tiles 2 and 3; the
operation stands at the head of core `c`. -/
def mmaPair : MmaOp := ⟨all, 0, 1, 0, 2, 3, true⟩
def leader0 : Wave := { framed with sys := { framed.sys with gkey := 7 } }
def partner1 : Wave := { leader0 with place := { leader0.place with core := 1 } }
def paired (c : Nat) : State :=
  let tiles (q : List ArrayOp) (k : Core) : Core := { k with queue := q, store := { k.store with tcr := [(2, 0x7FF5), (3, 0x7FF5)] } }
  let s := ((((alone leader0 0).updCore c (tiles [opOf (.mma mmaPair) [0]])).updCore (partnerOf c) (tiles [])).updCluster 0
    (fun k => { k with groups := [⟨7, 0, [⟨0, 0, 0, false⟩, ⟨1, 1, 0, false⟩], {}, [], 0, [], 0⟩] }))
  { s with waves := if c = 0 then [leader0, partner1] else [partner1, leader0] }

/-- A core whose epilogue slot 0 and recurrence slot 3 are loaded, with an operation at its head and edges of these lengths. -/
def loaded (i : Instr) (sc : List W64) (lens : List (Nat × Nat)) : State :=
  (queued i sc).updCore 0 (fun c => { c with store := { c.store with
    rules := updAt (updAt c.store.rules 3 (fun x => { x with uops := [0x0800_3000] })) 8 (fun x => { x with uops := [0x0800_3000] })
    edgeLen := lens } })

theorem follows_of {s : State} {c : Nat} {w : Wave} {m : MmaOp} {j : Nat} {y : Wave} (hf : followerOf s w = some j)
    (hw : s.wave j = some y) (h : decide ((y.place.core = partnerOf c ∧ partnerOf c ≠ c ∧ partnerOf c < s.cores.length ∧
      y.place.frameMap.length = 32) ∧ (ownsFrame y m.ad.toNat = true ∧ (ownedFrames s (partnerOf c)).length ≤ 32) ∧
      Cells.get 0 (s.core (partnerOf c)).store.tcr m.tb.toNat = Cells.get 0 (s.core c).store.tcr m.tb.toNat ∧
      (tilePoisoned (s.core (partnerOf c)) m.tb.toNat = false ∧
        framePoisoned s y m.ad.toNat (tileOf (s.core c) m.ta.toNat).tcr.rows (tileOf (s.core c) m.tb.toNat).tcr.rows = false) ∧
      (c % 2 = 0 ∨ (s.core (partnerOf c)).queue = []) ∧ Cells.wf 0 (s.core (partnerOf c)).store.frames = true) = true) :
    Follows s c w m j y := by
  have h := of_decide_eq_true h
  exact ⟨hf, hw, h.1, h.2.1, h.2.2.1, h.2.2.2.1, h.2.2.2.2.1, h.2.2.2.2.2⟩

theorem epilogues_of {s : State} {w : Wave} {x : Ocw} {af k : Nat} (h : decide ((x.epi = some k) ∧
      (((s.core w.place.core).store.rules.getD (8 + k) {}).uops ≠ [] ∧
        ((s.core w.place.core).store.rules.getD (8 + k) {}).poisoned = false) ∧
      (∀ e ∈ x.rv.toList, x.m ≤ (edgeOf s w e).len ∧ (edgeOf s w e).poisoned = false) ∧
      (∀ e ∈ x.cv.toList, x.n ≤ (edgeOf s w e).len ∧ (edgeOf s w e).poisoned = false) ∧
      ∀ f ∈ af :: x.l.toList ++ x.u.toList, framePoisoned s w f x.m x.n = false) = true) : Epilogues s w x af k := by
  have h := of_decide_eq_true h
  refine ⟨h.1, h.2.1, fun e he => h.2.2.1 e (by simp [he]), fun e he => h.2.2.2.1 e (by simp [he]), ?_⟩
  rintro f (rfl | hf | hf) <;> exact h.2.2.2.2 _ (by simp [*])

/-- PairAndEpilogue: the leader on the even core, and on the odd one while the even one has nothing to start; an epilogue of one
cell and one of 64 rows and columns with both vectors, both frames and H2. -/
theorem witness_PairAndEpilogue :
    (HeadOp (paired 0) 0 (opOf (.mma mmaPair) [0]) leader0 [] ∧ Contracts (paired 0) leader0 mmaPair 0 false ∧
      Follows (paired 0) 0 leader0 mmaPair 1 partner1) ∧
    (HeadOp (paired 1) 1 (opOf (.mma mmaPair) [0]) partner1 [] ∧ Contracts (paired 1) partner1 mmaPair 0 false ∧
      Follows (paired 1) 1 partner1 mmaPair 1 leader0) ∧
    (∀ x ∈ [(0x8000 : W64), 0x03FF_E48E_2980_8000], let s := loaded (.mepi all 0 0 1 2) [x] [(0, 64), (1, 64)]
      HeadOp s 0 (opOf (.mepi all 0 0 1 2) [x]) framed [] ∧ Epilogues s framed (ocwOf x) 1 0) := by
  refine ⟨⟨headOp_on rfl (by decide +kernel), ⟨by decide, by decide +kernel, by decide +kernel, by decide +kernel, by decide +kernel⟩,
      follows_of (by decide +kernel) rfl (by decide +kernel)⟩,
    ⟨headOp_on rfl (by decide +kernel), ⟨by decide, by decide +kernel, by decide +kernel, by decide +kernel, by decide +kernel⟩,
      follows_of (by decide +kernel) rfl (by decide +kernel)⟩, ?_⟩
  intro x hx
  simp only [List.mem_cons, List.not_mem_nil, or_false] at hx
  rcases hx with rfl | rfl <;> exact ⟨headOp_on rfl (by decide +kernel), epilogues_of (by decide +kernel)⟩

/-- BackwardPlane: planes of one cell, of 2 rows and 3 columns and of 64 rows and columns. -/
theorem witness_BackwardPlane : PlaneSize (plane1 2 3) 2 3 ∧ (List.replicate 2 (List.replicate 3 (0 : W32))).length = 2 ∧
    (∀ x ∈ [(1, 1), (2, 3), (64, 64)],
      let s := loaded (.mbwd rec1 5) [0x3443, 352] [(0, x.2 + 1), (1, x.1), (2, x.2 + 1), (3, x.1)]
      HeadOp s 0 (opOf (.mbwd rec1 5) [0x3443, 352]) framed [] ∧ Recurs s framed rec1 (recDesc 0x3443) x.1 x.2 ∧
      Differentiates s framed (recDesc 0x3443) 5 x.1 x.2 none 4 5) := by
  refine ⟨⟨rfl, rfl, rfl, rfl, rfl, by decide⟩, rfl, ?_⟩
  intro x hx
  simp only [List.mem_cons, List.not_mem_nil, or_false] at hx
  rcases hx with rfl | rfl | rfl <;> refine ⟨headOp_on rfl (by decide +kernel),
    ⟨rfl, by decide +kernel, by decide +kernel, by decide +kernel, by decide +kernel, by decide +kernel, by decide +kernel⟩,
    ⟨by decide +kernel, by decide +kernel, ?_, by decide +kernel⟩⟩
  all_goals
    intro f h
    rcases h with rfl | h
    · decide +kernel
    · cases h

/-- An operation with vector operands at the head of the sequencer; the wave has a scratchpad window, the core a tile register 2 of
this shape, and memory holds these bytes at address 0x4000 (R286-R289, R302-R305). -/
def opv (i : Instr) (sc : List W64) (vs : List W32) : ArrayOp := { opOf i sc with cap := { (opOf i sc).cap with vectors := vs } }
def imaged (i : Instr) (sc : List W64) (vs : List W32) (tcr : W32) (b : List Byte) : State :=
  let m := mapped rower 0
  { m.updCore 0 (fun c => { c with
      queue := [opv i sc vs]
      store := { c.store with tcr := [(2, tcr)] } }) with mem := m.mem.writeN 0x4000_4000 b }

theorem laidOut_of {s : State} {c i t : Nat} {x : W64} (h : decide (tcrValid (s.core c) t = true ∧ (x.toNat % 128 = 0 ∧ x.toNat < 2 ^ 19) ∧
    reaches (scratchRanges s i) x.toNat (Tiles.layoutBytes (tileOf (s.core c) t).tcr) = true) = true) : LaidOut s c i t x := by
  obtain ⟨h1, h2, h3⟩ := of_decide_eq_true h
  exact ⟨h1, h2, h3⟩

/-- The image of a rule with one step, and ones that are too long and too short. -/
def ruleImage (n : Nat) : List Byte := leBytes 4 n ++ leBytes 4 0 ++ leBytes 4 0x0430_0000 ++ List.replicate 28 0
/-- The image of an edge register, and of a stream of edge register 0 with its digest. -/
def edgeImage (n : Nat) : List Byte := leBytes 4 n ++ leBytes 540 0
def oneEdge : W64 := 0x1_0000_0000
def streamImage (version : Nat) (edge digest : List Byte) : List Byte :=
  leBytes 4 version ++ (streamHeader oneEdge 7 8).drop 4 ++ digest ++ edge

/-- TileAndEdgeWords: tiles of one row with a strip, of 64 rows with one and of 64 rows without, from the first byte of the window; the last
block of a tile; a rule of one step and ones of none and of nine; edges of the greatest length and one more, in the scratchpad and in
memory; a stream of one edge, and an image that fails the first check. -/
theorem witness_TileWords :
    (∀ t ∈ [(0x10_7C00 : W32), 0x10_FFF1, 0x7FF5],
      (let s := imaged (.tld all 0 2 3) [0] [] t []
       let k := s.core 0
       let t := (tileOf k 2).tcr
       HeadOp s 0 (opv (.tld all 0 2 3) [0] []) rower [] ∧ NoTx s ∧ LaidOut s 0 0 2 0 ∧
         (Cells.wf 0 k.store.tiles = true ∧ Cells.wf 0 k.store.strips = true) ∧
         ∀ r, r < t.rows → k.spPoison (0 + r * Tiles.rowStride t) (Tiles.rowBytes t) = none ∧
          k.spPoison (0 + t.rows * Tiles.rowStride t + r * Tiles.stripStride t) (if t.strip then t.cols / 32 else 0) = none) ∧
      (let s := imaged (.tst all 0 3 2) [0] [] t []
       HeadOp s 0 (opv (.tst all 0 3 2) [0] []) rower [] ∧ NoTx s ∧ LaidOut s 0 0 2 0 ∧ tilePoisoned (s.core 0) 2 = false ∧
         Cells.wf 0 (s.core 0).scratch = true)) ∧
    (∀ off ∈ [(0 : W64), 8064], let o := opv (.tldv all 0 2 3 4) [off] (List.replicate 32 1)
      let s := imaged (.tldv all 0 2 3 4) [off] (List.replicate 32 1) 0x7FF5 []
      HeadOp s 0 o rower [] ∧ NoTx s ∧ tcrValid (s.core 0) 2 = true ∧ Cells.wf 0 (s.core 0).store.tiles = true ∧
        off.toNat % 2 ^ 14 % 128 = 0 ∧ off.toNat % 2 ^ 14 < Tiles.elemBytes (tileOf (s.core 0) 2).tcr) := by
  refine ⟨?_, ?_⟩
  · intro t ht
    simp only [List.mem_cons, List.not_mem_nil, or_false] at ht
    rcases ht with rfl | rfl | rfl <;> exact ⟨⟨headOp_on rfl (by decide +kernel), noTx_of (by decide +kernel),
      laidOut_of (by decide +kernel), by decide +kernel, by decide +kernel⟩, headOp_on rfl (by decide +kernel),
      noTx_of (by decide +kernel), laidOut_of (by decide +kernel), by decide +kernel, by decide +kernel⟩
  · intro x hx
    simp only [List.mem_cons, List.not_mem_nil, or_false] at hx
    rcases hx with rfl | rfl <;> exact ⟨headOp_on rfl (by decide +kernel), noTx_of (by decide +kernel), by decide +kernel,
      by decide +kernel, by decide +kernel, by decide +kernel⟩

theorem witness_RuleWords : ∀ e ∈ [true, false], ∀ n ∈ [1, 0, 9],
    let i : Instr := .mrule all 0 e 7 1 2
    let s := imaged i [0x4000, 5, 6] [] 0 (ruleImage n)
    let img := (readBytes s rower false 0x4000 40).2
    HeadOp s 0 (opv i [0x4000, 5, 6] []) rower [] ∧ NoTx s ∧ readRaises s rower 0 false 1 0x4000 40 = [] ∧
      (s.core 0).store.rules.length = 16 ∧ (wordAt img 0).toNat = n ∧ wordAt img 4 = 0 ∧ Rule.ok e [wordAt img 8] = true := by
  intro e he n hn
  simp only [List.mem_cons, List.not_mem_nil, or_false] at he hn
  rcases he with rfl | rfl <;> rcases hn with rfl | rfl | rfl <;> exact ⟨headOp_on rfl (by decide +kernel), noTx_of (by decide +kernel),
    by decide +kernel, by decide +kernel, by decide +kernel, by decide +kernel, by decide +kernel⟩

theorem witness_EdgeWords :
    (∀ n ∈ [129, 130], let s := imaged (.eld all 0 false 7 3) [0x4000] [] 0 (edgeImage n)
      HeadOp s 0 (opv (.eld all 0 false 7 3) [0x4000] []) rower [] ∧ NoTx s ∧ physEdge rower 7 = some 7 ∧
        readRaises s rower 0 false 1 0x4000 544 = [] ∧ (wordAt (readBytes s rower false 0x4000 544).2 0).toNat = n ∧
        Cells.wf 0 (s.core 0).store.edges = true ∧ Cells.wf 0 (s.core 0).store.edgeLen = true ∧
        Cells.wf 0 (s.core 0).store.edgeBase = true) ∧
    (let s := imaged (.eld all 0 true 7 3) [15840] [] 0 []
     HeadOp s 0 (opv (.eld all 0 true 7 3) [15840] []) rower [] ∧ readRaises s rower 0 true 1 15840 544 = []) ∧
    (∀ x ∈ [(true, 15840), (false, 0x4000)], let i : Instr := .est all 0 x.1 3 7
      let s := imaged i [BitVec.ofNat 64 x.2] [] 0 []
      HeadOp s 0 (opv i [BitVec.ofNat 64 x.2] []) rower [] ∧ NoTx s ∧ writeRaises s rower 0 x.1 1 x.2 544 = [] ∧
        (s.core 0).store.edgePoison.hasAny (68 * 7) 68 = false ∧ Cells.wf 0 (s.core 0).scratch = true) := by
  refine ⟨?_, ⟨headOp_on rfl (by decide +kernel), by decide +kernel⟩, ?_⟩
  · intro n hn
    simp only [List.mem_cons, List.not_mem_nil, or_false] at hn
    rcases hn with rfl | rfl <;> exact ⟨headOp_on rfl (by decide +kernel), noTx_of (by decide +kernel), by decide +kernel,
      by decide +kernel, by decide +kernel, by decide +kernel, by decide +kernel, by decide +kernel⟩
  · intro x hx
    simp only [List.mem_cons, List.not_mem_nil, or_false] at hx
    rcases hx with rfl | rfl <;> exact ⟨headOp_on rfl (by decide +kernel), noTx_of (by decide +kernel), by decide +kernel,
      by decide +kernel, by decide +kernel⟩

/-- A stream of one edge of the greatest length, with the SHA-256 of its other bytes. -/
def goodStream : List Byte :=
  streamImage 1 (edgeImage 129) (leBytes 32 0x3fd6ea50936efd0bd7c9246ef6a894545fcfe0a5454f6dbe25d15814d9a0bab4)

theorem witness_StreamWords :
    (let sc : List W64 := [0x4000, oneEdge, 7, 8]
     let s := imaged (.stexp all 0 0 4 5) sc [] 0 []
     HeadOp s 0 (opv (.stexp all 0 0 4 5) sc []) rower [] ∧ NoTx s ∧ writeRaises s rower 0 false 1 0x4000 (streamSize oneEdge) = [] ∧
       ([] : List W32).length = 64 * streamPairs oneEdge ∧ streamFrames oneEdge = [] ∧
       ∀ e ∈ streamEdges oneEdge, (s.core 0).store.edgePoison.hasAny (68 * (physEdge rower e).getD 0) 68 = false) ∧
    (∀ x ∈ ([(goodStream, none), (streamImage 2 (edgeImage 129) [], some 1)] : List (List Byte × Option Nat)),
      let sc : List W64 := [0x4000, oneEdge, 7, 8]
      let s := imaged (.stimp all 0 0 4 5) sc [] 0 x.1
      HeadOp s 0 (opv (.stimp all 0 0 4 5) sc []) rower [] ∧ NoTx s ∧ readRaises s rower 0 false 1 0x4000 (streamSize oneEdge) = [] ∧
        Cells.wf 0 rower.v = true ∧ streamFails oneEdge 7 (readBytes s rower false 0x4000 (streamSize oneEdge)).2 = x.2) := by
  refine ⟨⟨headOp_on rfl (by decide +kernel), noTx_of (by decide +kernel), by decide +kernel, rfl, by decide +kernel, by decide +kernel⟩, ?_⟩
  intro x hx
  simp only [List.mem_cons, List.not_mem_nil, or_false] at hx
  rcases hx with rfl | rfl <;> exact ⟨headOp_on rfl (by decide +kernel), noTx_of (by decide +kernel), by decide +kernel,
    by decide +kernel, by decide +kernel⟩

/-! #### The copy engine, tokens, user interrupts -/

/-- The header of a ring of 16 entries, empty, for a key (R191). -/
def ringHeader (key : Nat) : List Byte := leBytes 12 0 ++ leBytes 4 16 ++ leBytes 16 key
/-- A wave with a window that holds a ring at 0, and a copy of 128 bytes of one row between 0x4000 and the end of the window. -/
def copier : Wave := { ((((full.setS 4 0x4000).setS 5 0).setS 6 0xF80).setS 7 (BitVec.ofNat 64 (128 * 2 ^ 40 + 2 ^ 24))) with
  place := { full.place with scratchLen := 4096 } }
/-- A ring with n entries, an entry, and a state with the ring bound. -/
def entry1 : CopyEntry := { words := [0x4000, 0, 0xF80, BitVec.ofNat 64 (128 * 2 ^ 40 + 2 ^ 24 + 1)], bound := 0, wave := 0, oete := false, order := 0, index := 0 }
def ring1 (n : Nat) : Ring := { base := 0, size := 16, ctx := 0, key := 0, entries := List.replicate n entry1 }
def ringed (n : Nat) (w : Wave) : State :=
  { (mapped w 0).updCore 0 (fun c => { c with rings := [ring1 n], scratch := Cells.fill 0 [] 0 (ringHeader 0) }) with ticket := 1 }
def cpy1 : CopyOp := ⟨all, 0, 7, 4, false, false⟩

/-- CopyPosts: a ring with room for one entry and none, a token with 62 and 63 outstanding, no ring, a bad entry; a ring to bind. -/
theorem witness_CopyPosts : (∃ f, copyForm (.cpy cpy1 false) = some (all, 0, f) ∧ entryBad (f copier) = false ∧
      Postable (ringed 14 copier) copier (f copier) ∧ (copyCmd (f copier)).token = 7) ∧
    copyPlain copier (.cpy cpy1 false) ∧ wordPred 0 = all ∧ copier.active false all ≠ 0 ∧
    (∃ r, ringOf (ringed 14 copier) copier = some r ∧ r.entries.length + 1 < r.size) ∧
    (∃ r, ringOf (ringed 15 copier) copier = some r ∧ r.size ≤ r.entries.length + 1) ∧
    ringSize ((ringed 14 copier).core 0) 0 copier.sys.gkey = some 16 ∧ ((ringed 14 copier).core 0).spPoison 0 32 = none ∧
    (copier.setToken 7 62).token 7 < 63 ∧ 63 ≤ (copier.setToken 7 63).token 7 ∧ ringOf (mapped copier 0) copier = none ∧
    (∃ f, copyForm (.cpost all 0 4) = some (all, 0, f) ∧ entryBad (f copier) = true) ∧
    reaches (scratchRanges (ringed 0 copier) 0) 0 (32 + 32 * 16) = true ∧
    (let s := (ringed 0 copier).updCore 0 (fun c => { c with rings := [] })
     ringOf s copier = none ∧ ((s.core 0).rings.filter (·.bound)).length < 64 ∧ ringSize (s.core 0) 0 copier.sys.gkey = some 16) :=
  ⟨⟨_, rfl, by decide +kernel, ⟨by decide +kernel, by decide +kernel, by decide +kernel, by decide +kernel⟩, by decide +kernel⟩,
    by unfold copyPlain; decide +kernel, by decide, by decide +kernel, ⟨_, rfl, by decide⟩, ⟨_, rfl, by decide⟩, by decide +kernel, by decide +kernel,
    by decide +kernel, by decide +kernel, by decide +kernel, ⟨_, rfl, by decide +kernel⟩, by decide +kernel, by decide +kernel⟩

/-- CopyEvents: the entry that the engine serves next, in and out, whose bytes end at the end of the window; a served entry with
and without a fault. -/
theorem witness_CopyEvents :
    (let s : State := { ringed 1 copier with target := .ring 0 0 }
     Serves s 0 0 (ring1 1) entry1 copier ∧ OneRow (ring1 1) (copyCmd entry1.words) ∧
      (copyCmd entry1.words).flags.testBit 5 = false ∧ rowClear s copier .read (copyCmd entry1.words) ∧
      rowClear s copier .write (copyCmd entry1.words) ∧ (s.core 0).spPoison 0xF80 128 = none) ∧
    (copyCmd [0x4000, 0, 0xF80, BitVec.ofNat 64 (128 * 2 ^ 40 + 2 ^ 24 + 0x2001)]).flags.testBit 5 = true ∧
    (∀ f ∈ [none, some (4, Cause.pageProtection, (0x4010 : W64))], let e : CopyEntry := { entry1 with started := true, fault := f }
     let s : State := { (ringed 0 copier).updCore 0 (fun c => { c with rings := [{ ring1 0 with entries := [e] }] }) with target := .ring 0 0 }
     (s.core 0).rings[0]? = some { ring1 0 with entries := [e] } ∧ (s.core 0).eventRoom = true ∧ copier.intr.armed = none ∧
      copier.run.evicted = false ∧ (copyCmd e.words).countsRows = false ∧ (copyCmd e.words).interrupts = false ∧ e.escape = false ∧
      Cells.wf 0 (s.core 0).scratch = true) := by
  refine ⟨⟨⟨rfl, by decide +kernel, rfl, ⟨rfl, rfl, rfl⟩, ⟨rfl, rfl⟩, noTx_of rfl, by decide +kernel⟩,
    ⟨by decide +kernel, by decide +kernel, by decide +kernel, by decide +kernel⟩, by decide +kernel, ?_, ?_, by decide +kernel⟩,
    by decide +kernel, by decide +kernel⟩ <;> unfold rowClear <;> decide +kernel

/-- A group of two waves of context 0. -/
def group2 : Group :=
  { key := 7, ctx := 0, all := {}, roles := [], rows := 0, rowWait := [], halt := 0
    members := [{ rank := 0, wave := 0, role := 0, stopped := false }, { rank := 1, wave := 1, role := 0, stopped := false }] }
def vectored : Wave := { (full.setS 5 0x180) with sys := { full.sys with uivec := 0x4000, gkey := 7 } }
def grouped : State :=
  ({ mapped vectored 0x200FF with waves := [vectored, { vectored with place := { vectored.place with num := 1 } }] } : State).updCluster 0
    (fun c => { c with groups := [group2] })
def fault1 : EngineFault := { order := 3, token := 7, cause := .pageProtection, detail := 0, addr := 0 }

/-- TokensAndInterrupts: a token that is outstanding and none, a fault behind the mask; TKINT without a handler, with and without the
group; UIRET outside a handler, in one, and in one with a slot too many; an interrupt to deliver, with and without a handler. -/
theorem witness_TokensAndInterrupts :
    (∃ m, waitForms grouped vectored .waittk = some (all, m) ∧ m = 255) ∧ (∃ m, waitForms grouped vectored (.waittkReg all 5) = some (all, m) ∧ m = 128) ∧
    (∃ m, armForms grouped vectored .tkint = some (all, m, true)) ∧ allClear vectored 255 ∧ ¬ allClear (vectored.setToken 7 1) 128 ∧
    (∀ f ∈ ({ vectored with faults := [fault1, { fault1 with order := 5 }] } : Wave).faults, (128 : Nat).testBit f.token = true → f = fault1 ∨ fault1.order < f.order) ∧
    full.sys.uivec = 0 ∧ grouped.groupOf full = none ∧ grouped.groupOf vectored = some group2 ∧ vectored.run.status = .running ∧
    (let w := { vectored with intr := { vectored.intr with inHandler := true } }
     w.slotB.valid = false ∧ w.stack.length = w.intr.savedDepth ∧ w.intr.savedA.wait = none ∧ w.intr.savedB.wait = none ∧
      ({ w with slotB := split.slotB } : Wave).slotB.valid = true ∧ w.active false (wordPred 0x200FF) ≠ 0) ∧
    (∀ v ∈ [(0 : W64), 0x4000], let w := { vectored with sys := { vectored.sys with gkey := 0, uivec := v }, intr := { vectored.intr with requests := [some 0] } }
     let s : State := { mapped w 0 with target := .wave 0 }
     s.cur = 0 ∧ s.wave 0 = some w ∧ w.intr.requests ≠ [] ∧ w.intr.inHandler = false ∧ w.tx = none ∧ w.run.evicted = false ∧
      w.run.evicting = false ∧ (w.slotA.valid || w.slotB.valid) = true ∧ (s.core 0).eventRoom = true ∧ w.sys.uivec = v ∧
      frameRequests s 0 = []) := by
  refine ⟨⟨_, rfl, by decide⟩, ⟨_, rfl, by decide +kernel⟩, ⟨_, rfl⟩, ?_, ?_, by decide +kernel, rfl, by decide +kernel, by decide +kernel, rfl,
    by decide +kernel, ?_⟩
  · unfold allClear; decide +kernel
  · unfold allClear; decide +kernel
  · intro v hv
    simp only [List.mem_cons, List.not_mem_nil, or_false] at hv
    rcases hv with rfl | rfl <;>
      exact ⟨rfl, rfl, by decide +kernel, rfl, rfl, rfl, rfl, rfl, by decide +kernel, rfl, by decide +kernel⟩

/-! #### Cards and chains, the Merge Unit, split weights -/

/-- A card's header: its kind, its number and its completion word (R322). -/
def cardHeader (kind seq cw : Nat) : List Byte := leBytes 7 0 ++ leBytes 1 kind ++ leBytes 8 seq ++ leBytes 8 cw ++ leBytes 104 0
/-- A wave with a descriptor at 0x4000 and a card 3 at 0x5000, whose tail is 0 or 0x6000, a card that already names the new one. -/
def chainer : Wave := (full.setS 4 0x4000).setS 5 0x5000
def chained (tail : Nat) : State :=
  let s := mapped chainer 0
  let m := ((s.mem.writeN 0x4000_4000 (leBytes 8 tail ++ leBytes 4 2)).writeN 0x4000_5000 (cardHeader 1 3 0x7000)).writeN 0x4000_6000 (leBytes 7 0x5000)
  ({ s with mem := m } : State).updCluster 0 (fun k => { k with chains := [{ ctx := 0, desc := 0x4000, lastSeq := 2, cards := [], causes := [(1, .chainFormat, 2, 5)] }] })

theorem coherent_of {s : State} {w : Wave} (h : (s.core w.place.core).tlb ++ (s.cluster (clusterOf w.place.core)).l2 = []) : Coherent s w := by
  intro x hx
  rw [h] at hx; cases hx
theorem keepsMap_of {s : State} {ctx : Nat} {m : Memory} (h : m = s.mem) : KeepsMap s ctx m := by
  intro va
  subst h; rfl

theorem chainable_chained (tail : Nat) (h : tail = 0 ∨ tail = 0x6000) :
    Chainable (chained tail) chainer 0x4000 0x5000 0x4000_4000 0x4000_5000 := by
  rcases h with rfl | rfl <;>
    refine ⟨noTx_of (by decide +kernel), coherent_of (by decide +kernel), ?_, ?_, by decide +kernel, by decide +kernel, by decide +kernel, by decide +kernel⟩ <;>
      simp only [Claims.Clear] <;> decide +kernel

/-- A card of the wave that has started and finished. -/
def card1 (kind : Nat) (ended : Bool) : Card :=
  { addr := 0x5000, wave := 0, ctx := 0, core := 0, chain := 0x4000, header := cardHeader kind 3 0x7000, bound := 0, oete := false
    late := false, deps := [], number := 5, order := 5, started := ended, finished := ended }
def carded (kind : Nat) (ended : Bool) : State :=
  { (mapped chainer 0).updCluster 0 (fun k => { k with cards := [card1 kind ended] }) with target := .card 0 5 }

theorem memory_eq {a b : Memory} (h : (a.bytes == b.bytes && (a.full == b.full && a.poison == b.poison)) = true) : a = b := by
  simp only [Bool.and_eq_true, beq_iff_eq] at h
  cases a; cases b
  simp_all

/-- ChainWords: an empty chain and one with a tail; a full chain engine; a number that DONE has reached and one that it has not;
a card to start, valid and invalid, and one that completes. -/
theorem witness_ChainWords :
    (∀ tail, tail = 0 ∨ tail = 0x6000 → Chainable (chained tail) chainer 0x4000 0x5000 0x4000_4000 0x4000_5000) ∧
    KeepsMap (chained 0) 0 (putAt (chained 0).mem [] (leBytes 7 0x5000)) ∧
    KeepsMap (chained 0x6000) 0 (putAt (chained 0x6000).mem (rangesAt (chained 0x6000) chainer .write 0x6000 7) (leBytes 7 0x5000)) ∧
    Claims.Clear (chained 0x6000) chainer .write 0x6000 7 1 ∧ leNat ((chained 0x6000).mem.readN 0x4000_4000 8) = 0x6000 ∧
    (∃ c, findChain (chained 0x6000) 0 0 0x4000 = some c ∧ c.lastSeq = 2 ∧ c.causes ≠ []) ∧ wordPred 0 = all ∧
    rangesAt (chained 0) chainer .read 0x4000 16 = [(0x4000_4000, 16)] ∧
    leNat ((chained 0).mem.readN (0x4000_4000 + 8) 4) = 2 ∧ (2 + 2 ^ 32 - 2) % 2 ^ 32 < 2 ^ 31 ∧ 2 ^ 31 ≤ (2 + 2 ^ 32 - 3) % 2 ^ 32 ∧
    (∀ kind ∈ [0, 1], findCard (carded kind false) 0 5 = some (card1 kind false) ∧ cardReady (carded kind false) 0 (card1 kind false) = true) ∧
    cardInvalid (carded 0 false) (card1 0 false) chainer = true ∧ (card1 0 false).cause = none ∧
    Completes (carded 1 true) 0 5 (card1 1 true) chainer 0x4000_7000 ∧
    rangeRaises (carded 1 true) (engineAgent chainer) .write (0x4000 + 8) 4 = [] ∧ chainParts (carded 1 true) 0 0x4000 = [] ∧
    EarliestCause (chained 0x6000) 0 0x4000 (1, .chainFormat, 2, 5) ∧ chainCauses (chained 0x6000) 1 0x4000 = [] ∧
    EngineAt (carded 1 true) chainer (0x4000 + 8) 4 0x4000_4008 := by
  refine ⟨chainable_chained, keepsMap_of rfl, keepsMap_of (memory_eq (by decide +kernel)), ?_, by decide +kernel, ⟨_, rfl, by decide +kernel, by decide +kernel⟩,
    by decide, by decide +kernel, by decide +kernel, by decide, by decide, ?_, by decide +kernel, rfl,
    ⟨rfl, rfl, ⟨rfl, rfl⟩, ⟨rfl, rfl⟩, by decide +kernel, ⟨noTx_of (by decide +kernel), by decide +kernel⟩, by decide +kernel,
      ⟨by decide +kernel, by decide +kernel, by decide +kernel⟩, by decide +kernel⟩, by decide +kernel, by decide +kernel,
    ⟨by decide +kernel, by decide +kernel⟩, by decide +kernel, ⟨by decide +kernel, by decide +kernel, by decide +kernel⟩⟩
  · simp only [Claims.Clear]; decide +kernel
  · decide +kernel

/-- Whether two memories hold the same tables below a table. -/
def sameTables (m m' : Memory) : List (Nat × Nat × Bool × Bool) → Nat → Bool
  | [], _ => true
  | (_, bits, _, _) :: more, table => (List.range (2 ^ bits)).all (fun k =>
    let e := leNat (m.readN (table + 16 * k) 16)
    e == leNat (m'.readN (table + 16 * k) 16) && (!e.testBit 0 || e.testBit 1 || sameTables m m' more (bitsOf e 51 12 * 4096)))

theorem walk_sameTables {s : State} {m' : Memory} (va : Nat) (ls : List (Nat × Nat × Bool × Bool)) (table : Nat)
    (h : sameTables s.mem m' ls table = true) : walkFrom { s with mem := m' } va table ls = walkFrom s va table ls := by
  induction ls generalizing table with
  | nil => rfl
  | cons l more ih =>
    obtain ⟨lo, bits, ok, must⟩ := l
    have hk := List.all_eq_true.1 h (va / 2 ^ lo % 2 ^ bits) (List.mem_range.2 (Nat.mod_lt _ (Nat.two_pow_pos bits)))
    simp only [Bool.and_eq_true, beq_iff_eq, Bool.or_eq_true, Bool.not_eq_true'] at hk
    obtain ⟨e, hk⟩ := hk
    replace e : leNat (s.readPA (table + 16 * (va / 2 ^ lo % 2 ^ bits)) 16) =
      leNat (State.readPA { s with mem := m' } (table + 16 * (va / 2 ^ lo % 2 ^ bits)) 16) := e
    rw [walkFrom, walkFrom, ← e]
    change ((leNat (s.readPA (table + 16 * (va / 2 ^ lo % 2 ^ bits)) 16)).testBit 0 = false ∨
      (leNat (s.readPA (table + 16 * (va / 2 ^ lo % 2 ^ bits)) 16)).testBit 1 = true) ∨
      sameTables s.mem m' more (bitsOf (leNat (s.readPA (table + 16 * (va / 2 ^ lo % 2 ^ bits)) 16)) 51 12 * 4096) = true at hk
    clear e h
    generalize leNat (s.readPA (table + 16 * (va / 2 ^ lo % 2 ^ bits)) 16) = x at hk
    rcases hk with (h0 | h1) | h2
    · simp only [h0, Bool.not_false, if_true]
    · simp only [h1, if_true]
    · simp only [ih _ h2]

theorem keepsMap_same {s : State} {ctx : Nat} {m : Memory}
    (h : sameTables s.mem m pageLevels ((s.ctx ctx).root.toNat / 4096 * 4096) = true) : KeepsMap s ctx m :=
  fun va => walk_sameTables va _ _ h

/-- A full list of cards, and a chain whose first card is the one that completes. -/
theorem witness_cards :
    (let s := (chained 0).updCluster 0 (fun k => { k with cards := List.replicate 64 (card1 1 false) })
     (s.cluster 0).cards.length = 64 ∧ Claims.Clear s chainer .both 0x4000 16 64 ∧ Claims.Clear s chainer .read 0x5000 128 128) ∧
    (let y : ChainCard := { number := 5, seq := 3, completed := false, cause := none }
     let z : ChainCard := { y with number := 6 }
     let c : Chain := { ctx := 0, desc := 0x4000, lastSeq := 4, cards := [y, z], causes := [] }
     let s := (carded 1 true).updCluster 0 (fun k => { k with chains := [c] })
     let m := s.mem.writeN 0x4000_7000 (leBytes 8 3)
     Coherent s chainer ∧ findChain s 0 0 0x4000 = some c ∧ chainParts s 0 0x4000 = [c] ∧ KeepsMap s 0 m ∧
      (∀ u ∈ [z], u.completed = false ∧ 5 < u.number) ∧ [z].Pairwise (fun a b => a.number < b.number)) := by
  refine ⟨?_, coherent_of (by decide +kernel), by decide +kernel, by decide +kernel, keepsMap_same (by decide +kernel), by decide,
    by decide⟩
  simp only [Claims.Clear]
  decide +kernel

/-- A wave with a merge of one token, and its operation at the head of the unit. -/
def mergeOp1 : MergeOp := { wave := 0, card := none, cap := { (opOf (.tmerge all 0 6 4) [0x4000]).cap with order := 0 } }
def merging : State :=
  let s := mapped chainer 0
  let d : List Byte := leBytes 1 1 ++ leBytes 7 0 ++ leBytes 2 1 ++ leBytes 2 0 ++ leBytes 2 1 ++ leBytes 2 2 ++ leBytes 8 0x6000 ++
    leBytes 8 0x6100 ++ leBytes 8 0x6200 ++ leBytes 8 0 ++ leBytes 8 0 ++ leBytes 8 0x6300
  { ({ s with mem := s.mem.writeN 0x4000_4000 d } : State).updCluster 0 (fun k => { k with mergeQueue := [mergeOp1] }) with target := .cluster 0 }

/-- The same when its map is being written. -/
def mapOp : MergeOp := { mergeOp1 with rest := some ([(0x6310, [0, 0, 0, 0]), (0x6300, [1, 0, 0, 0])], 1) }
def mapping : State := merging.updCluster 0 (fun k => { k with mergeQueue := [mapOp] })

/-- MergeWords: a unit that the wave uses and one that it does not; a merge of no token, of one and of 4 with 2 taken away; a
completion, and one of an operation whose map is being written. -/
theorem witness_MergeWords : chainer.active false all ≠ 0 ∧
    (∃ m ∈ (merging.cluster 0).mergeQueue, m.wave = 0 ∧ m.card = none) ∧ ((mapped chainer 0).cluster 0).mergeQueue = [] ∧
    2 * 2 ≤ 4 ∧ (List.replicate 4 [(0 : W32)]).length = 4 ∧ 2 * 0 ≤ 0 ∧
    (merging.cluster 0).mergeQueue.head? = some mergeOp1 ∧ mergeOp1.torn = false ∧ merging.wave 0 = some chainer ∧ mergeOp1.seen = [] ∧
    mergeOp1.rest = none ∧ chainer.run.evicted = false ∧
    (mapping.cluster 0).mergeQueue.head? = some mapOp ∧ mapOp.torn = false ∧ mapping.target = .cluster 0 ∧ mapping.wave 0 = some chainer ∧
    (runMergeAt merging (engineAgent chainer) {} 0x4000 true).stop = [] ∧ Cells.wf 0 chainer.s = true := by
  refine ⟨by decide +kernel, ⟨mergeOp1, by decide +kernel, rfl, rfl⟩, ?_⟩
  decide +kernel

/-- The operations of a split word whose block has been read. -/
def splitOp1 (i : Instr) (sc : List W64) (block : List Byte) : SplitOp :=
  { number := 3, wave := 0, cap := (opOf i sc).cap, card := none, block := block, desc := some 0x4000_5000, ageDue := none, gen := 0, cause := none }
def splitBlock : List Byte :=
  leBytes 8 0x5000 ++ leBytes 8 0x5100 ++ leBytes 8 0x5200 ++ leBytes 2 1 ++ leBytes 2 2 ++ leBytes 4 0 ++ leBytes 8 (64 + 64 * 2 ^ 32) ++ leBytes 24 0
def splitting (o : SplitOp) : State :=
  let s := mapped chainer 0
  let d : List Byte := leBytes 8 5 ++ leBytes 4 3 ++ leBytes 4 128 ++ leBytes 8 0x6000 ++ leBytes 8 0x6100 ++ leBytes 8 0x7000 ++ leBytes 8 0x8000 ++
    leBytes 2 2 ++ leBytes 1 100 ++ leBytes 1 10 ++ leBytes 12 0
  { ({ s with mem := (s.mem.writeN 0x4000_4000 splitBlock).writeN 0x4000_5000 d } : State).updDie 0 (fun x => { x with splitOps := [o] }) with
    target := .op 3 }

theorem keepMaps_of {s : State} {w : Wave} {us : List Update} (h : (List.range (us.length + 1)).all (fun k =>
    sameTables s.mem (updated s w (us.take k)) pageLevels ((s.ctx w.place.ctx).root.toNat / 4096 * 4096)) = true) :
    KeepMaps s w us := by
  intro k
  rcases Nat.lt_or_ge us.length k with hk | hk
  · have e : us.take k = us.take us.length := by rw [List.take_of_length_le (by omega), List.take_length]
    rw [e]
    exact keepsMap_same (List.all_eq_true.1 h us.length (List.mem_range.2 (by omega)))
  · exact keepsMap_same (List.all_eq_true.1 h k (List.mem_range.2 (by omega)))

/-- A product of this ageing interval whose block has been read, its state, and the same with a bad block. -/
def product1 (block : List Byte) : SplitOp := splitOp1 (.swmv all 0 6 4) [0x4000] block
def ageing (n : Nat) : State :=
  let s := splitting (product1 splitBlock)
  { s with mem := s.mem.writeN 0x4000_5034 (leBytes 2 n) }
/-- An operation whose ageing is due, alone and beside a product before it. -/
def due1 : SplitOp := { product1 splitBlock with ageDue := some 9 }
def beside (o : SplitOp) : State := (splitting o).updDie 0 (fun d => { d with splitOps := d.splitOps ++ [{ product1 splitBlock with number := 2 }] })

theorem product_of {s : State} {w : Wave} {b : List Byte} {P : ProductOut → Prop} (g : ProductOut → Bool) (hg : ∀ r, g r = true → P r)
    (h : (match runProduct s w {} b with
      | .ok r => g r
      | .error _ => false) = true) : ∃ r, runProduct s w {} b = .ok r ∧ P r := by
  split at h
  · exact ⟨_, ‹_›, hg _ h⟩
  · cases h

/-- The translations stand after every update of a product. -/
def keeps (s : State) (r : ProductOut) : Bool := (List.range ((productUpdates r).length + 1)).all (fun k =>
  sameTables s.mem (updated s chainer ((productUpdates r).take k)) pageLevels 0x1000)

/-- SplitWords: each word; a product whose block was read, without ageing, with ageing due and with a bad block; ageing that waits for
a product and ageing that does not, of a word and of a card; a migration; promotions without a row and with more rows than slots. -/
theorem witness_SplitWords :
    (∃ sc, splitForm chainer (.swmv all 0 6 4) = some (all, 0, sc)) ∧ (∃ sc, splitForm chainer (.swage all 0 4) = some (all, 0, sc)) ∧
    (∀ n ∈ [0, 1], Runnable (ageing n) (product1 splitBlock) chainer ∧ NoTx (ageing n) ∧ workingFrame (ageing n) 0 = true ∧
      workingFrame (ageing n) (partnerOf 0) = true) ∧
    (product1 splitBlock).block ≠ [] ∧ (product1 splitBlock).desc ≠ none ∧ (0x4000 : W64).toNat % 64 = 0 ∧ Cells.wf 0 chainer.s = true ∧
    (let o := splitOp1 (.swmig all 0 6 4 5) [0x5000, 1] []
     Runnable (splitting o) o chainer ∧ NoTx (splitting o) ∧ ∃ t, migrate (splitting o) (dieAgent chainer) 0x5000 (1 % 2 ^ 16) = .ok t) := by
  refine ⟨⟨_, rfl⟩, ⟨_, rfl⟩, ?_, by decide, by decide, by decide, by decide +kernel,
    ⟨⟨rfl, rfl, ⟨rfl, rfl, rfl⟩, ⟨rfl, rfl, rfl⟩, by decide +kernel⟩, noTx_of (by decide +kernel), ok_of (by decide +kernel)⟩⟩
  intro n hn
  simp only [List.mem_cons, List.not_mem_nil, or_false] at hn
  rcases hn with rfl | rfl <;> exact ⟨⟨rfl, rfl, ⟨rfl, rfl, rfl⟩, ⟨rfl, rfl, rfl⟩, by decide +kernel⟩, noTx_of (by decide +kernel),
    by decide +kernel, by decide +kernel⟩

theorem witness_products :
    (∃ r, runProduct (ageing 0) chainer {} splitBlock = .ok r ∧ KeepMaps (ageing 0) chainer (productUpdates r) ∧ r.desc.ageint = 0) ∧
    (∃ r, runProduct (ageing 1) chainer {} splitBlock = .ok r ∧ KeepMaps (ageing 1) chainer (productUpdates r) ∧ r.desc.ageint ≠ 0 ∧
      ageCount (ageing 1) chainer r = r.desc.ageint) :=
  ⟨product_of (fun r => keeps (ageing 0) r && r.desc.ageint == 0)
      (fun r h => ⟨keepMaps_of (Bool.and_eq_true_iff.1 h).1, by simpa using (Bool.and_eq_true_iff.1 h).2⟩) (by decide +kernel),
    product_of (fun r => keeps (ageing 1) r && (r.desc.ageint != 0 && ageCount (ageing 1) chainer r == r.desc.ageint))
      (fun r h => ⟨keepMaps_of (Bool.and_eq_true_iff.1 h).1, by simpa using (Bool.and_eq_true_iff.1 h).2⟩) (by decide +kernel)⟩

/-- The block of a product whose descriptor is misaligned. -/
def badBlock : List Byte := leBytes 8 0x5001 ++ splitBlock.drop 8
theorem witness_badProduct : Runnable (splitting (product1 badBlock)) (product1 badBlock) chainer ∧
    ∃ rs r, runProduct (splitting (product1 badBlock)) chainer {} badBlock = .error rs ∧ settleRaises rs = some r := by
  refine ⟨⟨rfl, rfl, ⟨rfl, rfl, rfl⟩, ⟨rfl, rfl, rfl⟩, by decide +kernel⟩, ?_⟩
  have h : (match runProduct (splitting (product1 badBlock)) chainer {} badBlock with
    | .ok _ => false
    | .error rs => (settleRaises rs).isSome) = true := by decide +kernel
  split at h
  · cases h
  · exact ⟨_, _, ‹_›, (Option.some_get h).symm⟩

theorem witness_ageing :
    (findSplit (beside due1) 3 = some due1 ∧ AgeingWaits (beside due1) due1 9) ∧
    (findSplit (splitting due1) 3 = some due1 ∧ ¬ AgeingWaits (splitting due1) due1 9 ∧ due1.card = none ∧ NoTx (splitting due1) ∧
      (let va := (Machine.splitBlock due1.block).desc
       let d := splitDesc (rangeRead (splitting due1) (dieAgent chainer) va 64)
       rangeRaises (splitting due1) (dieAgent chainer) .both d.counters d.nrows = [] ∧
        rangeRaises (splitting due1) (dieAgent chainer) .both (va + 0x36) 2 = [] ∧ KeepMaps (splitting due1) chainer (ageUpdates d va))) ∧
    (let o := { due1 with card := some (0, 5) }
     findSplit (splitting o) 3 = some o ∧ ¬ AgeingWaits (splitting o) o 9) := by
  refine ⟨⟨rfl, ?_⟩, ⟨rfl, ?_, rfl, noTx_of (by decide +kernel), by decide +kernel, by decide +kernel, keepMaps_of (by decide +kernel)⟩,
    ⟨rfl, ?_⟩⟩
  all_goals unfold AgeingWaits; decide +kernel

/-! #### Groups, barriers, tasks and pipelines -/

/-- A member, a wave of group 7 and one of none that would join group 7 or 9, and a group of waves 0 to n. -/
def member (k : Nat) : Member := { rank := k, wave := k, role := 0, stopped := false }
def groupOf1 (n : Nat) : Group := { group2 with members := (List.range n).map member, roles := List.replicate 8 {} }
def inside (key : W64) (x : W64) : Wave := { (full.setS 4 x) with sys := { full.sys with gkey := key } }
def groupState (w : Wave) (g : Group) : State :=
  ({ mapped w 0 with waves := [w, inside 7 0, inside 7 0] } : State).updCluster 0 (fun c => { c with groups := [g] })

theorem inGroup_of {s : State} {w : Wave} {g : Group} (h : decide (s.groupOf w = some g ∧ (s.cluster w.place.cluster).groups = [g] ∧
    g.members ≠ [] ∧ g.halt = 0) = true) {m : Member} (hm : g.members.find? (fun m => m.wave = s.cur) = some m) :
    InGroup s w g m.rank := by
  obtain ⟨h1, h2, h3, h4⟩ := of_decide_eq_true h
  refine ⟨h1, ⟨m, hm, rfl⟩, ?_, ?_, h4⟩ <;> rw [h2] <;> intro x hx <;> simp only [List.mem_singleton] at hx <;> subst hx
  · exact h3
  · intro _ _; rfl

/-- GroupWords: key 0, a wave that has a group, 64 groups, no group of the key, one with room for rank 1; a wave without a group, one
alone in it and one of two; an election that the wave wins, and a role of nobody; CKPT with and without a request. -/
theorem witness_GroupWords :
    (inside 0 0).sys.gkey = 0 ∧ (inside 0 0).active false all ≠ 0 ∧ 0 < (mapped (inside 0 9) 0).clusters.length ∧
    (mapped (inside 0 9) 0).findGroup 0 0 9 = none ∧ ((mapped (inside 0 9) 0).cluster 0).groups.length < 64 ∧
    (let s := (mapped (inside 0 9) 0).updCluster 0 (fun c => { c with groups := List.replicate 64 group2 })
     64 ≤ (s.cluster 0).groups.length ∧ s.findGroup 0 0 9 = none) ∧
    (let s := groupState (inside 0 7) { groupOf1 1 with members := [member 0] }
     s.findGroup 0 0 7 = some (groupOf1 1) ∧ (∀ m ∈ (groupOf1 1).members, m.rank ≠ 1) ∧ (∀ j < 1, ∃ m ∈ (groupOf1 1).members, m.rank = j)) ∧
    (mapped (inside 0 9) 0).groupOf (inside 0 9) = none ∧
    InGroup (groupState (inside 7 0) (groupOf1 1)) (inside 7 0) (groupOf1 1) 0 ∧ (∀ m ∈ (groupOf1 1).members, m.wave = 0) ∧
    InGroup (groupState (inside 7 0) (groupOf1 2)) (inside 7 0) (groupOf1 2) 0 ∧ (∃ m ∈ (groupOf1 2).members, m.wave ≠ 0) ∧
    pairPending (groupState (inside 7 0) (groupOf1 1)) 0 = false ∧ ((inside 7 0).slot true).valid = false := by
  refine ⟨rfl, by decide +kernel, by decide +kernel, by decide +kernel, by decide +kernel, by decide +kernel, by decide +kernel, by decide +kernel,
    inGroup_of (m := member 0) (by decide +kernel) rfl, by decide +kernel, inGroup_of (m := member 0) (by decide +kernel) rfl, by decide +kernel,
    by decide +kernel, rfl⟩

theorem witness_elections : (∃ r, electForms (inside 7 0) (.gelect all 15 4) = some (all, 15, r) ∧ r = 0) ∧
    (∃ r, electForms (inside 7 0) (.gelectI all 1 7) = some (all, 1, r) ∧ r = 7) ∧
    (∃ m ∈ (groupOf1 2).members, m.rank = 0 ∧ m.role = 0) ∧ (∀ m ∈ (groupOf1 2).members, m.role = 0 → 0 ≤ m.rank) ∧
    (∀ m ∈ (groupOf1 2).members, m.role ≠ 7) ∧ full.run.preempt = false ∧
    (let o : ArrayOp := { opOf (.mma { mma1 with pair := true }) [] with wave := 0 }
     pairPending ((groupState (inside 7 0) (groupOf1 1)).updCore 0 (fun c => { c with queue := [o] })) 0 = true) ∧
    (∀ g, (groupState (inside 7 0) (groupOf1 2)).groupOf (inside 7 0) = some g → g = groupOf1 2) :=
  ⟨⟨_, rfl, by decide +kernel⟩, ⟨_, rfl, by decide⟩, by decide +kernel, by decide +kernel, by decide +kernel, rfl, by decide +kernel,
    by intro g h; injection h with h; exact h.symm⟩

/-- A wave with a pre-emption request: a pair operation that runs holds its frames, or none does; its group is steady. -/
def asked : Wave := { inside 7 0 with run := { full.run with preempt := true } }
def holding (f : Option Nat) : State :=
  (groupState asked (groupOf1 2)).updCore 0 (fun c => { c with running := some { op := opOf (.mma mma1) [0], writes := [], follower := f, attempts := 0 } })
theorem witness_checkpoints : asked.run.preempt = true ∧ asked.active false (wordPred 0) ≠ 0 ∧ asked.run.status = .running ∧
    heldByPair (holding (some 0)) 0 = true ∧ heldByPair (holding none) 0 = false ∧ Steady (holding none) 0 asked := by
  refine ⟨rfl, by decide +kernel, rfl, by decide +kernel, by decide +kernel, ?_⟩
  intro g h
  injection h with h
  subst h
  decide +kernel

/-- A member that the halt is on its way to, one that has issued n words since it came, and one that HALT put to sleep. -/
def haltWave (due : Bool) (n : Option Nat) : Wave := { inside 7 0 with run := { full.run with haltDue := due, skid := n } }
def asleep1 : Wave := { haltWave true none with run := { (haltWave true none).run with status := .asleep } }
def haltState (w : Wave) : State := { groupState w (groupOf1 2) with target := .wave 0 }

theorem atRest_of {s : State} {i : Nat} {w : Wave} {g : Group} (hg : s.groupOf w = some g)
    (h : decide (w.windows = [] ∧ (w.slotA.wait = none ∧ w.slotB.wait = none) ∧ w.sync = [] ∧ pendingOps s i = [] ∧
      w.abandoned = [] ∧ w.stack = [] ∧ w.tx = none ∧ g.rowWait = []) = true) : AtRest s i w := by
  obtain ⟨h1, h2, h3, h4, h5, h6, h7, h8⟩ := of_decide_eq_true h
  exact ⟨h1, h2, h3, h4, h5, h6, h7, fun x hx => by rw [hg] at hx; injection hx with hx; exact hx ▸ h8⟩

/-- GroupHalts: a trap of one of two members; a halt that reaches a running member and a sleeping one; a member that stops after no
word and after 8; a halted group whose members have all stopped. -/
theorem witness_GroupHalts :
    (InGroup (groupState (inside 7 0) (groupOf1 2)) (inside 7 0) (groupOf1 2) 0 ∧ AtRest (groupState (inside 7 0) (groupOf1 2)) 0 (inside 7 0) ∧
      ¬ handled (inside 7 0) ∧ (∃ m ∈ (groupOf1 2).members, m.wave ≠ 0 ∧ m.stopped = false) ∧ full.run.skid = none) ∧
    ((haltState (haltWave true none)).wave 0 = some (haltWave true none) ∧ ¬ StandsStill (haltWave true none) ∧
      (haltState asleep1).wave 0 = some asleep1 ∧ StandsStill asleep1) ∧
    (∀ n ∈ [0, 8], (haltState (haltWave false (some n))).wave 0 = some (haltWave false (some n)) ∧
      AtRest (haltState (haltWave false (some n))) 0 (haltWave false (some n)) ∧
      (∃ q, walk (haltState (haltWave false (some n))) 0 (haltWave false (some n)).sys.priv.toNat = .ok q) ∧
      (haltWave false (some n)).sys.priv.toNat % 4096 = 0 ∧
      (haltState (haltWave false (some n))).groupOf (haltWave false (some n)) = some (groupOf1 2) ∧ (groupOf1 2).members ≠ []) ∧
    (let h : Wave := { inside 7 0 with run := { full.run with
       status := .stopped
       trap := some { cause := .groupHalt, eng := false, pc := 0x10000, slotB := false, orig := false, fromOp := false, resumed := false, asleep := false } } }
     let g : Group := { groupOf1 1 with halt := 2, members := [{ member 0 with stopped := true }] }
     let s : State := { groupState h g with target := .group 0 0 7 }
     s.findGroup 0 0 7 = some g ∧ s.wave 0 = some h ∧ h.run.evicted = false ∧ h.abandoned = [] ∧ (g.members.map (·.wave)).Nodup ∧
      (∀ m ∈ g.members, m.stopped = true ∧ m.wave = 0) ∧ (∀ x ∈ (s.cluster 0).groups, x.members ≠ [])) := by
  refine ⟨⟨inGroup_of (m := member 0) (by decide +kernel) rfl, atRest_of (g := groupOf1 2) (by decide +kernel) (by decide +kernel),
      by unfold handled; decide, by decide +kernel, rfl⟩,
    ⟨rfl, by unfold StandsStill; decide +kernel, rfl, by unfold StandsStill; decide +kernel⟩, ?_, by decide +kernel⟩
  intro n hn
  simp only [List.mem_cons, List.not_mem_nil, or_false] at hn
  rcases hn with rfl | rfl <;>
    exact ⟨rfl, atRest_of (g := groupOf1 2) (by decide +kernel) (by decide +kernel), ok_of (by decide +kernel), by decide, by decide +kernel, by decide⟩

/-- Barriers: a group of one whose arrival completes the generation, one of two whose does not, one whose other member waits there;
no row, as many rows as there are, one more, and others waiting. -/
theorem witness_Barriers :
    (∃ role, barForms (groupState (inside 7 0) (groupOf1 1)) (inside 7 0) .gbar = some (all, role) ∧ role = none) ∧
    (∃ role, barForms (groupState (inside 7 7) (groupOf1 1)) (inside 7 7) (.gbarRole all 4) = some (all, role) ∧ role = some 7) ∧
    InGroup (groupState (inside 7 0) (groupOf1 1)) (inside 7 0) (groupOf1 1) 0 ∧ (groupOf1 1).roles.length = 8 ∧
    ((inside 7 0).slot false).wait = none ∧
    allArrived (arrives (barOf (groupOf1 1) none) 0 (requiredBy (groupOf1 1) none)) ∧
    ¬ allArrived (arrives (barOf (groupOf1 2) none) 0 (requiredBy (groupOf1 2) none)) ∧
    (let g : Group := { groupOf1 2 with all := { gen := 2 ^ 32 - 1, isOpen := true, arrived := [(1, true)], required := [(0, true), (1, true)] } }
     let x : Wait := { kind := barKind none (2 ^ 32 - 1), ticket := 0, word := 0 }
     let y : Wave := { inside 7 0 with slotA := { full.slotA with wait := some x } }
     let s : State := { groupState (inside 7 0) g with waves := [inside 7 0, y] }
     allArrived (arrives (barOf g none) 0 (requiredBy g none)) ∧ (arrives (barOf g none) 0 (requiredBy g none)).arrived.has 1 = true ∧
      s.wave 1 = some y ∧ y.slotA.valid = true ∧ y.slotB.valid = false ∧ y.stack = [] ∧ y.slotA.parked = false ∧
      y.slotA.rpc ≠ some (y.slotA.pc + 8)) ∧
    (∃ n, rowForms (inside 7 0) (.gbarRows all 4) = some (all, n) ∧ n = 0) ∧
    (∃ n, rowForms (inside 7 0) (.gbarRowsI all 0x1FFFF) = some (all, n) ∧ n = ({ groupOf1 1 with rows := 0x1FFFF } : Group).rows ∧
      ({ groupOf1 1 with rows := 0x1FFFE } : Group).rows < n ∧ n ≠ 0) ∧ (groupOf1 1).rowWait = [] := by
  refine ⟨⟨_, rfl, rfl⟩, ⟨_, rfl, by decide +kernel⟩, inGroup_of (m := member 0) (by decide +kernel) rfl, rfl, rfl, ?_, ?_, ?_, ⟨_, rfl, by decide +kernel⟩,
    ⟨_, rfl, by decide, by decide, by decide⟩, rfl⟩ <;> simp only [allArrived] <;> decide +kernel

theorem get_above {α : Type} (d : α) (m : Cells α) (b : Nat) (h : m.all (fun e => decide (e.1 < b)) = true) (k : Nat) (hk : b ≤ k) :
    Cells.get d m k = d := by
  induction m with
  | nil => rfl
  | cons e m ih =>
    simp only [List.all_cons, Bool.and_eq_true, decide_eq_true_eq] at h
    simp only [Cells.get]
    rw [if_neg (by omega), if_neg (by omega), ih h.2]

/-- A wave whose slot B waits in a VSYNC with the upper 16 lanes, and whose slot A comes with the lower ones; all with one mask. -/
def syncing : Wave :=
  ({ split with
    sync := (List.range 16).map (fun l => (16 + l, some 0xFFFFFFFF))
    slotB := { split.slotB with wait := some { kind := .sync, ticket := 0, word := 0 } } } : Wave).setLanes 2
      ((List.range 16).map (fun l => (l, 0xFFFFFFFF)))

/-- LaneSync: a lane outside its own mask; a mask that names lanes that do not wait; the word's own lanes alone; one lane with another
mask; lanes outside the mask, which keep waiting; lanes that wait in the other slot. -/
theorem witness_LaneSync : let w (x : W32) : Wave := (lane31.setV 2 31 x)
    Cells.wf none (w 0).sync = true ∧ (w 0).sync = [] ∧
    (∀ l < 32, ((w 0).active false all).getLsbD l = (supplied (w 0) ((w 0).active false all) 2 l).isSome) ∧
    (lanesOf ((w 0).active false all)).head? = some 31 ∧
    ((supplied (w 0) ((w 0).active false all) 2 31).getD 0).getLsbD 31 = false ∧
    (let m0 := (supplied (w 0xFFFFFFFF) ((w 0).active false all) 2 31).getD 0
     m0.getLsbD 31 = true ∧ (m0 &&& ~~~ (w 0).exited) &&& ~~~ ((w 0).active false all) ≠ 0) ∧
    (let m0 := (supplied (w 0x80000000) ((w 0).active false all) 2 31).getD 0
     m0.getLsbD 31 = true ∧ (m0 &&& ~~~ (w 0).exited) = (w 0).active false all ∧
      (List.range 32).filter (fun l => m0.getLsbD l && decide (supplied (w 0x80000000) ((w 0).active false all) 2 l ≠ some m0)) = []) ∧
    (let u := (full.setV 2 0 3).setV 2 1 1
     let act := u.active false all
     (∀ l < 32, act.getLsbD l = (supplied u act 2 l).isSome) ∧ (lanesOf act).head? = some 0 ∧ (3 : W32) &&& ~~~ act = 0 ∧
      (List.range 32).filter (fun l => (3 : W32).getLsbD l && decide (supplied u act 2 l ≠ some 3)) ≠ []) ∧
    (let u := (full.setV 2 0 3).setV 2 1 3
     let act := u.active false all
     act &&& ~~~ 3 ≠ 0 ∧ (u.slot true).wait = none ∧
      (List.range 32).filter (fun l => (3 : W32).getLsbD l && decide (supplied u act 2 l ≠ some 3)) = []) ∧
    (let act := syncing.active false all
     Cells.wf none syncing.sync = true ∧ (∀ l < 32, (0xFFFFFFFF : W32).getLsbD l = (supplied syncing act 2 l).isSome) ∧
      (lanesOf 0xFFFFFFFF).head? = some 0 ∧ (∀ l < 32, supplied syncing act 2 l = some 0xFFFFFFFF) ∧ syncing.exited = 0 ∧
      (syncing.slot true).valid = true ∧ (∃ y, (syncing.slot true).wait = some y ∧ y.kind = .sync) ∧ (syncing.slot true).parked = false ∧
      (syncing.slot true).rpc ≠ some ((syncing.slot true).pc + 8) ∧ (syncing.slot false).wait = none ∧ syncing.stack = [] ∧
      syncing.run.evicted = false ∧ (∀ k < 32, (syncing.slot false).mask.getLsbD k = true → Cells.get none syncing.sync k = none) ∧
      (∀ k, 32 ≤ k → Cells.get none syncing.sync k = none)) := by
  refine ⟨rfl, rfl, by decide +kernel, by decide +kernel, by decide +kernel, by decide +kernel, by decide +kernel, by decide +kernel,
    by decide +kernel, by decide +kernel, by decide +kernel, by decide +kernel, by decide +kernel, by decide +kernel, by decide +kernel,
    ⟨_, rfl, rfl⟩, by decide +kernel, by decide +kernel, by decide +kernel, by decide +kernel, by decide +kernel, by decide +kernel,
    get_above _ _ _ (by decide +kernel)⟩

/-- A record, a pipeline of n stages, and a wave that names them. -/
def record1 : List Byte := leBytes 8 0x10000 ++ leBytes 8 0 ++ leBytes 8 0x4000 ++ leBytes 8 1 ++ leBytes 32 0
def pipe1 (n : Nat) : List Byte :=
  leBytes 8 n ++ leBytes 56 0 ++ (List.range n).flatMap (fun k => leBytes 16 0x10000 ++ leBytes 4 1 ++ leBytes 4 1 ++ leBytes 8 (0x6000 + 64 * k))
def spawner : Wave := (full.setS 4 0x4000).setS 5 0x5000
def spawning (n : Nat) : State :=
  let s := mapped spawner 0
  let m := (s.mem.writeN 0x4000_4000 record1).writeN 0x4000_5000 (pipe1 n)
  { s with mem := (List.range n).foldl (fun m k => m.writeN (0x4000_6000 + 64 * k) (leBytes 8 0x7000 ++ leBytes 4 16 ++ leBytes 52 8)) m }

theorem spawnable1 : Spawnable (spawning 1) spawner all 0x4000 record1 := by
  refine ⟨?_, by decide +kernel, noTx_of (by decide +kernel), by decide +kernel, by decide +kernel, by decide +kernel, by decide +kernel, by decide +kernel⟩
  simp only [Claims.Clear]
  decide +kernel

/-- The second queue of a pipeline of the wave's launch: its fields, and the pipeline. -/
def queue1 (head tail : Nat) (closed : Bool) : PipeQueue :=
  { addr := 0x6000, base := 0x7000, cap := 16, hwm := 8, head := head, tail := tail, closed := closed, live := 0, entry := 0, args := 0, foot := 0, maxt := 1 }
def pipe2 (q r : PipeQueue) : Pipe :=
  { number := 0, ctx := 0, launch := 0, index := 0, home := 0, depth := 1, near := none, queues := [q, { r with addr := 0x6040 }] }
def piped (w : Wave) (q r : PipeQueue) : State := (mapped w 0).updDie 0 (fun d => { d with pipes := [pipe2 q r] })
def pusher : Wave := { (full.setS 4 0x6000).setS 5 0x6040 with place := { full.place with stage := some { die := 0, pipe := 0, stage := 0 } } }

theorem queued_of {s : State} {w : Wave} {a : SReg} {x : QueueAt} (h1 : findQueue s w.place.ctx w.sys.launch (w.getS a.toNat) = some x)
    (h2 : queueAt s x.die x.pipe.number x.k = some x) (h3 : s.waves.all (fun u => u.tx.isNone && (u.slotA.wait.isNone && u.slotB.wait.isNone)) = true) :
    Queued s w a x := by
  refine ⟨h1, h2, ?_, ?_⟩
  · intro u hu y hy
    have := List.all_eq_true.1 h3 u hu
    rcases hy with hy | hy <;> simp [hy] at this
  · apply noTx_of
    rw [List.all_eq_true]
    intro u hu
    have := List.all_eq_true.1 h3 u hu
    simp_all

/-- SpawnAndQueueWords: a record that SPAWN takes, with room and without, at depth 8; a pipeline of one and of 8 stages; a queue that
the launch lacks, one of stage 1, full, empty, closed; and a queue that closes by itself. -/
theorem witness_SpawnAndQueueWords : Spawnable (spawning 1) spawner all 0x4000 record1 ∧ wordPred 0 = all ∧ spawner.active false all ≠ 0 ∧
    (let home := homeOf (spawning 1) 0 (fieldAt record1 0x10 8 % 2 ^ 56) 0
     ((spawning 1).die home.1).queue.length < 4096 ∧ home.1 < (spawning 1).dies.length) ∧
    (∀ n ∈ [1, 8], pipeRaises (spawning n) spawner 0xFFFFFFFF (pipe1 n) n = [] ∧
      bytesAt (spawning n).mem (rangesAt (spawning n) spawner .read 0x5000 64) ++
        bytesAt (spawning n).mem (rangesAt (spawning n) spawner .read (0x5000 + 64) (32 * n)) = pipe1 n) ∧
    findQueue (mapped pusher 0) 0 0 0x6000 = none ∧
    (∀ q ∈ [queue1 0 16 false, queue1 (2 ^ 32 - 1) 0 false, queue1 5 5 false, queue1 5 5 true], ∃ x,
      Queued (piped pusher q q) pusher 5 x ∧ pushes pusher x ∧ x.q = { q with addr := 0x6040 }) ∧
    (∃ x, Queued (piped full (queue1 0 0 false) (queue1 0 0 false)) (full.setS 5 0x6040) 5 x ∧ ¬ pushes (full.setS 5 0x6040) x) ∧
    itemsIn (queue1 0 16 false) = 16 ∧ itemsIn (queue1 (2 ^ 32 - 1) 0 false) = 1 ∧ itemsIn (queue1 5 5 false) = 0 ∧
    (∃ x y, queueAt (piped full (queue1 0 0 true) (queue1 0 0 false)) 0 0 1 = some x ∧
      queueAt (piped full (queue1 0 0 true) (queue1 0 0 false)) 0 0 0 = some y ∧ x.q.closed = false ∧ y.q.closed = true ∧
      itemsIn y.q = 0 ∧ y.q.live = 0) := by
  refine ⟨spawnable1, by decide, by decide +kernel, by decide +kernel, by decide +kernel, by decide +kernel, ?_, ?_, by decide, by decide, by decide,
    ⟨_, _, rfl, rfl, rfl, rfl, by decide, rfl⟩⟩
  · intro q hq
    simp only [List.mem_cons, List.not_mem_nil, or_false] at hq
    rcases hq with rfl | rfl | rfl | rfl <;>
      exact ⟨_, queued_of rfl rfl (by decide +kernel), .inr rfl, rfl⟩
  · exact ⟨_, queued_of rfl rfl (by decide +kernel), by unfold pushes; decide +kernel⟩

theorem witness_items : Claims.Clear (piped pusher (queue1 (2 ^ 32 - 1) 0 false) (queue1 (2 ^ 32 - 1) 0 false)) pusher .write
      (itemAt (queue1 (2 ^ 32 - 1) 0 false) 0) 8 8 ∧
    Claims.Clear (piped pusher (queue1 (2 ^ 32 - 1) 0 false) (queue1 (2 ^ 32 - 1) 0 false)) pusher .read
      (itemAt (queue1 (2 ^ 32 - 1) 0 false) (2 ^ 32 - 1)) 8 8 ∧
    Claims.Clear (spawning 1) spawner .read 0x4000 64 64 ∧ Claims.Clear (spawning 8) spawner .read (0x5000 + 64) (32 * 8) 32 ∧
    recordRaises (spawning 1) (waveAgent spawner 0) 0xFFFFFFFF record1 = [] := by
  simp only [Claims.Clear]
  decide +kernel

/-! #### The fabric -/

/-- A wave whose registers s4 to s6 hold an FA, a local address and a length; node 3 knows itself and node 5. -/
def sender (node : Nat) : Wave := ((full.setS 4 (BitVec.ofNat 64 (node * 2 ^ 52 + 9 * 2 ^ 44 + 0x18))).setS 5 0x4000).setS 6 8
def onFabric (w : Wave) (job : Option (BitVec 16)) : State :=
  let s := mapped w 0
  { s with
    ctxs := updAt s.ctxs 0 (fun c => { c with job := job })
    fabric := { s.fabric with node := 3, routes := [(5, 1)] }
    ticket := 7 }
/-- An XPUT that the wave posted before. -/
def put3 : FabCmd :=
  { number := 3, wave := 0, slotB := false, op := .put, ctx := 0, fa := 0x0050_0000_0000_0000, addr := 0x4000, length := 8, value := 0
    token := some 2, after := [], phase := 1, reply := [], fault := none, serving := {} }

theorem sendable_of {s : State} {q : Request} (h : decide ((q.fa.toNat % 8 = 0 ∧ q.addr.toNat % 8 = 0 ∧ q.length % 8 = 0) ∧
    (8 ≤ q.length ∧ q.length ≤ 2 ^ 24) ∧ ∀ c ∈ s.fabric.cmds, c.number ≠ s.ticket) = true) : Sendable s q :=
  ⟨(of_decide_eq_true h).1, (of_decide_eq_true h).2.1, (of_decide_eq_true h).2.2⟩

/-- FabricWords: each word, to this node and to another; without a job, to a node without a route and to node 0xFFF; a full token; an
XSIG after another command. -/
theorem witness_FabricWords :
    (∀ node ∈ [3, 5], ∃ q, fabForm (onFabric (sender node) (some 7)) (sender node) (.xput all 0 7 4) = some (all, 0, q) ∧
      Sendable (onFabric (sender node) (some 7)) q ∧ Reaches (onFabric (sender node) (some 7)) (nodeOf q.fa) ∧ q.token = some 7) ∧
    (∃ q, fabForm (onFabric (sender 5) none) (sender 5) (.xsig all 0 .fill 0 4 5) = some (all, 0, q) ∧ q.token = some 0 ∧
      Sendable (onFabric (sender 5) none) q) ∧
    (∃ q, fabForm (onFabric (sender 7) (some 7)) (sender 7) (.xgetB64 all 0 9 4) = some (all, 0, q) ∧ q.token = none ∧
      ¬ Reaches (onFabric (sender 7) (some 7)) (nodeOf q.fa)) ∧
    ¬ Reaches (onFabric (sender 0xFFF) (some 7)) 0xFFF ∧ wordPred 0 = all ∧ (sender 5).active false all ≠ 0 ∧
    (sender 5).token 7 < 63 ∧ 63 ≤ ((sender 5).setToken 7 63).token 7 ∧
    rangeRaises (onFabric (sender 5) (some 7)) (dieAgent (sender 5)) .read 0x4000 8 = [] ∧
    ([put3].filter (fun c => c.wave = 0 ∧ c.op ≠ .get)) ≠ [] := by
  refine ⟨?_, ⟨_, rfl, rfl, sendable_of (by decide +kernel)⟩, ⟨_, rfl, rfl, ?_⟩, ?_, by decide, by decide +kernel, by decide +kernel, by decide +kernel, by decide +kernel, by decide +kernel⟩
  · intro node h
    simp only [List.mem_cons, List.not_mem_nil, or_false] at h
    rcases h with rfl | rfl <;> refine ⟨_, rfl, sendable_of (by decide +kernel), ?_, rfl⟩ <;> simp only [Reaches] <;> decide +kernel
  · simp only [Reaches]; decide +kernel
  · simp only [Reaches]; decide +kernel

/-- An XCOLL of one rank and of three, an all-reduce of three elements, with its descriptor at 0x4000 and its team at 0x5000. -/
def collDesc (nrank : Nat) : List Byte :=
  leBytes 4 1 ++ leBytes 4 0x44 ++ leBytes 4 6 ++ leBytes 2 0 ++ leBytes 2 nrank ++ leBytes 8 3 ++ leBytes 8 0x5000 ++ leBytes 8 0x6000 ++ leBytes 24 0x7000
def collecting (nrank : Nat) : State :=
  let s := onFabric (sender 5) (some 7)
  let w := (sender 5).setS 4 0x4000
  { s with
    waves := [w]
    mem := (s.mem.writeN 0x4000_4000 (collDesc nrank)).writeN 0x4000_5000 ([3, 5, 5].flatMap (leBytes 8)) }
def collector : Wave := (sender 5).setS 4 0x4000
def coll1 (nrank : Nat) : Coll := collOf (collDesc nrank) 7 0 0 7

theorem collectable1 (n : Nat) (h : n = 1 ∨ n = 3) : Collectable (collecting n) collector all 0x4000 (collDesc n) 7 (coll1 n) := by
  rcases h with rfl | rfl <;>
    refine ⟨noTx_of (by decide +kernel), ?_, by decide +kernel, by decide +kernel, rfl, by decide +kernel, by decide +kernel, by decide +kernel, by decide +kernel⟩ <;>
    simp only [Claims.Clear] <;> decide +kernel

/-- The collective of a descriptor with a bad operation, and of a context without a job. -/
def badColl : State :=
  let s := collecting 3
  { s with mem := s.mem.writeN 0x4000_4000 (leBytes 4 9 ++ (collDesc 3).drop 4) }
def jobless : State := { collecting 3 with ctxs := updAt (collecting 3).ctxs 0 (fun c => { c with job := none }) }

/-- CollectiveWords: 16 collectives in flight; a bad field; no job, with a team that can be read and one of 1025 ranks. -/
theorem witness_collWaits :
    16 ≤ ((List.replicate 16 (coll1 1)).filter (fun x => x.wave = 0 ∧ x.finished = false)).length ∧
    (badColl.fabric.colls.filter (fun x => x.wave = 0 ∧ x.finished = false)).length < 16 ∧ Claims.Clear badColl collector .read 0x4000 64 64 ∧
    (let b := bytesAt badColl.mem (rangesAt badColl collector .read 0x4000 64)
     (badColl.ctx 0).job = some 7 ∧ (collOf b badColl.ticket 0 0 7).fieldBad b = true) ∧
    NoTx badColl ∧ NoTx jobless ∧ Claims.Clear jobless collector .read 0x4000 64 64 ∧ (jobless.ctx 0).job = none ∧
    (let b := bytesAt jobless.mem (rangesAt jobless collector .read 0x4000 64)
     let c := collOf b jobless.ticket 0 0 0
     c.fieldBad b = false ∧ collRaises jobless collector (collector.active false all) c b none = [] ∧
      rangeRaises jobless (waveAgent collector 0) .read (fieldAt b 0x18 8) (8 * c.nrank) = [] ∧
      (∀ e ∈ partsBy 8 (copied jobless (waveAgent collector 0) (fieldAt b 0x18 8) (8 * c.nrank)), leNat e < 2 ^ 12)) := by
  simp only [Claims.Clear]
  refine ⟨by decide +kernel, by decide +kernel, by decide +kernel, by decide +kernel, noTx_of (by decide +kernel), noTx_of (by decide +kernel),
    by decide +kernel, by decide +kernel, by decide +kernel⟩

/-- CollectiveWords: one rank and three; the ID in flight, behind an aborted SEQ by 0 and ahead by 1; a wait for a collective in
flight, for none, and for one with a cause. -/
theorem witness_CollectiveWords : (∀ n, n = 1 ∨ n = 3 → Collectable (collecting n) collector all 0x4000 (collDesc n) 7 (coll1 n)) ∧
    collector.run.status = .running ∧ collector.run.evicted = false ∧ collector.active false all ≠ 0 ∧
    ((coll1 1).finished = false ∧ (coll1 1).op ≠ 4) ∧ ¬ ahead 6 6 ∧ ahead 6 5 ∧ ¬ ahead 6 0x80000006 ∧ ahead 6 0x80000007 ∧
    keptSeq [(7, 0x44, 6)] 7 0x44 = some 6 ∧
    rangeRaises (collecting 3) (dieAgent collector) .read (coll1 3).send.toNat ((coll1 3).count * (coll1 3).elem) = [] ∧
    ((collecting 1).ctx 0).job ≠ none ∧ (collector.getS 6).toNat % 2 ^ 32 = 8 ∧
    (coll1 1).wave = 0 ∧ (coll1 1).id.toNat = 0x44 ∧
    ({ coll1 1 with finished := true, cause := some (.elemRange, 0, 0) } : Coll).cause = some (.elemRange, 0, 0) := by
  refine ⟨collectable1, rfl, rfl, by decide +kernel, by decide +kernel, ?_⟩
  simp only [ahead]
  decide +kernel

/-- A request of node 5 for window 9 of context 0, of n bytes at an offset. -/
def packet9 (sig : SigOp) (off n : Nat) : FabPacket :=
  { src := 5, seqNo := 1, job := 7, win := 9, off := BitVec.ofNat 44 off, sig := sig, len := n, data := List.replicate n 1, skip := [], cmd := 2 }
def window9 (flags : Nat) : FabWindow := { num := 9, base := 0x4000, length := 64, flags := flags }
def arriving (p : FabPacket) (flags entry : Nat) : State :=
  let s := onFabric full (some 7)
  { s with
    mem := s.mem.writeN Placed.third (leBytes 16 entry)
    ctxs := updAt s.ctxs 0 (fun c => { c with windows := [window9 flags] })
    target := .packet p }
/-- Leaf entries for user pages: one that holds its memory here, one with tags, one in host memory. -/
def userPage : Nat := Placed.leafEntry Placed.page
def taggedPage : Nat := Placed.leafEntry Placed.page + 0x20
def hostPage : Nat := Placed.leafEntry (2 ^ 51)

theorem forWindow_of {s : State} {p : FabPacket} {x : FabWindow} (ht : s.target = .packet p) (h : decide (s.fabric.applied = [] ∧ s.fabric.inbox = [] ∧ p.src.toNat ≠ s.fabric.node ∧
    (0 < s.ctxs.length ∧ (s.ctx 0).job = some p.job ∧ (s.ctx 0).live = true) ∧
    (s.ctx 0).windows.find? (fun y => y.num = p.win.toNat) = some x ∧ p.skip = []) = true) (q : NoTx s) : ForWindow s p 0 x := by
  obtain ⟨h1, h2, h3, h4, h5, h6⟩ := of_decide_eq_true h
  refine ⟨ht, ⟨?_, ?_⟩, h3, ⟨h4.1, h4.2.1, h4.2.2, ?_⟩, h5, h6, q⟩
  · rw [h1]; exact List.not_mem_nil
  · rw [h2]; intro a ha; cases ha
  · intro d hd; omega

/-- FabricEvents, requests: inside the window up to its end, one word beyond it; forbidden; and the signals, on a page of each kind. -/
theorem witness_FabricEvents :
    (∀ e ∈ [userPage, taggedPage], ∀ f ∈ [0, 7], ∀ n ∈ [8, 16], ∀ g ∈ [SigOp.add, .fill, .set],
      ForWindow (arriving (packet9 g 56 n) f e) (packet9 g 56 n) 0 (window9 f)) ∧
    (window9 7).length < 56 + 16 ∧ 56 + 8 ≤ (window9 7).length ∧ (window9 0).flags.testBit 0 = false ∧
    (window9 7).flags.testBit 0 = true ∧ (window9 7).flags.testBit 1 = true ∧ (window9 7).flags.testBit 2 = true ∧
    (let g : Agent := { ctx := 0, user := true, core := none, wave := none }
     ∀ e ∈ [userPage, taggedPage], let s := arriving (packet9 .add 56 8) 7 e
      rangeRaises s g .read 0x4038 8 = [] ∧ rangeRaises s g .write 0x4038 8 = [] ∧ rangeRaises s g .both 0x4038 8 = [] ∧
      partRanges (partsOf s g .both 0x4038 8) = [(0x4000_4038, 8)] ∧
      (match (partsOf s g .both 0x4038 8).map (·.page) with
        | [.ok q] => !q.host && q.tag == (e == taggedPage)
        | _ => false) = true) ∧ (packet9 .add 56 8).data.length = 8 := by
  refine ⟨?_, by decide, by decide, by decide, by decide, by decide, by decide, by decide +kernel, rfl⟩
  intro e he f hf n hn g hg
  simp only [List.mem_cons, List.not_mem_nil, or_false] at he hf hn hg
  rcases he with rfl | rfl <;> rcases hf with rfl | rfl <;> rcases hn with rfl | rfl <;> rcases hg with rfl | rfl | rfl <;>
    exact forWindow_of rfl (by decide +kernel) (noTx_of (by decide +kernel))

/-- The same for a signal to host memory, where the link does not fail: that is a free value (log 11). -/
theorem witness_hostSignal (h : ∀ n, Config.hostLinkFails n = false) :
    let g : Agent := { ctx := 0, user := true, core := none, wave := none }
    let s := arriving (packet9 .add 56 8) 7 hostPage
    rangeRaises s g .both 0x4038 8 = [] ∧ partRanges (partsOf s g .both 0x4038 8) = [(2 ^ 51 + 0x4038, 8)] ∧
      (match (partsOf s g .both 0x4038 8).map (·.page) with
        | [.ok q] => q.host
        | _ => false) = true := by
  refine ⟨?_, by decide +kernel, by decide +kernel⟩
  have e : chunks 0x4038 8 = [(0x4038, 8)] := by decide +kernel
  have p : partRaises 1 (partsOf (arriving (packet9 .add 56 8) 7 hostPage) { ctx := 0, user := true, core := none, wave := none } .both 0x4038 8) = [] := by decide +kernel
  have m : (arriving (packet9 .add 56 8) 7 hostPage).mem.poison = [] := by decide +kernel
  simp only [rangeRaises, e, List.map_cons, List.map_nil, List.flatten_cons, List.flatten_nil, List.append_nil, p, List.nil_append]
  simp only [mediumRaises, h, Bool.and_false, Bool.false_eq_true, if_false, List.append_nil]
  decide +kernel

/-- A command that this node awaits from another, an XGET at a word of block form or not, and the reply. -/
def get9 (fa : W64) : FabCmd := { put3 with number := 9, op := .get, fa := fa, token := none }
def reply9 : FabReply := { src := 5, seqNo := 4, cmd := 9, data := leBytes 8 0x1234, fault := none, addr := 0 }
/-- The same with a fault. -/
def refusal9 : FabReply := { reply9 with fault := some (6, 0x20), addr := 0x10 }
def asking (ir : W64) : Wave :=
  { full with slotA := { full.slotA with wait := some { kind := .reply 9 0, ticket := 1, word := ir } } }
def repliedBy (r : FabReply) (c : FabCmd) (ir : W64) : State :=
  let s := onFabric (asking ir) (some 7)
  { s with fabric := { s.fabric with cmds := [c] }, target := .reply r }
def replied (c : FabCmd) (ir : W64) : State := repliedBy reply9 c ir

/-- A packet of a collective, and the abort of one. -/
def piece1 (ranks : List Nat) : CollPacket := { src := 5, seqNo := 2, job := 7, id := 0x44, seq := 6, level := 0, index := 0, block := 0, ranks := ranks, data := [] }
def abort1 : CollAbort := { src := 5, seqNo := 8, job := 7, id := 0x44, seq := 6, detail := 1 }

theorem replied_of {s : State} {c : FabCmd} {w : Wave} {r : FabReply} (h : s.target = .reply r) (hw : s.wave c.wave = some w)
    (hc : decide ((r.src.toNat, r.seqNo.toNat) ∉ s.fabric.applied ∧ s.fabric.cmds = [c] ∧ (c.number = r.cmd ∧ c.phase = 1 ∧ nodeOf c.fa ≠ s.fabric.node ∧ c.serving = {} ∧ c.fault = none) ∧
      (w.run.status = .running ∧ w.run.evicted = false ∧ w.intr.armed = none)) = true) (q : NoTx s) : Replied s r c w := by
  obtain ⟨h0, h1, h2, h3⟩ := of_decide_eq_true hc
  exact ⟨h, h0, h1, h2, ⟨hw, h3⟩, q⟩

theorem atGet1 (ir : W64) : AtGet (asking ir) false 9 ir :=
  ⟨⟨rfl, 1, 0, rfl⟩, (fun _ h => nomatch h), ⟨.inr ⟨rfl, fun h => nomatch h⟩, .inl rfl⟩⟩

/-- FabricEvents, the rest: the first and the last port with and without its spare lane; a packet to send again; the answers of an XPUT,
of an XGET of 64 bits and of a block. -/
theorem witness_fabricReplies :
    ((0 : Nat) < 32 ∧ (31 : Nat) < 32 ∧ (∃ q, State.reset.fabric.ports[31]? = some q ∧ q.spared = false) ∧ ({ spared := true, width := 1 } : FabPort).width < 2) ∧
    (let x : SentPacket := { node := 5, op := .put, packet := { packet9 .add 0 8 with cmd := 3 } }
     ([x].find? (fun y => y.packet.seqNo.toNat = 1)) = some x ∧ put3.phase = 1 ∧ put3.number = 3) ∧
    (let s := onFabric full (some 7)
     let t := { s with fabric := { s.fabric with sentReply := [(5, reply9)], sentColl := [(5, piece1 [0])], sentAbort := [(5, abort1)] } }
     (∀ n ∈ [4, 2, 8], ∀ y ∈ t.fabric.sent, y.packet.seqNo.toNat ≠ n) ∧ t.fabric.sentReply.find? (fun y => y.2.seqNo.toNat = 4) = some (5, reply9) ∧
      (∀ n ∈ [2, 8], ∀ y ∈ t.fabric.sentReply, y.2.seqNo.toNat ≠ n) ∧
      t.fabric.sentColl.find? (fun y => y.2.seqNo.toNat = 2) = some (5, piece1 [0]) ∧ (∀ y ∈ t.fabric.sentColl, y.2.seqNo.toNat ≠ 8) ∧
      t.fabric.sentAbort.find? (fun y => y.2.seqNo.toNat = 8) = some (5, abort1)) ∧
    Applied { replied (get9 0) 0 with fabric := { (replied (get9 0) 0).fabric with applied := [(5, 4)] } } reply9.src reply9.seqNo ∧
    (Replied (repliedBy refusal9 (get9 0x0050_0000_0000_0000) 0) refusal9 (get9 0x0050_0000_0000_0000) (asking 0) ∧
      ∃ f, refusal9.fault = some f) ∧
    Replied (replied { put3 with number := 9 } 0) reply9 { put3 with number := 9 } (asking 0) ∧
    (∀ ir ∈ [(0 : W64), 1, 0x0003_0000_0000_0001], Replied (replied (get9 0x0050_0000_0000_0000) ir) reply9 (get9 0x0050_0000_0000_0000) (asking ir) ∧
      AtGet (asking ir) false (get9 0).number ir) ∧
    wordLa 0x0003_0000_0000_0001 ≠ 0 ∧ wordLa 0 = 0 ∧
    rangeRaises (replied (get9 0) 1) (dieAgent (asking 1)) .write 0x4000 8 = [] ∧ reply9.data.length = 8 ∧
    (let x : FabCmd := { put3 with number := 11, op := .signal .set, phase := 0, after := [9] }
     x.op = .signal .set ∧ x.number ≠ 9 ∧ x.wave = 0 ∧ x.serving = {} ∧ nodeOf x.fa ≠ 3) := by
  refine ⟨⟨by decide, by decide, ⟨_, rfl, rfl⟩, by decide⟩, by decide +kernel, by decide +kernel, by unfold Applied; decide +kernel,
    ⟨replied_of rfl rfl (by decide +kernel) (noTx_of (by decide +kernel)), _, rfl⟩,
    replied_of rfl rfl (by decide +kernel) (noTx_of (by decide +kernel)), ?_, by decide, by decide,
    by decide +kernel, rfl, by decide +kernel⟩
  intro ir h
  simp only [List.mem_cons, List.not_mem_nil, or_false] at h
  rcases h with rfl | rfl | rfl <;> exact ⟨replied_of rfl rfl (by decide +kernel) (noTx_of (by decide +kernel)), atGet1 _⟩

/-- A collective that holds its parts: elements of value r + k. -/
def held1 (op nrank count : Nat) : Coll :=
  { coll1 nrank with
    op := op
    count := count
    contributed := true
    parts := (List.range nrank).map (fun r =>
      { level := 0
        index := r
        block := 0
        ranks := [r]
        data := (List.range count).flatMap (fun k => leBytes 4 (BitVec.ofNat 32 (r + k)).toNat) }) }
def ending (c : Coll) (t : Target) : State :=
  let s := collecting 3
  { s with fabric := { s.fabric with colls := [c] }, target := t }

/-- CollectiveEvents: a packet that is late, one of no collective, one that is held and one that is not; results of 1 and of 3 ranks
with 1 and 16 elements; a collective that completes, and one that is aborted; packets and aborts that arrive again and for the first time. -/
theorem witness_collectiveEvents :
    (∃ x ∈ (collecting 3).ctxs, x.job = some (piece1 []).job) ∧ staleFor { collecting 3 with fabric := { (collecting 3).fabric with latest := [(7, 0x44, 6)] } } 7 0x44 6 ∧
    ¬ staleFor (collecting 3) 7 0x44 6 ∧ (collecting 3).fabric.colls = [] ∧
    (∀ r ∈ (piece1 [0]).ranks, ∃ q ∈ (held1 1 3 1).parts, r ∈ q.ranks) ∧ (∃ q ∈ (held1 1 3 1).parts, q.level = 0 ∧ q.index = 0 ∧ q.block = 0 ∧ ∀ r ∈ (piece1 [0]).ranks, r ∈ q.ranks) ∧
    (∃ r ∈ (piece1 [1]).ranks, ∀ q ∈ (held1 1 3 1).parts, q.level = 0 → q.index = 0 → q.block = 0 → r ∉ q.ranks) ∧
    Holds (held1 1 1 1) (fun r k => BitVec.ofNat 32 (r + k)) ∧ Holds (held1 3 3 16) (fun r k => BitVec.ofNat 32 (r + k)) ∧
    Holds (held1 2 3 3) (fun r k => BitVec.ofNat 32 (r + k)) ∧ (held1 2 3 3).count % (held1 2 3 3).nrank = 0 ∧ (held1 2 3 3).rank < (held1 2 3 3).nrank ∧
    Ripe (ending (held1 3 3 1) (.op 7)) (held1 3 3 1) collector ∧
    (∃ bs, (held1 3 3 1).result = some ([((held1 3 3 1).recv.toNat, bs)], false) ∧ bs.length = 12) ∧
    rangeRaises (ending (held1 3 3 1) (.op 7)) (dieAgent collector) .write 0x7000 12 = [] ∧ (held1 3 3 1).recv.toNat = 0x7000 ∧
    rangeRaises (ending (held1 3 3 1) (.collAbort abort1)) (dieAgent collector) .write 0x7000 (held1 3 3 1).recvBytes = [] ∧
    ¬ Applied (ending (held1 3 3 1) (.collAbort abort1)) abort1.src abort1.seqNo ∧
    Applied { collecting 3 with fabric := { (collecting 3).fabric with applied := [(5, 8)] } } abort1.src abort1.seqNo ∧
    ¬ Applied (collecting 3) (piece1 [0]).src (piece1 [0]).seqNo ∧ NoTx (ending (held1 3 3 1) (.collAbort abort1)) := by
  refine ⟨⟨_, List.mem_cons_self, rfl⟩, ⟨_, 6, .inl rfl, by decide +kernel, by unfold ahead; decide⟩, ?_, by decide +kernel, by decide +kernel, by decide +kernel,
    by decide +kernel, ⟨by decide +kernel, rfl⟩, ⟨by decide +kernel, rfl⟩, ⟨by decide +kernel, rfl⟩, by decide +kernel, by decide +kernel,
    ⟨rfl, by decide +kernel, ?_, ⟨rfl, rfl⟩, ⟨rfl, rfl, rfl⟩, noTx_of (by decide +kernel)⟩, ⟨_, rfl, by decide +kernel⟩, by decide +kernel, by decide +kernel,
    by decide +kernel, by unfold Applied; decide +kernel, by unfold Applied; decide +kernel, by unfold Applied; decide +kernel,
    noTx_of (by decide +kernel)⟩
  · rintro ⟨l, x, h, e, -⟩
    have h1 : (collecting 3).fabric.latest = [] := rfl
    have h2 : (collecting 3).fabric.aborted = [] := rfl
    rw [h1, h2] at h
    rcases h with rfl | rfl <;> cases e
  · intro x hx _
    have : (ending (held1 3 3 1) (.op 7)).fabric.colls = [held1 3 3 1] := rfl
    rw [this, List.mem_singleton] at hx
    exact hx

/-! #### The Owl -/

/-- A record of a kind at the head of core 0, with nothing behind it and with a full queue behind it. -/
def record9 (kind : Nat) (cause : Cause) : EventRec := { kind := kind, wave := 0, token := 0, cause := cause, data := 0, addr := 0x20000, who := 0 }
def owl (w : Wave) (e : EventRec) (behind : Nat) : State :=
  { (mapped w 0).updCore 0 (fun c => { c with events := e :: List.replicate behind (record9 1 .noCause), held := List.replicate behind (record9 3 .noCause) }) with
    target := .core 0 }
/-- Context 0 with a trap queue of 16 entries at 0x8000, TAIL and HEAD as given (R427, R428). -/
def trapQueue (s : State) (tail head : Nat) : State :=
  { s with
    mem := s.mem.writeN 0x5000_0030 (leBytes 4 tail ++ leBytes 4 head)
    ctxs := updAt s.ctxs 0 (fun c => { c with trapQ := 0x8000, trapQN := 16, descAddr := 0x5000_0000 }) }

theorem queueOpen_of {s : State} {pa tail head : Nat} (h : decide (0 < s.ctxs.length ∧ ((s.ctx 0).trapQ ≠ 0 ∧ (s.ctx 0).trapQ.toNat % 8 = 0 ∧ (s.ctx 0).trapQN = 2 ^ 4) ∧
    (tail = leNat (s.mem.readN ((s.ctx 0).descAddr + 0x30) 4) ∧ head = leNat (s.mem.readN ((s.ctx 0).descAddr + 0x34) 4)) ∧
    (tail + 2 ^ 32 - head) % 2 ^ 32 < (s.ctx 0).trapQN) = true)
    (hp : (match walk s 0 ((s.ctx 0).trapQ.toNat + 8 * (tail % (s.ctx 0).trapQN)) with
      | .ok q => q.pa == pa
      | .error _ => false) = true) : QueueOpen s 0 pa tail head := by
  obtain ⟨h1, h2, h3, h4⟩ := of_decide_eq_true h
  refine ⟨h1, ⟨h2.1, h2.2.1, 4, by decide, by decide, h2.2.2⟩, h3, h4, ?_⟩
  split at hp
  · rename_i q e
    exact ⟨q, e, by simpa using hp⟩
  · cases hp

/-- OwlRecords: a record of every kind, alone and before 191 others; a wave to be woken; telemetry that runs and that rests; the record of
a fault to service; a trap queue that is empty, one with one place left whose TAIL is about to wrap, a full one, none, and a report
that was held. -/
theorem witness_OwlRecords : (∀ k ∈ [1, 2, 3, 4, 5, 6, 7, 8, 9, 10], ∀ n ∈ [0, 191], (owl full (record9 k .noCause) n).target = .core 0 ∧ 0 < (owl full (record9 k .noCause) n).cores.length ∧
      ((owl full (record9 k .noCause) n).cluster 0).owlPaused = false ∧ ((owl full (record9 k .noCause) n).core 0).events.head? = some (record9 k .noCause)) ∧
    Takes (owl full (record9 4 .misaligned) 0) 0 (record9 4 .misaligned) ∧ 
    (let w : Wave := { full with run := { full.run with evicted := true } }
     (owl w (record9 6 .noCause) 0).wave 0 = some w ∧ w.run.evicted = true) ∧
    (let s := owl full (record9 7 .noCause) 0
     s.trust.paused = false ∧ Takes { s with trust := { s.trust with paused := true } } 0 (record9 7 .noCause)) ∧
    (let e : EventRec := { record9 4 .pageNotPresent with replay := true }
     Takes (owl full e 0) 0 e ∧ (owl full e 0).wave e.who = some full ∧ e.replay = true) ∧ (record9 4 .misaligned).replay = false ∧
    (owl full (record9 4 .misaligned) 0).wave 0 = some full ∧ 0 < (owl full (record9 4 .misaligned) 0).ctxs.length ∧
    QueueOpen (trapQueue (owl full (record9 4 .misaligned) 0) 5 5) 0 0x4000_8028 5 5 ∧
    QueueOpen (trapQueue (owl full (record9 4 .misaligned) 0) 5 (2 ^ 32 - 10)) 0 0x4000_8028 5 (2 ^ 32 - 10) ∧
    ((trapQueue (owl full (record9 4 .misaligned) 0) 5 5).ctx 0).trapHeld = [] ∧
    (5 + 2 ^ 32 - (2 ^ 32 - 11)) % 2 ^ 32 ≥ 16 ∧ ((owl full (record9 4 .misaligned) 0).ctx 0).trapQ = 0 ∧
    (let s := trapQueue { (owl full (record9 4 .misaligned) 0) with target := .ctx 0 } 5 5
     let s2 : State := { s with ctxs := updAt s.ctxs 0 (fun c => { c with trapHeld := [0x20000] }) }
     s2.target = .ctx 0 ∧ (s2.ctx 0).trapHeld = [0x20000] ∧ QueueOpen s2 0 0x4000_8028 5 5) := by
  refine ⟨by decide +kernel, ⟨rfl, by decide +kernel, rfl, rfl⟩, by decide +kernel, ⟨rfl, rfl, by decide +kernel, rfl, rfl⟩,
    ⟨⟨rfl, by decide +kernel, rfl, rfl⟩, rfl, rfl⟩, rfl, rfl, by decide +kernel, queueOpen_of (by decide +kernel) (by decide +kernel),
    queueOpen_of (by decide +kernel) (by decide +kernel), by decide +kernel, by decide, by decide +kernel, rfl, rfl,
    queueOpen_of (by decide +kernel) (by decide +kernel)⟩

theorem quiescent_of {s : State} {w : Wave} {i : Nat} (hw : s.wave i = some w) (h : decide ((∀ c ∈ s.cores, c.rings = [] ∧ c.queue = [] ∧ c.running = none) ∧
    (∀ c ∈ s.clusters, c.cards = [] ∧ c.mergeQueue = []) ∧ (∀ d ∈ s.dies, d.splitOps = []) ∧ (s.fabric.cmds = [] ∧ s.fabric.colls = []) ∧
    (w.windows = [] ∧ w.abandoned = [] ∧ frameRequests s w.place.core = []) ∧ w.place.core < s.cores.length ∧ w.place.cluster < s.clusters.length) = true) :
    Quiescent s i w := by
  obtain ⟨h1, h2, h3, h4, h5, h6⟩ := of_decide_eq_true h
  refine ⟨fun c hc => ?_, fun c hc => ?_, fun d hd => ?_, ?_, ⟨hw, h5⟩, h6⟩
  · rw [(h1 c hc).1, (h1 c hc).2.1, (h1 c hc).2.2]
    exact ⟨(fun _ h => nomatch h), (fun _ h => nomatch h), (fun _ h => nomatch h)⟩
  · rw [(h2 c hc).1, (h2 c hc).2]
    exact ⟨(fun _ h => nomatch h), (fun _ h => nomatch h)⟩
  · rw [h3 d hd]
    exact (fun _ h => nomatch h)
  · rw [h4.1, h4.2]
    exact ⟨(fun _ h => nomatch h), (fun _ h => nomatch h)⟩

/-- A wave that waits for its tokens at a blocking point in slot A, and in slot B while A is free. -/
def wait1 : Wait := { kind := .tokens 1, ticket := 0, word := 0 }
def waits1 : Wave := { full with slotA := { full.slotA with wait := some wait1 } }
def waitsB : Wave := { full with slotA := {}, slotB := { full.slotA with wait := some wait1 } }
def trap1 (c : Cause) : TrapInfo := { cause := c, eng := false, pc := 0x10000, slotB := false, orig := true, fromOp := false, resumed := false, asleep := false }
def aimed (w : Wave) (t : Target) : State := { mapped w 0 with target := t }

/-- A wave without a group is steady. -/
theorem steady_of {s : State} {i : Nat} {w : Wave} (h : s.groupOf w = none) : Steady s i w := by
  intro g hg
  rw [h] at hg
  cases hg

/-- The word of a wave that took a page fault n times before (R409). -/
def faulted (n : Nat) : Wave := { full with slotA := { full.slotA with faults := n } }
/-- A compatibility context with two waves of one group, which both wait. -/
def waits2 : Wave := { waits1 with sys := { full.sys with gkey := 7 } }
def swapped : State :=
  let s : State := { aimed waits2 (.group 0 0 7) with waves := [waits2, waits2] }
  { (s.updCluster 0 (fun c => { c with groups := [groupOf1 2] })) with ctxs := updAt s.ctxs 0 (fun c => { c with compat := true }) }

/-- WaveEvents: a window that nothing holds; a wave that has retired; a first, a 16th and a 17th fault; pre-emption of a wave that does
not wait, of ones that do and of one whose frames a pair operation holds; idle groups of one and of two members of a compatibility
context; a fault to service, of a wave and of a copy. -/
theorem witness_WaveEvents :
    (let x : Window := { slotB := false, left := 0, done := false, dests := [], srcs := [], writes := [.s 63 1], ends := .drain }
     let w : Wave := { full with windows := [x] }
     (aimed w (.window 0 0)).wave 0 = some w ∧ w.windows[0]? = some x ∧ arrayPending (aimed w (.window 0 0)) 0 = 0) ∧
    (let w : Wave := { full with run := { full.run with status := .retiring } }
     Quiescent (aimed w (.wave 0)) 0 w ∧ w.run.status = .retiring ∧ w.run.evicted = false) ∧
    (let w : Wave := { full with run := { full.run with status := .service, limit := some ({ cause := .pageNotPresent, lanes := 1 }, false, 0x10000, 0) } }
     (aimed w (.wave 0)).wave 0 = some w ∧ w.run.limit.isSome = true ∧ w.tx = none) ∧
    (∀ n ∈ [0, 15, 16], let r : Raise := { cause := .pageNotPresent, lanes := 1 }
      (mapped (faulted n) 0).wave (mapped (faulted n) 0).cur = some (faulted n) ∧ r.kind = .y ∧
        ((faulted n).slot (mapped (faulted n) 0).slotB).valid = true ∧ ((faulted n).slot (mapped (faulted n) 0).slotB).faults = n ∧
        Steady (mapped (faulted n) 0) 0 (faulted n) ∧ ¬ handled (faulted n)) ∧
    (full.run.preempt = false ∧ full.run.skid = none ∧ full.slotA.wait = none ∧ full.slotB.wait = none ∧ full.run.evicting = false) ∧
    (∀ w, w = waits1 ∨ w = waitsB → StandsAt w (.tokens 1) ∧ Quiescent (aimed w (.wave 0)) 0 w ∧ Steady (aimed w (.wave 0)) 0 w ∧
      ((aimed w (.wave 0)).core 0).eventRoom = true ∧ w.run.skid = none ∧ w.run.preempt = false) ∧
    heldByPair ((aimed waits1 (.wave 0)).updCore 0 (fun c =>
      { c with running := some { op := opOf (.mma mma1) [0], writes := [], follower := some 0, attempts := 0 } })) 0 = true ∧
    (swapped.findGroup 0 0 7 = some (groupOf1 2) ∧ (groupOf1 2).halt = 0 ∧ ((groupOf1 2).members.map (·.wave)).Nodup ∧
      (swapped.ctx 0).compat = true ∧ (groupOf1 2).rowWait = [] ∧
      ∀ m ∈ (groupOf1 2).members, Idle swapped m.wave waits2 (.tokens 1) ∧ swapped.groupOf waits2 = some (groupOf1 2)) ∧
    (let w : Wave := { waits1 with sys := { full.sys with gkey := 7 } }
     let s := aimed w (.group 0 0 7)
     let s2 : State := { (s.updCluster 0 (fun c => { c with groups := [groupOf1 1] })) with ctxs := updAt s.ctxs 0 (fun c => { c with compat := true }) }
     s2.findGroup 0 0 7 = some (groupOf1 1) ∧ (groupOf1 1).members = [member 0] ∧ (s2.ctx 0).compat = true ∧ s2.wave 0 = some w ∧
      StandsAt w (.tokens 1) ∧ Quiescent s2 0 w) ∧
    (let w : Wave := { full with run := { full.run with status := .service, trap := some (trap1 .pageNotPresent) } }
     let s := aimed w (.owner (.wave 0))
     s.wave 0 = some w ∧ w.run.limit = none ∧ Settled w.slotA ∧ Settled w.slotB ∧ w.slotA.valid = true ∧ s.groupOf w = none ∧
      (s.ctx 0).trapQ = 0 ∧ 0 < s.ctxs.length ∧ w.abandoned = [] ∧ (walk s 0 w.sys.priv.toNat).isOk = true ∧ w.sys.priv.toNat % 4096 = 0) ∧
    (let e : CopyEntry := { entry1 with serving := { entry1.serving with waiting := true } }
     let s := (aimed full (.owner (.copy 0 0))).updCore 0 (fun c => { c with rings := [{ ring1 0 with entries := [e] }] })
     s.target = .owner (.copy 0 0) ∧ 0 < s.cores.length ∧ (s.core 0).rings[0]? = some { ring1 0 with entries := [e] } ∧ e.started = false ∧
      e.serving.waiting = true) := by
  refine ⟨by decide +kernel, ⟨quiescent_of rfl (by decide +kernel), rfl, rfl⟩, ⟨rfl, rfl, rfl⟩, ?_, ⟨rfl, rfl, rfl, rfl, rfl⟩, ?_, by decide +kernel,
    ⟨by decide +kernel, rfl, by decide, by decide +kernel, rfl, ?_⟩,
    ⟨by decide +kernel, rfl, by decide +kernel, rfl, ⟨rfl, wait1, rfl, .inl ⟨rfl, rfl⟩⟩, quiescent_of rfl (by decide +kernel)⟩,
    ⟨rfl, rfl, .inr ⟨rfl, by decide +kernel⟩, .inl rfl, rfl, by decide +kernel, by decide +kernel, by decide +kernel, rfl, by decide +kernel, by decide +kernel⟩, by decide +kernel⟩
  · intro n hn
    simp only [List.mem_cons, List.not_mem_nil, or_false] at hn
    rcases hn with rfl | rfl | rfl <;> exact ⟨rfl, rfl, rfl, rfl, steady_of rfl, by unfold handled; decide⟩
  · rintro w (rfl | rfl)
    · exact ⟨⟨rfl, wait1, rfl, .inl ⟨rfl, rfl⟩⟩, quiescent_of rfl (by decide +kernel), steady_of rfl, by decide +kernel, rfl, rfl⟩
    · exact ⟨⟨rfl, wait1, rfl, .inr ⟨rfl, rfl, rfl⟩⟩, quiescent_of rfl (by decide +kernel), steady_of rfl, by decide +kernel, rfl, rfl⟩
  · have st : Steady swapped 0 waits2 ∧ Steady swapped 1 waits2 := by
      constructor <;> (intro g h; injection h with h; subst h; decide +kernel)
    intro m hm
    have hm : m = member 0 ∨ m = member 1 := by simpa [groupOf1, List.range, List.range.loop] using hm
    rcases hm with rfl | rfl
    · exact ⟨⟨⟨rfl, rfl, rfl, rfl⟩, ⟨⟨rfl, wait1, rfl, .inl ⟨rfl, rfl⟩⟩, .inl rfl⟩, quiescent_of rfl (by decide +kernel), st.1⟩, rfl⟩
    · exact ⟨⟨⟨rfl, rfl, rfl, rfl⟩, ⟨⟨rfl, wait1, rfl, .inl ⟨rfl, rfl⟩⟩, .inl rfl⟩, quiescent_of rfl (by decide +kernel), st.2⟩, rfl⟩

/-! #### Errors, dispatch, launches -/

/-- Every unit of a core but its control structures. -/
def eccUnits : List EccUnit := [.registerFile, .scratchpad, .tiles, .frames, .edges, .tagTable, .ruleSlots]
def pairOf (draining : Bool) (spares : Nat) : State :=
  let s : State := { State.reset with target := .pair 3 31 }
  { s with
    cores := s.cores.set 254 { s.core 254 with draining := draining }
    dies := s.dies.set 3 { s.die 3 with sparePairs := spares } }

theorem empty_of {s : State} {c : Nat} (h : decide (c < s.cores.length ∧ s.waves = [] ∧ ((s.core c).running = none ∧ (s.core c).queue = [] ∧ (s.core c).rings = []) ∧
    ∀ k ∈ s.clusters, k.cards = []) = true) : Claims.Empty s c := by
  obtain ⟨h1, h2, h3, h4⟩ := of_decide_eq_true h
  refine ⟨h1, ?_, ⟨h3.1, h3.2.1, ?_⟩, ?_⟩
  · rw [h2]; exact (fun _ h => nomatch h)
  · rw [h3.2.2]; exact (fun _ h => nomatch h)
  · intro k hk
    rw [h4 k hk]; exact (fun _ h => nomatch h)

/-- ErrorEvents and PairRetirement: the last unit of each structure, on the last core, with room and without; a core to fence, empty and with a wave; the
last line of memory and the last channel, fresh; a clock above its floor; a pair to drain, and one that has drained with one
spare pair and with none; a pair of which a core has failed, and one with a wave. -/
theorem witness_ErrorEvents :
    (∀ u ∈ eccUnits, ({ State.reset with target := .ecc 255 u (structureSize u - 1) } : State).cores.length = 256 ∧ u ≠ .control ∧
      structureSize u - 1 < structureSize u) ∧
    (State.reset.core 255).events = [] ∧ sharedRoom (State.reset.core 255) ∧ ¬ sharedRoom { State.reset.core 255 with events := List.replicate 192 (record9 1 .noCause) } ∧
    ((State.reset.core 255).fenced = false ∧ (∀ k ∈ State.reset.cores, k.running = none) ∧ State.reset.waves = []) ∧
    ((aimed full (.core 0)).waves = [full] ∧ full.place.core = 0 ∧ full.run.lastSlotB = false ∧ (aimed full (.core 0)).cores.length = 256) ∧
    2 ^ 33 - 1 < 2 ^ 33 ∧ (15, 383) ∉ State.reset.telemetry.channels ∧ (State.reset.telemetry.channels.filter (fun e => e.1 = 15)).length < 16 ∧
    State.reset.dies.length = 4 ∧ 75 < (State.reset.die 3).clockMHz ∧
    ((pairOf false 1).core 254).draining = false ∧ ((pairOf false 1).core 255).fenced = false ∧ ((pairOf true 1).core 254).draining = true ∧
    Claims.Empty (pairOf true 1) 254 ∧ Claims.Empty (pairOf true 1) 255 ∧ Claims.Empty (pairOf true 0) 254 ∧ Claims.Empty (pairOf true 0) 255 ∧
    0 < ((pairOf true 1).die 3).sparePairs ∧ ((pairOf true 0).die 3).sparePairs = 0 ∧
    (State.reset.trust.paused = false ∧ ({ State.reset with trust := { State.reset.trust with paused := true } } : State).trust.paused = true) ∧
    (let s : State := { pairOf false 1 with cores := State.reset.cores.set 255 { State.reset.core 255 with fenced := true } }
     (s.core 254).draining = false ∧ (s.core 255).fenced = true) ∧
    (let w : Wave := { full with place := { full.place with core := 254, cluster := 31 } }
     let s : State := { pairOf false 1 with waves := [w] }
     s.wave 0 = some w ∧ w.run.status = .running ∧ w.run.evicted = false ∧ w.run.evicting = false ∧ w.slotA.wait = none ∧
      w.slotB.wait = none ∧ (s.core 254).fenced = false ∧ (s.core 255).fenced = false) := by
  refine ⟨by decide +kernel, by decide +kernel, ?_, ?_, by decide +kernel, by decide +kernel, by decide, by decide +kernel, by decide +kernel, by decide +kernel, by decide +kernel,
    by decide +kernel, by decide +kernel, by decide +kernel, empty_of (by decide +kernel), empty_of (by decide +kernel), empty_of (by decide +kernel), empty_of (by decide +kernel),
    by decide +kernel, by decide +kernel, by decide +kernel, by decide +kernel, by decide +kernel⟩ <;> unfold sharedRoom <;> decide +kernel

/-- A record that is ready, of the least and of the greatest footprint, on die 3, and a room that is empty and one whose partitions are full. -/
def task1 (foot : W32) (passed : Nat) : Task :=
  { entry := 0x8000, args := 0x99, home := 0x1000, foot := foot, launch := 5, ready := [], isReady := true, ctx := 0, depth := 0, near := none
    passed := passed, reserving := [], number := 4 }
def room1 (waves : Nat) : Room := { usable := true, parts := List.replicate 4 (waves, waves), windows := [(0, 4096)], frames := 0, edges := 0, nums := [0] }
def dispatching (t : Task) : State :=
  let s : State := { State.reset with target := .die 3 }
  { s with dies := s.dies.set 3 { s.die 3 with queue := [t] } }
def leastFoot : W32 := 0
def mostFoot : W32 := BitVec.ofNat 32 (128 * 2 ^ 5 + 31)

theorem oneRecord_of {s : State} {t : Task} (ht : s.target = .die 3) (h : decide ((s.dies.length = 4 ∧ s.cores.length = 256) ∧ ((s.die 3).queue = [t] ∧ (s.die 3).pipes = []) ∧
    (t.isReady = true ∧ t.home.getLsbD 62 = false ∧ t.reserving = [] ∧ t.passed < 64 ∧ t.near = none) ∧ s.waves = [] ∧
    (footprint t.foot).bad = false ∧ ∀ c ∈ s.ctxs, c.live = false ∨ (c.descAddr = 0 ∧ s.dev.ctxEn = false)) = true) : OneRecord s 3 t := by
  obtain ⟨h1, h2, h3, h4, h5, h6⟩ := of_decide_eq_true h
  exact ⟨ht, ⟨by decide, h1⟩, h2, h3, h4, h5, h6⟩

/-- DispatchEvents: a task of no scratchpad and of all of it; cores with and without room; a record of the least and of the greatest
footprint on core 192; a stage with one item whose HEAD is about to wrap; an evicted wave that may come back, with and without its
window; a record passed 64 times. -/
theorem witness_DispatchEvents :
    (∀ x ∈ [0, 2 ^ 19], let a : Ask := { units := 32, scratch := x, frames := 32, edges := 8 }
      a.window = none ∧ a.scratch % 4096 = 0 ∧ a.scratch ≤ 2 ^ 19) ∧
    ((room1 0).place { units := 32, scratch := 4096, frames := 32, edges := 8 }).isSome = true ∧
    ((room1 16).place { units := 1, scratch := 0, frames := 0, edges := 0 }).isSome = false ∧
    [192, 193].Pairwise (· < ·) ∧ chooseCore State.reset [192, 193] { units := 1, scratch := 0, frames := 0, edges := 0 } ≠ none ∧
    chooseCore State.reset [192, 193] { units := 33, scratch := 0, frames := 0, edges := 0 } = none ∧
    OneRecord (dispatching (task1 leastFoot 0)) 3 (task1 leastFoot 0) ∧ OneRecord (dispatching (task1 mostFoot 63)) 3 (task1 mostFoot 63) ∧
    ((dispatching (task1 0 0)).core 192).fenced = false ∧ ((dispatching (task1 0 0)).core 192).draining = false ∧
    (let q : PipeQueue := queue1 (2 ^ 32 - 1) 0 false
     let p : Pipe := { pipe2 q q with queues := [q] }
     let s : State := { State.reset with target := .die 3, dies := State.reset.dies.set 3 { State.reset.die 3 with pipes := [p] } }
     (s.die 3).queue = [] ∧ (s.die 3).pipes = [p] ∧ p.near = none ∧ (footprint q.foot).bad = false ∧ q.head ≠ q.tail ∧ q.live = 0 ∧ q.maxt = 1 ∧
      (s.core 192).fenced = false) ∧
    (∀ k ∈ [true, false], let w : Wave := { full with
       place := { full.place with core := 192, cluster := 24 }
       run := { full.run with evicted := true, wakeStored := true, windowKept := k, wake := if k then none else some (.tokens 1) } }
     let s : State := { State.reset with target := .die 3, waves := [w] }
     s.wave 0 = some w ∧ s.clusters.length = 32 ∧ w.place.core / 64 = 3 ∧ w.place.cluster = w.place.core / 8 ∧
      (∀ j ∈ s.ctxs, j.live = false ∨ (j.descAddr = 0 ∧ s.dev.ctxEn = false)) ∧ w.run.status = .running ∧ w.place.regs ≤ 2048 ∧ w.saved = {}) ∧
    (task1 0 64).isReady = true ∧ (dispatching (task1 0 64)).dies.length = 4 ∧ ((dispatching (task1 0 64)).die 3).queue = [task1 0 64] :=
  ⟨by decide, by decide +kernel, by decide +kernel, by decide, by decide +kernel, by decide +kernel,
    oneRecord_of rfl (by decide +kernel), oneRecord_of rfl (by decide +kernel), by decide +kernel, by decide +kernel, by decide +kernel, by decide +kernel, by decide +kernel, by decide +kernel, by decide +kernel⟩

/-- The evicted wave is quiescent, and its condition holds. -/
theorem witness_comesBack : let w : Wave := { full with
       place := { full.place with core := 192, cluster := 24 }
       run := { full.run with evicted := true, wakeStored := true, wake := some (.tokens 1) } }
     Quiescent { State.reset with target := .die 3, waves := [w] } 0 w ∧ allClear w 1 := by
  refine ⟨quiescent_of rfl (by decide +kernel), ?_⟩
  unfold allClear
  decide +kernel

/-- Context 1, live, with a record in its port, and with a launch that has drained. -/
def doorway (b : List Byte) (port : Port) : State :=
  let s : State := { mapped full 0 with target := .ctx 0, waves := [] }
  { s with ctxs := updAt s.ctxs 0 (fun c => { c with live := true, launches := [{ launch := 5, killed := true }], port := { port with record := Cells.fill 0 [] 0 b } }) }

theorem drained_of {s : State} {c : Nat} {l : W32} (h : decide (s.waves = [] ∧ (∀ d ∈ s.dies, d.queue = [] ∧ d.pipes = [])) = true) : Drained s c l := by
  obtain ⟨h1, h2⟩ := of_decide_eq_true h
  refine ⟨?_, ?_, ?_⟩
  · rw [h1]; exact (fun _ h => nomatch h)
  · intro d hd
    rw [(h2 d hd).1]; exact (fun _ h => nomatch h)
  · intro d hd
    rw [(h2 d hd).2]; exact (fun _ h => nomatch h)

/-- LaunchEvents: a launch that has drained, without a ring, with the least and with the greatest one, here and in host memory, with
the pending count at its limit; a count that is reached and a window that ends; a record that is taken and one that is refused. -/
theorem witness_LaunchEvents :
    (∀ p ∈ [({} : Port), { intRing := 0x8000_0000, intSize := 16 }, { intRing := 2 ^ 51, intSize := 2048, window := 1, count := 3, pending := 3 }],
      let s : State := { doorway [] p with target := .launch 0 5 }
      (s.ctx 0).launches.find? (fun y => y.launch = 5) = some { launch := 5, killed := true } ∧ (p.window ≠ 0 → p.pending ≤ p.count) ∧
        (s.waves = [] ∧ (∀ d ∈ s.dies, d.queue = [] ∧ d.pipes = []))) ∧
    Drained { doorway [] {} with target := .launch 0 5 } 0 5 ∧
    (let p : Port := { window := 1, count := 0, pending := 1 }
     ((doorway [] p).ctx 0).port.window ≠ 0 ∧ ((doorway [] p).ctx 0).port.count + 1 ≤ ((doorway [] p).ctx 0).port.pending) ∧
    ((doorway [] {}).ctx 0).live = true ∧ (State.reset.ctx 255).live = false ∧
    (let s := doorway (leBytes 8 0x8000 ++ leBytes 8 0 ++ leBytes 8 0x1000 ++ leBytes 40 1) {}
     recordRaises s { ctx := 0, user := false, core := none, wave := none } 1 (Cells.slice 0 (s.ctx 0).port.record 0 64) = [] ∧
      (s.die (homeOf s 0 (fieldAt (Cells.slice 0 (s.ctx 0).port.record 0 64) 0x10 8 % 2 ^ 56) 0).1).queue = [] ∧
      (homeOf s 0 (fieldAt (Cells.slice 0 (s.ctx 0).port.record 0 64) 0x10 8 % 2 ^ 56) 0).1 < s.dies.length) ∧
    (let s := doorway (leBytes 8 0x8001 ++ leBytes 56 0) {}
     (settleRaises (recordRaises s { ctx := 0, user := false, core := none, wave := none } 1 (Cells.slice 0 (s.ctx 0).port.record 0 64))).isSome = true) ∧
    4096 ≤ (List.replicate 4096 (task1 0 0)).length := by
  refine ⟨by decide +kernel, drained_of (by decide +kernel), by decide +kernel, by decide +kernel, by decide +kernel, by decide +kernel, by decide +kernel, ?_⟩
  exact Nat.le_of_eq List.length_replicate.symm

/-! #### The host, the mailbox, words and steps -/

/-- A reset package with a target; one whose contexts may be made live, and one whose context 255 is. -/
def hosted (t : Target) (en live : Bool) : State :=
  let s : State := { State.reset with target := t }
  { s with
    dev := { s.dev with ctxEn := en }
    ctxs := s.ctxs.set 255 { s.ctx 255 with live := live } }
def toPort (c k : Nat) (x : W64) : State := hosted (.register (0x100000 + 0x1000 * c + k) 8 x) true true

theorem ownGroups_of {s : State} {c : Nat} (h : s.clusters.all (fun k => k.groups.isEmpty) = true) : OwnGroups s c := by
  intro k hk g hg
  have := List.all_eq_true.1 h k hk
  rw [List.isEmpty_iff] at this
  rw [this] at hg
  cases hg

/-- HostEvents: recovery; registers at reset; a context that is refused, one that becomes live, one that retires and one of which a window remains; a kill with and
without its bit; every register and every place of a port, of the first and the last context; accesses to the ends of memory. -/
theorem witness_HostEvents :
    (∀ t ∈ [Target.ctx 255, .ctxValue 255 1, .register 0x008 8 1, .register 0x400 1 0, .memory (2 ^ 52 - 8) 8 true 1],
      let s : State := { hosted t true true with trust := { State.reset.trust with recovery := true } }
      s.trust.recovery = true ∧ s.target = t ∧ inMap (2 ^ 52 - 8) = true) ∧
    (State.reset.trust.recovery = false ∧ FieldsFit State.reset ∧ State.reset.ctxs.length = 256 ∧ (State.reset.ctx 255).live = false ∧
      ((hosted (.ctx 255) true true).ctx 255).live = true ∧ FieldsFit (hosted (.ctx 255) true true)) ∧
    (OwnGroups (hosted (.ctxValue 255 1) true true) 255 ∧ ¬ Remains (hosted (.ctx 255) true false) 255) ∧
    (hosted (.register 0x102 2 5) false false).dev.mbBusy = false ∧
    ((hosted (.ctx 255) true false).dev.ctxEn = true ∧ ((hosted (.ctx 255) true false).ctx 255).live = false ∧ (hosted (.ctx 255) true false).ctxs.length = 256 ∧
      (hosted (.ctx 255) false false).dev.ctxEn = false) ∧
    (((hosted (.ctx 255) true true).ctx 255).live = true ∧ ¬ Remains (hosted (.ctx 255) true true) 255) ∧
    (let s := hosted (.ctx 255) true true
     Remains { s with ctxs := s.ctxs.set 255 { s.ctx 255 with windows := [window9 0] } } 255) ∧
    ((1 : BitVec 8).getLsbD 0 = true ∧ (2 : BitVec 8).getLsbD 0 = false ∧ (hosted (.ctxValue 255 1) true true).fabric.colls = []) ∧
    (∀ off ∈ [0x008, 0x010, 0x018, 0x100, 0x200, 0x3F8], let s := hosted (.register off 8 1) false false
      s.trust.recovery = false ∧ (s.ctx 0).live = false ∧ s.dev.ctxEn = false ∧ s.dev.mbBusy = false ∧ s.ctxs.length = 256) ∧
    (∃ e ∈ commands, e.2.1 = 0x22) ∧ ¬ (∃ e ∈ commands, e.2.1 = 6) ∧
    (∀ k ∈ [0, 0x38, 0x40, 0x48, 0x50, 0x58, 0x60, 0x70], ((toPort 255 k 1).ctx 255).live = true ∧ (toPort 255 k 1).trust.recovery = false) ∧
    (1 : W64).getLsbD 0 = true ∧ inMap 0 = true ∧ inMap (2 ^ 51) = true ∧ inMap (2 ^ 52 - 8) = true ∧ (2 ^ 52 - 8) % 8 = 0 := by
  have remains : ∀ b, ¬ Remains (hosted (.ctx 255) true b) 255 := by
    intro b
    have h : (hosted (.ctx 255) true b).waves = [] ∧ (∀ d ∈ (hosted (.ctx 255) true b).dies, d.queue = [] ∧ d.pipes = []) ∧
        (hosted (.ctx 255) true b).fabric.colls = [] ∧ ((hosted (.ctx 255) true b).ctx 255).windows = [] := by cases b <;> decide +kernel
    obtain ⟨h1, h2, h3, h4⟩ := h
    rintro (⟨w, hw, -⟩ | ⟨d, hd, t, ht, -⟩ | ⟨d, hd, p, hp, -⟩ | ⟨x, hx, -⟩ | h)
    · rw [h1] at hw; cases hw
    · rw [(h2 d hd).1] at ht; cases ht
    · rw [(h2 d hd).2] at hp; cases hp
    · rw [h3] at hx; cases hx
    · exact h h4
  refine ⟨?_, ⟨rfl, ⟨by decide +kernel, by decide +kernel, by decide +kernel⟩, by decide +kernel, by decide +kernel, by decide +kernel,
      ⟨by decide +kernel, by decide +kernel, by decide +kernel⟩⟩,
    ⟨ownGroups_of (by decide +kernel), remains _⟩, rfl, by decide +kernel, ⟨by decide +kernel, remains _⟩, .inr (.inr (.inr (.inr (by decide +kernel)))), by decide +kernel, by decide +kernel, by decide, by decide, by decide +kernel,
    by decide, by decide, by decide, by decide, by decide⟩
  intro t _
  exact ⟨rfl, rfl, by decide⟩

/-- A command that runs in the mailbox, with a payload. -/
def mailbox (e : Instr × Nat × List (Nat × Nat)) (b : List Byte) (recovery : Bool) : State :=
  let s := State.reset
  { s with
    dev := { s.dev with mbBusy := true, mbCmd := e.2.1, mbLen := 8, mbData := Cells.fill 0 [] 0 (b.take 8) }
    trust := { s.trust with recovery := recovery } }
def payload (b : List Byte) : List Byte := b ++ List.replicate (512 - b.length) 0

theorem inMailbox_of {s : State} {e : Instr × Nat × List (Nat × Nat)} {b : List Byte} (h : decide (e ∈ commands ∧ (s.dev.mbBusy = true ∧ s.dev.mbCmd = e.2.1) ∧
    b = payloadOf s ∧ (e.1 = .bindjobBind → fieldAt b 4 4 ≠ 0) ∧ (e.1 = .bindjobUnbind → fieldAt b 4 4 = 0)) = true) : InMailbox s e b :=
  ⟨(of_decide_eq_true h).1, (of_decide_eq_true h).2.1, (of_decide_eq_true h).2.2.1, (of_decide_eq_true h).2.2.2⟩

/-- The payload of a command with 1 in its first byte, and in a word where it binds. -/
def payload1 (e : Instr × Nat × List (Nat × Nat)) : List Byte := payload (leBytes 4 1 ++ (if e.1 = .bindjobBind then leBytes 4 1 else []))

/-- MailboxAndBoot: every command, outside and in recovery; a byte that is not listed, and a length out of range; a cluster whose
firmware is replaced, the last one and one before others; and the package before it boots. -/
theorem witness_MailboxAndBoot :
    (∀ e ∈ commands, ∀ r ∈ [true, false], payload1 e = payloadOf (mailbox e (payload1 e) r)) ∧
    (∀ e ∈ commands, (mailbox e (payload1 e) false).trust.recovery = false ∧ (mailbox e (payload1 e) false).ctxs.length = 256 ∧
      (mailbox e (payload1 e) false).trust.mr.length = 8 ∧ (mailbox e (payload1 e) false).trust.svn.length = 5 ∧ (mailbox e (payload1 e) false).trust.fused.length = 5) ∧
    InMailbox (mailbox (.setnode, 1, [(0, 2)]) (payload1 (.setnode, 1, [(0, 2)])) true) (.setnode, 1, [(0, 2)]) (payload1 (.setnode, 1, [(0, 2)])) ∧
    ¬ inRecovery (.setnode, 1, [(0, 2)]) (payload1 (.setnode, 1, [(0, 2)])) ∧ inRecovery (.fwstage, 0x20, [(0, 1), (8, 16)]) (payload1 (.fwstage, 0x20, [])) ∧
    badPayload { State.reset with dev := { State.reset.dev with mbLen := 513 } } (.setnode, 1, []) [] ∧
    badPayload State.reset (.setnode, 1, [(0, 2)]) (payload [0, 0, 1]) ∧
    (let s : State := { State.reset with target := .cluster 31, clusters := State.reset.clusters.set 31 { State.reset.cluster 31 with owlPaused := true } }
     (s.cluster 31).owlPaused = true ∧ s.trust.updating = [] ∧ s.clusters.length = 32) ∧
    State.reset.trust.booted = false ∧ State.reset.trust.recovery = false ∧ TrustForm State.reset ∧ State.reset.ctxs.length = 256 := by
  refine ⟨by decide +kernel, by decide +kernel, inMailbox_of (by decide +kernel), by unfold inRecovery; decide +kernel, by unfold inRecovery; decide +kernel,
    .inl (by decide), .inr (by decide +kernel), by decide +kernel, rfl, rfl, ⟨by decide +kernel, by decide +kernel, by decide +kernel⟩, by decide +kernel⟩

/-- MailboxAndBoot: FWACTIVATE with an image of the Theique's and of the Owls', before the pause and in it; none for stage 2. -/
theorem witness_activates : ∀ p ∈ [true, false], ∀ c ∈ [1, 3], let e : Instr × Nat × List (Nat × Nat) := (.fwactivate, 0x21, [(0, 1)])
    let b := payload (leBytes 1 c)
    let s : State := { mailbox e b false with trust := { State.reset.trust with staged := [(1, [7]), (3, [9])], paused := p } }
    InMailbox s e b ∧ TrustForm s ∧ fieldAt b 0 1 = c ∧ (∀ k ∈ s.clusters, k.owlPaused = false) ∧ s.clusters.length = 32 ∧
      (∃ im, s.trust.staged.find? (fun y => y.1 = c) = some (c, im)) ∧ ∀ y ∈ s.trust.staged, y.1 ≠ 2 := by
  intro p hp c hc
  simp only [List.mem_cons, List.not_mem_nil, or_false] at hp hc
  rcases hp with rfl | rfl <;> rcases hc with rfl | rfl <;> exact ⟨inMailbox_of (by decide +kernel),
    ⟨by decide +kernel, by decide +kernel, by decide +kernel⟩, by decide +kernel, by decide +kernel, by decide +kernel, ⟨_, rfl⟩, by decide⟩

/-- The two ends of the boot sequence, where the boot images are good and where they are not: that is a free value. -/
theorem witness_boot : ((∀ k, Config.bootImageOk k = true) → (∀ k, (Config.fusedMinimumSvn k).toNat ≤ (Config.bootImageSvn k).toNat) →
      (bootsFrom State.reset [1, 2, 3, 4, 5]).2 = true) ∧
    ((∀ k, Config.bootImageOk k = false) → (bootsFrom State.reset [1, 2, 3, 4, 5]).2 = false) := by
  constructor
  · intro h m
    have f : ∀ (s : State) k d v, (Claims.started s k d v).trust.fused = s.trust.fused := fun _ _ _ _ => rfl
    have r : ∀ k < 5, State.reset.trust.fused.getD k 0 = Config.fusedMinimumSvn (k + 1) := by
      intro k hk
      match k, hk with
      | 0, _ | 1, _ | 2, _ | 3, _ | 4, _ => rfl
    have z : ∀ (s : State), s.trust.fused = State.reset.trust.fused → ∀ k < 5, (s.trust.fused.getD k 0).toNat ≤ (Config.bootImageSvn (k + 1)).toNat := by
      intro s e k hk
      rw [e, r k hk]; exact m _
    simp only [bootsFrom, h, true_and]
    rw [if_pos (z _ rfl 0 (by decide)), if_pos (z _ (f _ _ _ _) 1 (by decide)), if_pos (z _ (by rw [f, f]) 2 (by decide)),
      if_pos (z _ (by rw [f, f, f]) 3 (by decide)), if_pos (z _ (by rw [f, f, f, f]) 4 (by decide))]
  · intro h
    simp [bootsFrom, h]

/-- IllegalWords: a word of each form, the first and last opcode of the map, one beside it; privileged words; a word that does not decode. -/
theorem witness_IllegalWords : formOf 0xC000_0000_0000_0000 = 3 ∧ formOf 0 = 0 ∧ formOf 0x8000_0000_0000_0000 = 2 ∧
    ¬ allocated 0 0x002 ∧ ¬ allocated 0 0x3FF ∧ ¬ allocated 2 0x000 ∧ ¬ allocated 2 0x388 ∧ allocated 0 0 ∧ allocated 0 0x38B ∧ allocated 2 0x002 ∧ allocated 2 0x387 ∧
    privileged 0x38B0_0000_0000_0000 = some 1 ∧ privileged 0x0170_0001_1000_0000 = some 2 ∧ privileged 0x0180_0080_0020_0000 = some 2 ∧
    privileged 0x0170_0001_0FE0_0000 = none ∧ (∃ x, decodeWord full.sysMode 0xC000_0000_0000_0000 = .error x) ∧
    Runs (alone full 0xC000_0000_0000_0000) full := by
  refine ⟨by decide, by decide, by decide, by unfold allocated; decide, by unfold allocated; decide, by unfold allocated; decide, by unfold allocated; decide,
    by unfold allocated; decide, by unfold allocated; decide, by unfold allocated; decide, by unfold allocated; decide, by decide, by decide, by decide, by decide, ⟨_, rfl⟩, ⟨rfl, rfl⟩⟩

/-- EncodeDecodes: a plain word and a privileged one. -/
theorem witness_EncodeDecodes : Instr.wellFormed 0 .nop = true ∧ (∃ w, encode 0 .nop = some w) ∧ privilegeDetail .nop = none ∧
    Instr.wellFormed 0 (.tlbinv all 4 5) = true ∧ (∃ w, encode 0 (.tlbinv all 4 5) = some w) ∧ privilegeDetail (.tlbinv all 4 5) = some 1 :=
  ⟨by decide +kernel, ⟨_, rfl⟩, rfl, by decide +kernel, ⟨_, rfl⟩, rfl⟩

/-- A state whose next step fetches a word, and the same with the wave on a page that is absent. -/
def fetching (w : Nat) : State := State.reset.withFetchWord 64 w
def lost : State := { fetching 0 with waves := [{ full with slotA := Slot.running 0x8000000000 0xFFFFFFFF none }] }

/-- StepRunsDecodedWord: a word that decodes and has its registers, one that names a register of another wave, one that does not decode,
a fetch that fails; an input, an event of the machine, and nothing to do. -/
theorem witness_StepRunsDecodedWord :
    (nextActor (fetching 0) = some (.word 0 false) ∧ (fetching 0).inputs = [] ∧ (fetching 0).wave 0 = some full) ∧
    (∀ w ∈ [0, 0xC000_0000_0000_0000], (match fetchWord { fetching w with fresh := (fetching w).fresh + 1 } 0 full full.slotA.pc full.slotA.mask with
      | .ok x => x.1 == BitVec.ofNat 64 w
      | .error _ => false) = true) ∧
    lacksRegister full 0 .nop = false ∧ lacksRegister full 0xC000_0000_0000_0000 .illegalWord = false ∧
    lacksRegister { full with place := { full.place with regs := 64 } } 0 (.vmov ⟨all, .i32, 64, 4, 0⟩) = true ∧
    (match fetchWord { lost with fresh := lost.fresh + 1 } 0 { full with slotA := Slot.running 0x8000000000 0xFFFFFFFF none } 0x8000000000 0xFFFFFFFF with
      | .ok _ => false
      | .error rs => (settleRaises rs).isSome) = true ∧
    isEvent .resetBoot = true ∧ nextActor { State.reset with trust := { State.reset.trust with booted := true }, waves := [] } = none ∧
    (match nextActor (({ State.reset with trust := { State.reset.trust with booted := true } } : State).updCore 0 (fun c => { c with events := [record9 1 .noCause] })) with
      | some (.event e) => isEvent e.name
      | _ => false) = true :=
  ⟨by decide +kernel, by decide +kernel, by decide +kernel, by decide +kernel, by decide +kernel, by decide +kernel, by decide, by decide +kernel, by decide +kernel⟩

/-- Another wave's serialised transaction that wrote the line at address 0x4000. -/
def serialLine : Wave :=
  let t := openedTx false full.slotA 0 0x18000 true 0 true
  { full with
    tx := some { t with writes := t.writes.add (0x4000_4000 / 64) }
    place := { full.place with num := 1, part := 1 } }
def besideSerial : State := { mapped (full.setS 4 0x4000) 0 with waves := [full.setS 4 0x4000, serialLine] }

/-- Executes: a word that breaks no transaction, and one that would break a serialised one. -/
theorem witness_Executes : (match exec .nop besideSerial with
      | .next t => breaksSerial besideSerial t
      | _ => true) = false ∧ (match exec (.chwait all 4 5) besideSerial with
      | .next t => breaksSerial besideSerial t
      | _ => false) = true := by decide +kernel

/-- MemoryStaysCanonical and StorageStaysCanonical: a word that stores to memory, from a state in the form, and a next state. -/
theorem storageOk_fetching : StorageOk (fetching 0) :=
  ⟨by decide +kernel, by decide +kernel, by decide +kernel, ⟨by decide +kernel, by decide +kernel, by decide +kernel⟩⟩
theorem witness_MemoryStaysCanonical : (fetching 0).mem.wf = true ∧ (match step (fetching 0) with
    | .next _ => true
    | _ => false) = true := by decide +kernel
theorem witness_StorageStaysCanonical : StorageOk (fetching 0) ∧ (match step (fetching 0) with
    | .next _ => true
    | _ => false) = true := ⟨storageOk_fetching, by decide +kernel⟩

end Sys2Proof.Tests
end

namespace Sys2Proof.Proofs

open Sys2Proof Sys2Proof.Machine Sys2Proof.Claims

/-! ### Bits of lanes and of gathered flags -/

theorem getLsbD_laneBit {l : Nat} (hl : l < 32) (j : Nat) : (laneBit l).getLsbD j = decide (j = l) := by
  rw [laneBit, BitVec.getLsbD_ofNat, Nat.testBit_two_pow, Bool.eq_iff_iff]
  simp only [Bool.and_eq_true, decide_eq_true_eq]
  omega

theorem one_shiftLeft_eq_laneBit (l : Nat) : (1 : W32) <<< l = laneBit l := by
  apply BitVec.eq_of_toNat_eq
  simp [laneBit, BitVec.toNat_shiftLeft, Nat.shiftLeft_eq]

theorem eq_zero_of_getLsbD {m : W32} (h : ∀ b, ¬ m.getLsbD b = true) : m = 0 :=
  BitVec.eq_of_getLsbD_eq (fun b _ => by simpa using h b)

theorem mem_lanesOf {m : W32} {l : Nat} : l ∈ lanesOf m ↔ m.getLsbD l = true := by
  simp only [lanesOf, List.mem_filter, List.mem_range, and_iff_right_iff_imp]
  exact fun h => BitVec.lt_of_getLsbD h

theorem lt_of_mem_lanesOf {m : W32} {l : Nat} (h : l ∈ lanesOf m) : l < 32 := BitVec.lt_of_getLsbD (mem_lanesOf.1 h)

/-- A bit of what a fold gathers from the elements that meet a condition. -/
theorem getLsbD_foldl_or_if {α : Type} (c : α → Prop) [DecidablePred c] (g : α → W32) (xs : List α) (x : W32) (b : Nat) :
    (xs.foldl (fun m e => if c e then m ||| g e else m) x).getLsbD b = true ↔
      x.getLsbD b = true ∨ ∃ e ∈ xs, c e ∧ (g e).getLsbD b = true := by
  induction xs generalizing x with
  | nil => simp
  | cons e xs ih =>
    rw [List.foldl_cons, ih]
    by_cases h : c e <;> simp [h, or_assoc]

/-- A bit of what a fold gathers from all elements. -/
theorem getLsbD_foldl_or {α : Type} (g : α → W32) (xs : List α) (x : W32) (b : Nat) :
    (xs.foldl (fun m e => m ||| g e) x).getLsbD b = true ↔ x.getLsbD b = true ∨ ∃ e ∈ xs, (g e).getLsbD b = true := by
  simpa using getLsbD_foldl_or_if (fun _ => True) g xs x b

theorem getLsbD_maskOf {p : Nat → Bool} {l : Nat} (hl : l < 32) : (maskOf p).getLsbD l = p l := by
  rw [Bool.eq_iff_iff, maskOf, getLsbD_foldl_or_if]
  constructor
  · rintro (h | ⟨j, hj, hp, hb⟩)
    · simp at h
    · rw [getLsbD_laneBit (List.mem_range.1 hj), decide_eq_true_eq] at hb
      rwa [hb]
  · exact fun h => .inr ⟨l, List.mem_range.2 hl, h, by simp [getLsbD_laneBit hl]⟩

/-- The lanes whose elements meet a condition, gathered lane by lane, are a mask. -/
theorem foldl_laneBit_eq_maskOf (act : W32) (c : Nat → Prop) [DecidablePred c] :
    (lanesOf act).foldl (fun m l => if c l then m ||| laneBit l else m) 0 =
      maskOf (fun l => act.getLsbD l && decide (c l)) := by
  apply BitVec.eq_of_getLsbD_eq
  intro b hb
  rw [Bool.eq_iff_iff, maskOf, getLsbD_foldl_or_if, getLsbD_foldl_or_if]
  simp only [lanesOf, List.mem_filter, Bool.and_eq_true, decide_eq_true_eq, and_assoc]

/-! ### The end of a word that raises flags (R21) -/

@[simp] theorem setLanes_sys (w : Wave) (n : Nat) (xs : List (Nat × W32)) : (w.setLanes n xs).sys = w.sys := by
  induction xs generalizing w with
  | nil => rfl
  | cons e xs ih => exact ih (w.setV n e.1 e.2)

/-- A cause whose code lies below all others is taken as if it were alone (R59). -/
theorem settleRaises_lowest {r : Raise} {rest : List Raise} (h : ∀ e ∈ rest, r.cause.code < e.cause.code) :
    settleRaises (r :: rest) = settleRaises [r] := by
  have hmin : rest.foldl (fun m e => min m e.cause.code) r.cause.code = r.cause.code := by
    induction rest with
    | nil => rfl
    | cons e rest ih =>
      rw [List.foldl_cons, Nat.min_eq_left (h e (by simp)).le]
      exact ih (fun x hx => h x (by simp [hx]))
  have hfilter : rest.filter (fun e => e.cause.code == r.cause.code) = [] := by
    simpa [List.filter_eq_nil_iff] using fun e he => (h e he).ne'
  simp only [settleRaises, hmin, List.foldl_nil, List.filter_cons, beq_self_eq_true, if_true, hfilter, List.filter_nil]

/-- The flags of the lanes of active(S), lane by lane. -/
def laneFlags (s : State) (w : Wave) (p : Pred) (g : Nat → W32) : List (Nat × W32) :=
  (lanesOf (w.active s.slotB p)).map (fun l => (l, g l))

theorem laneFlags_congr {s : State} {w : Wave} {p : Pred} {f g : Nat → W32}
    (h : ∀ l, (w.active s.slotB p).getLsbD l = true → f l = g l) : laneFlags s w p f = laneFlags s w p g :=
  List.map_congr_left (fun l hl => by rw [h l (mem_lanesOf.1 hl)])

theorem allFlags_laneFlags (s : State) (w : Wave) (p : Pred) (g : Nat → W32) :
    allFlags (laneFlags s w p g) = gathered s w p g := by
  simp only [allFlags, laneFlags, gathered, List.foldl_map]

/-- A cause that may be recorded before others of higher codes. -/
theorem settleRaises_ite_append {c : Prop} [Decidable c] {r : Raise} {rest : List Raise} (hd : r.detail ≤ 255)
    (h : ∀ e ∈ rest, r.cause.code < e.cause.code) :
    settleRaises ((if c then [r] else []) ++ rest) = if c then some r else settleRaises rest := by
  split_ifs
  · rw [List.singleton_append, settleRaises_lowest h, settleRaises_one r hd]
  · rfl

/-- The causes that a word records for the flags of its lanes, by rising code. -/
theorem flagRaises_laneFlags (s : State) (w : Wave) (p : Pred) (g : Nat → W32) :
    let lanes := flagLanes s w p g
    flagRaises w (laneFlags s w p g) =
      (if lanes (fpEnabled w) ≠ 0 then [{ cause := .fpTrap, lanes := lanes (fpEnabled w) }] else []) ++
      ((if w.sys.fpctl.getLsbD 8 = true ∧ lanes 0x100 ≠ 0 then [{ cause := .scaleNan, lanes := lanes 0x100 }] else []) ++
      ((if w.sys.fpctl.getLsbD 9 = true ∧ lanes 0x200 ≠ 0 then [{ cause := .outlierEscape, lanes := lanes 0x200 }] else []) ++
        [])) := by
  have hlanes (m : W32) : (laneFlags s w p g).foldl (fun acc e => if e.2 &&& m ≠ 0 then acc ||| laneBit e.1 else acc) 0 =
      flagLanes s w p g m := by
    rw [laneFlags, List.foldl_map, foldl_laneBit_eq_maskOf]
    simp only [flagLanes, bne, decide_not, Bool.beq_eq_decide_eq]
  simp only [flagRaises, hlanes]
  simp only [ite_and, ite_not, List.append_nil, List.append_assoc]
  rfl

/-- The cause that a word takes for the flags of its lanes. -/
theorem settleRaises_flagRaises (s : State) (w : Wave) (p : Pred) (g : Nat → W32) :
    settleRaises (flagRaises w (laneFlags s w p g)) = flagCause w (flagLanes s w p g) := by
  have eq_of_mem {c : Prop} [Decidable c] {e r : Raise} (he : e ∈ if c then [r] else []) : e = r := by
    split_ifs at he <;> simp_all
  rw [flagRaises_laneFlags, settleRaises_ite_append (Nat.zero_le _), settleRaises_ite_append (Nat.zero_le _),
    settleRaises_ite_append (Nat.zero_le _) (by simp)]
  · rfl
  · intro e he
    rw [List.append_nil] at he
    rw [eq_of_mem he]
    dsimp only
    decide
  · intro e he
    rw [List.append_nil, List.mem_append] at he
    rcases he with he | he <;> rw [eq_of_mem he] <;> dsimp only <;> decide

/-- A cause of R21 is of kind P. -/
theorem kind_of_flagCause {w : Wave} {lanes : W32 → W32} {r : Raise} (h : flagCause w lanes = some r) : r.kind = .p := by
  unfold flagCause at h
  split_ifs at h <;> cases h <;> rfl

/-- A word that takes a cause of kind P leaves of its effect the flags alone. -/
theorem trapWord_congr {s : State} {w x y : Wave} {r : Raise} (h : s.wave s.cur = some w) (hk : r.kind = .p)
    (hxy : x.sys.fpstat = y.sys.fpstat) :
    trapWord s (s.setWave s.cur x) r = trapWord s (s.setWave s.cur y) r := by
  have hkind : (r.kind == .l || r.kind == .e) = false := by rw [hk]; rfl
  simp only [trapWord, h, hkind, State.wave_setWave _ h, Option.map_some, hxy, Bool.false_eq_true, if_false]

/-- A word that writes `done`, gathers its lanes' flags in FPSTAT and records their causes ends as R21 says. -/
theorem flagEnds_of_exec {s : State} {w : Wave} {i : Instr} {p : Pred} {g : Nat → W32} {done : Wave} (h : Runs s w)
    (hsys : done.sys = w.sys)
    (hexec : exec i s = finish s (.done (s.setWave s.cur (done.orFlags (allFlags (laneFlags s w p g))))
      (flagRaises w (laneFlags s w p g)))) :
    FlagEnds s w i (gathered s w p g) (flagCause w (flagLanes s w p g)) done := by
  rw [allFlags_laneFlags] at hexec
  have hsettle := settleRaises_flagRaises s w p g
  refine ⟨fun hc => ?_, fun r hc => ?_⟩
  · rw [hexec, finish, h.clean, List.nil_append, hsettle, hc]
    rfl
  · rw [hexec, finish_raise h.clean (hsettle.trans hc), flagTraps,
      trapWord_congr h.wave (kind_of_flagCause hc) (y := flagged w (gathered s w p g))]
    simp only [Wave.orFlags, flagged, hsys]

/-! ### Operands and combinations (R78, R79, R162) -/

theorem floats_eq_isFloat (t : EType) : floats t = t.isFloat := by cases t <;> rfl
theorem twos_eq_isSigned (t : EType) : twos t = t.isSigned := by cases t <;> rfl
theorem viewWidth_eq_wid (t : EType) : viewWidth t = wid t := by cases t <;> rfl

theorem negated_eq_negElem {t : EType} (ht : wid t = 32) {e : Nat} (he : e < 2 ^ 32) : negated t e = negElem t 32 e := by
  rw [negated, negElem, floats_eq_isFloat, ht]
  cases t.isFloat
  · rw [if_neg (by simp), if_neg (by simp), low, ht]; omega
  · rw [if_pos rfl, if_pos rfl]; split <;> omega

theorem absolute_eq_absElem {t : EType} (ht : wid t = 32) {e : Nat} (he : e < 2 ^ 32) : absolute t e = absElem t 32 e := by
  have htop : e.testBit (32 - 1) = decide (2 ^ (32 - 1) ≤ e) := by
    rw [Nat.testBit_eq_decide_div_mod_eq, decide_eq_decide]; omega
  rw [absolute, absElem, floats_eq_isFloat, num, twos_eq_isSigned, ht, htop]
  cases t.isFloat
  · simp only [Bool.false_eq_true, if_false, low, ht]
    cases t.isSigned
    · simp only [Bool.false_eq_true, false_and, if_false, Bool.false_and]; omega
    · simp only [true_and, Bool.true_and, decide_eq_true_eq]; split_ifs <;> omega
  · rfl

theorem absElem_lt (t : EType) {e : Nat} (he : e < 2 ^ 32) : absElem t 32 e < 2 ^ 32 := by
  rw [absElem]; split_ifs <;> omega

theorem mapElems_whole (f : Nat → Nat) (x : W32) : mapElems 32 f x = BitVec.ofNat 32 (f x.toNat) := by
  have hx := x.isLt
  apply BitVec.eq_of_toNat_eq
  simp [mapElems, elems, ofElems, elem, Nat.mod_eq_of_lt hx]

/-- In the view of a whole register element 0 is what the modifier forms. -/
theorem ofNat_src {t : EType} (ht : wid t = 32) (c : BitVec 3) (x : W32) :
    BitVec.ofNat 32 (src t c x 0) = Machine.modify t c x := by
  have hx := x.isLt
  have hel : el t x ((sigma 32 c.toNat).getD 0 0) = x.toNat := by
    simp [el, sigma, ht, Nat.mod_eq_of_lt hx]
  rw [src, Machine.modify, viewWidth_eq_wid, ht, hel]
  obtain ⟨⟨n, hn⟩⟩ := c
  have hplain : BitVec.ofNat 32 x.toNat = x := (BitVec.ofNat_toNat 32 x).trans (BitVec.setWidth_eq x)
  interval_cases n
  · exact hplain
  · exact (congrArg _ (negated_eq_negElem ht hx)).trans (mapElems_whole _ x).symm
  · exact (congrArg _ (absolute_eq_absElem ht hx)).trans (mapElems_whole _ x).symm
  · have h : negated t (absolute t x.toNat) = negElem t 32 (absElem t 32 x.toNat) := by
      rw [absolute_eq_absElem ht hx, negated_eq_negElem ht (absElem_lt t hx)]
    exact (congrArg _ h).trans (mapElems_whole (fun e => negElem t 32 (absElem t 32 e)) x).symm
  all_goals exact hplain

/-- A strict and a weak comparison choose alike where the choice at equality does not matter. -/
theorem ite_lt_eq_ite_le {α β : Type} [LinearOrder α] {x y : α} {p q : β} (h : x = y → q = p) :
    (if x < y then q else p) = if x ≤ y then q else p := by
  rcases lt_trichotomy x y with hlt | heq | hgt
  · rw [if_pos hlt, if_pos hlt.le]
  · rw [if_neg heq.not_lt, if_pos heq.le, h heq]
  · rw [if_neg hgt.not_gt, if_neg hgt.not_ge]

theorem combine_eq (k : RedKind) : Claims.combine k = RedKind.comb k := by
  funext rm ftz p q
  cases k
  case minI32 => simp only [Claims.combine, RedKind.comb, ← not_lt, ite_not]
  case minN32 => simp only [Claims.combine, RedKind.comb, BitVec.le_def, ← not_lt, ite_not]
  case maxI32 => simp only [Claims.combine, RedKind.comb, ite_lt_eq_ite_le (fun h => (BitVec.toInt_inj.1 h).symm)]
  case maxN32 => simp only [Claims.combine, RedKind.comb, BitVec.le_def, ite_lt_eq_ite_le (fun h => (BitVec.toNat_inj.1 h).symm)]
  all_goals rfl

theorem redView_eq (k : RedKind) : redView k = RedKind.view k := by cases k <;> rfl
theorem wid_view (k : RedKind) : wid (RedKind.view k) = 32 := by cases k <;> rfl

theorem aloneValue_eq (k : RedKind) (ftz : Bool) (x : W32) : aloneValue k ftz x = RedKind.lone k ftz x := by
  cases k <;> simp [aloneValue, RedKind.lone, ivIf]

/-! ### Values with the lanes that entered them, and the flags on the way (R21, R37, R164) -/

/-- What the model keeps of a gathered value. -/
def asEntered (y : Gathered) : Entered := y.value.map (fun v => (v, y.from'))

/-- No lane has entered a value that is absent. -/
def NoneEntered (y : Gathered) : Prop := y.value = none → y.from' = 0

/-- Some operation that the value of lane `l` entered raised flag `b`. -/
def Raised (ops : List (W32 × W32)) (l b : Nat) : Prop := ∃ o ∈ ops, o.1.getLsbD l = true ∧ o.2.getLsbD b = true

/-- Lane `l` has raised flag `b` on the way to a gathered value. -/
def Flagged (y : Gathered) (l b : Nat) : Prop := (y.flags l).getLsbD b = true

@[simp] theorem asEntered_value (y : Gathered) : (asEntered y).map (·.1) = y.value := by
  cases h : y.value <;> simp [asEntered, h]

@[simp] theorem raised_nil (l b : Nat) : ¬ Raised [] l b := by simp [Raised]
@[simp] theorem raised_append (xs ys : List (W32 × W32)) (l b : Nat) :
    Raised (xs ++ ys) l b ↔ Raised xs l b ∨ Raised ys l b := by
  simp only [Raised, List.mem_append, or_and_right, exists_or]
theorem raised_flatMap {α : Type} (xs : List α) (f : α → List (W32 × W32)) (l b : Nat) :
    Raised (xs.flatMap f) l b ↔ ∃ x ∈ xs, Raised (f x) l b := by
  simp only [Raised, List.mem_flatMap]
  exact ⟨fun ⟨o, ⟨x, hx, ho⟩, h⟩ => ⟨x, hx, o, ho, h⟩, fun ⟨x, hx, o, ho, h⟩ => ⟨o, ⟨x, hx, ho⟩, h⟩⟩

/-- An operation is kept only where it raised a flag. -/
theorem raised_if (m g : W32) (l b : Nat) :
    Raised (if g = 0 then [] else [(m, g)]) l b ↔ m.getLsbD l = true ∧ g.getLsbD b = true := by
  split_ifs with h
  · simp [h]
  · simp [Raised]

theorem noneEntered_join (f : W32 → W32 → W32 × W32) {x y : Gathered} (hx : NoneEntered x) (hy : NoneEntered y) :
    NoneEntered (join f x y) := by
  unfold NoneEntered at *
  cases hxv : x.value <;> cases hyv : y.value <;> simp_all [join]

/-- One operation: its value and the lanes that entered it. -/
theorem combEntered_fst (f : W32 → W32 → W32 × W32) {x y : Gathered} (hx : NoneEntered x) (hy : NoneEntered y) :
    (combEntered f (asEntered x) (asEntered y)).1 = asEntered (join f x y) := by
  unfold NoneEntered at *
  cases hxv : x.value <;> cases hyv : y.value <;> simp_all [join, asEntered, combEntered]

/-- One operation: the flags on the way to its value are those of its operands and its own. -/
theorem flagged_join (f : W32 → W32 → W32 × W32) (x y : Gathered) (l b : Nat) :
    Flagged (join f x y) l b ↔
      (Flagged x l b ∨ Flagged y l b) ∨ Raised (combEntered f (asEntered x) (asEntered y)).2 l b := by
  cases hxv : x.value <;> cases hyv : y.value
  case some.some p q =>
    have hif (c : Prop) [Decidable c] : (if c then (f p q).2 else 0).getLsbD b = true ↔ c ∧ (f p q).2.getLsbD b = true := by
      split_ifs with h <;> simp [h]
    simp only [asEntered, combEntered, hxv, hyv, Option.map_some, raised_if, Flagged, join, BitVec.getLsbD_or, Bool.or_eq_true, hif]
  all_goals simp [Flagged, join, asEntered, combEntered, hxv, hyv]

/-! ### Lists of gathered values -/

/-- The first `n` values of `y` are held in `xs`, and the operations `ops` raised the flags on the way to them. -/
structure Tracks (n : Nat) (y : Nat → Gathered) (xs : List Entered) (ops : List (W32 × W32)) : Prop where
  lawful : ∀ q, NoneEntered (y q)
  values : xs = (List.range n).map (fun q => asEntered (y q))
  raised : ∀ l b, Raised ops l b ↔ ∃ q < n, Flagged (y q) l b

/-- The flags of the operations that the value of lane `l` entered. -/
def flagsOf (ops : List (W32 × W32)) (l : Nat) : W32 := ops.foldl (fun m o => if o.1.getLsbD l then m ||| o.2 else m) 0

theorem getLsbD_flagsOf {ops : List (W32 × W32)} {l b : Nat} : (flagsOf ops l).getLsbD b = true ↔ Raised ops l b := by
  rw [flagsOf, getLsbD_foldl_or_if (fun o : W32 × W32 => o.1.getLsbD l = true)]
  simp [Raised]

/-- The flags that a lane has raised on the way to any of the 32 values are those of the operations that it entered. -/
theorem Tracks.flagsOf_eq {y : Nat → Gathered} {xs : List Entered} {ops : List (W32 × W32)} (h : Tracks 32 y xs ops) :
    flagsOf ops = raisedBy y := by
  funext l
  apply BitVec.eq_of_getLsbD_eq
  intro b _
  rw [Bool.eq_iff_iff, getLsbD_flagsOf, raisedBy, List.foldl_map, getLsbD_foldl_or]
  simpa [Flagged] using h.raised l b

theorem Tracks.getD_eq {n : Nat} {y : Nat → Gathered} {xs : List Entered} {ops : List (W32 × W32)} (h : Tracks n y xs ops)
    {q : Nat} (hq : q < n) : xs.getD q none = asEntered (y q) := by
  rw [h.values, List.getD_eq_getElem?_getD, List.getElem?_map, List.getElem?_range hq]; rfl

theorem enteredFlags_eq (s : State) (w : Wave) (p : Pred) (ops : List (W32 × W32)) :
    enteredFlags (w.active s.slotB p) ops = laneFlags s w p (flagsOf ops) := rfl

theorem mem_activeLanes {s : State} {w : Wave} {p : Pred} {l : Nat} :
    l ∈ activeLanes s w p ↔ (w.active s.slotB p).getLsbD l = true := mem_lanesOf

theorem contains_activeLanes {s : State} {w : Wave} {p : Pred} {l : Nat} :
    (activeLanes s w p).contains l = (w.active s.slotB p).getLsbD l := by
  rw [Bool.eq_iff_iff, List.contains_iff_mem, mem_activeLanes]

theorem noneEntered_enters (s : State) (w : Wave) (p : Pred) (x : Nat → W32) (l : Nat) : NoneEntered (enters s w p x l) := by
  unfold NoneEntered enters; split <;> simp

theorem not_flagged_enters (s : State) (w : Wave) (p : Pred) (x : Nat → W32) (q l b : Nat) :
    ¬ Flagged (enters s w p x q) l b := by
  unfold Flagged enters; split <;> simp

theorem asEntered_enters (s : State) (w : Wave) (p : Pred) (x : Nat → W32) (l : Nat) :
    asEntered (enters s w p x l) = if (w.active s.slotB p).getLsbD l then some (x l, laneBit l) else none := by
  unfold enters
  rw [contains_activeLanes]
  split
  · simp only [asEntered, Option.map_some, ← one_shiftLeft_eq_laneBit]; rfl
  · rfl

/-- Before any operation. -/
theorem tracks_enters (s : State) (w : Wave) (p : Pred) (x : Nat → W32) :
    Tracks 32 (enters s w p x) (entered (w.active s.slotB p) x) [] where
  lawful := noneEntered_enters s w p x
  values := by simp only [asEntered_enters]; rfl
  raised l b := by simp [not_flagged_enters]

/-! ### The tree of R37 -/

/-- One level of the tree. -/
theorem pairUp_eq (f : W32 → W32 → W32 × W32) (m : Nat) (y : Nat → Gathered) (h : ∀ q, NoneEntered (y q)) :
    pairUp f ((List.range (2 * m)).map (fun q => asEntered (y q))) =
      ((List.range m).map (fun q => asEntered (join f (y (2 * q)) (y (2 * q + 1)))),
        (List.range m).flatMap (fun q => (combEntered f (asEntered (y (2 * q))) (asEntered (y (2 * q + 1)))).2)) := by
  induction m generalizing y with
  | zero => rfl
  | succ m ih =>
    have hsplit : (List.range (2 * (m + 1))).map (fun q => asEntered (y q)) =
        asEntered (y 0) :: asEntered (y 1) :: (List.range (2 * m)).map (fun q => asEntered (y (q + 2))) := by
      rw [show 2 * (m + 1) = 2 * m + 1 + 1 from rfl, List.range_succ_eq_map, List.range_succ_eq_map]
      simp [Function.comp_def]
    rw [hsplit, pairUp, ih (fun q => y (q + 2)) (fun q => h _), List.range_succ_eq_map, combEntered_fst f (h 0) (h 1)]
    simp [Function.comp_def, List.flatMap_map, Nat.mul_add, Nat.add_right_comm]

theorem Tracks.pairUp {f : W32 → W32 → W32 × W32} {m : Nat} {y : Nat → Gathered} {xs : List Entered} {ops : List (W32 × W32)}
    (h : Tracks (2 * m) y xs ops) :
    Tracks m (fun q => join f (y (2 * q)) (y (2 * q + 1))) (pairUp f xs).1 (ops ++ (pairUp f xs).2) where
  lawful q := noneEntered_join f (h.lawful _) (h.lawful _)
  values := by rw [h.values, pairUp_eq f m y h.lawful]
  raised l b := by
    rw [raised_append, h.raised, h.values, pairUp_eq f m y h.lawful, raised_flatMap]
    simp only [flagged_join, List.mem_range]
    constructor
    · rintro (⟨q, hq, hf⟩ | ⟨q, hq, hf⟩)
      · refine ⟨q / 2, by omega, .inl ?_⟩
        rcases Nat.mod_two_eq_zero_or_one q with hpar | hpar
        · exact .inl (by rwa [show 2 * (q / 2) = q by omega])
        · exact .inr (by rwa [show 2 * (q / 2) + 1 = q by omega])
      · exact ⟨q, hq, .inr hf⟩
    · rintro ⟨q, hq, (hf | hf) | hf⟩
      · exact .inl ⟨2 * q, by omega, hf⟩
      · exact .inl ⟨2 * q + 1, by omega, hf⟩
      · exact .inr ⟨q, hq, hf⟩

/-- The levels of the tree, from the nodes of level `j` to the root. -/
theorem Tracks.levels {f : W32 → W32 → W32 × W32} {x : Nat → Gathered} {k j : Nat} {xs : List Entered} {ops : List (W32 × W32)}
    (h : Tracks (2 ^ k) (node f x j) xs ops) :
    Tracks 1 (node f x (j + k)) [(Machine.treeOf f k xs).1] (ops ++ (Machine.treeOf f k xs).2) := by
  induction k generalizing j xs ops with
  | zero =>
    have hxs : xs = [asEntered (node f x j 0)] := h.values
    simpa [Machine.treeOf, hxs] using h
  | succ k ih =>
    rw [Nat.pow_succ'] at h
    have hnext := ih (j := j + 1) (h.pairUp (f := f))
    rw [List.append_assoc, Nat.add_right_comm] at hnext
    exact hnext

/-- A value of the model follows a gathered one, with the operations on the way to it. -/
structure Follows (y : Gathered) (r : Entered × List (W32 × W32)) : Prop where
  lawful : NoneEntered y
  value : r.1 = asEntered y
  raised : ∀ l b, Raised r.2 l b ↔ Flagged y l b

theorem Follows.flagsOf_eq {y : Gathered} {r : Entered × List (W32 × W32)} (h : Follows y r) : flagsOf r.2 = y.flags := by
  funext l
  apply BitVec.eq_of_getLsbD_eq
  intro b _
  rw [Bool.eq_iff_iff, getLsbD_flagsOf, h.raised, Flagged]

/-- The tree over the 32 lanes. -/
theorem follows_treeOf (f : W32 → W32 → W32 × W32) (s : State) (w : Wave) (p : Pred) (x : Nat → W32) :
    Follows (node f (enters s w p x) 5 0) (Machine.treeOf f 5 (entered (w.active s.slotB p) x)) := by
  have h := Tracks.levels (f := f) (k := 5) (j := 0) (tracks_enters s w p x)
  refine ⟨h.lawful 0, List.singleton_inj.1 h.values, fun l b => (h.raised l b).trans ⟨?_, fun hf => ⟨0, Nat.one_pos, hf⟩⟩⟩
  rintro ⟨q, hq, hf⟩
  rwa [Nat.lt_one_iff.1 hq] at hf

/-- An operation has a value when one of its operands has. -/
theorem isSome_join (f : W32 → W32 → W32 × W32) (x y : Gathered) :
    (join f x y).value.isSome = true ↔ x.value.isSome = true ∨ y.value.isSome = true := by
  cases hx : x.value <;> cases hy : y.value <;> simp [join, hx, hy]

/-- A node has a value when one of the lanes below it has. -/
theorem isSome_node (f : W32 → W32 → W32 × W32) (x : Nat → Gathered) (k n : Nat) :
    (node f x k n).value.isSome = true ↔ ∃ l, l / 2 ^ k = n ∧ (x l).value.isSome = true := by
  induction k generalizing n with
  | zero => simp [node]
  | succ k ih =>
    rw [node, isSome_join, ih, ih, ← exists_or]
    refine exists_congr (fun l => ?_)
    rw [← or_and_right, Nat.pow_succ, ← Nat.div_div_eq_div_mul]
    exact and_congr_left' (by omega)

theorem isSome_enters {s : State} {w : Wave} {p : Pred} {x : Nat → W32} {l : Nat} :
    (enters s w p x l).value.isSome = true ↔ (w.active s.slotB p).getLsbD l = true := by
  rw [enters, contains_activeLanes]
  split <;> simp_all

/-- The root has a value when a lane is active. -/
theorem isSome_root (f : W32 → W32 → W32 × W32) (s : State) (w : Wave) (p : Pred) (x : Nat → W32) :
    (node f (enters s w p x) 5 0).value.isSome = true ↔ w.active s.slotB p ≠ 0 := by
  simp only [isSome_node, isSome_enters]
  constructor
  · rintro ⟨l, -, hl⟩ h0
    simp [h0] at hl
  · intro h
    by_contra hnone
    exact h (eq_zero_of_getLsbD (fun l hl => hnone ⟨l, by have := BitVec.lt_of_getLsbD hl; omega, hl⟩))

/-- An operation raises a flag only where both operands are there. -/
theorem isSome_of_raised {f : W32 → W32 → W32 × W32} {x y : Gathered} {l b : Nat}
    (h : Raised (combEntered f (asEntered x) (asEntered y)).2 l b) : x.value.isSome = true ∧ y.value.isSome = true := by
  cases hx : x.value <;> cases hy : y.value <;> simp_all [combEntered, asEntered]

/-- Where one value alone enters the tree, no operation takes place. -/
theorem not_flagged_node {f : W32 → W32 → W32 × W32} {x : Nat → Gathered} (hx : ∀ q l b, ¬ Flagged (x q) l b)
    (hone : ∀ q r, (x q).value.isSome = true → (x r).value.isSome = true → q = r) (k n l b : Nat) :
    ¬ Flagged (node f x k n) l b := by
  induction k generalizing n with
  | zero => exact hx n l b
  | succ k ih =>
    rw [node, flagged_join]
    rintro ((h | h) | h)
    · exact ih _ h
    · exact ih _ h
    · obtain ⟨hl, hr⟩ := isSome_of_raised h
      obtain ⟨q, hq, hqs⟩ := (isSome_node ..).1 hl
      obtain ⟨r, hr, hrs⟩ := (isSome_node ..).1 hr
      have := hone q r hqs hrs
      subst this
      omega

/-! ### The five steps of R164 -/

/-- The head and the last lane of the segment of a lane, as the model finds them under the head flags `m`. -/
def foundHead (m : W32) (l : Nat) : Nat := ((List.range (l + 1)).reverse.find? (fun j => (m ||| 1).getLsbD j)).getD 0
def foundLast (m : W32) (l : Nat) : Nat := match lanes.find? (fun j => decide (l < j) && (m ||| 1).getLsbD j) with
  | some j => j - 1
  | none => 31

/-- Lane 0 is always a head. -/
theorem getLsbD_heads (m : W32) (j : Nat) : (m ||| 1).getLsbD j = (j == 0 || m.getLsbD j) := by
  rw [BitVec.getLsbD_or, Bool.or_comm]
  exact congrArg (· || _) (getLsbD_laneBit (l := 0) (by decide) j)

theorem foundHead_eq (m : W32) : foundHead m = headAt (fun j => m.getLsbD j) := by
  funext l
  simp only [foundHead, headAt, getLsbD_heads]
  rw [← List.head?_filter, List.filter_reverse, List.head?_reverse, List.getLastD_eq_getLast?]

theorem foundLast_eq (m : W32) : foundLast m = lastAt (fun j => m.getLsbD j) := by
  funext l
  have hp : (fun j => decide (l < j) && (m ||| 1).getLsbD j) = fun j => decide (l < j) && m.getLsbD j := by
    funext j
    rw [getLsbD_heads]
    cases j <;> simp
  rw [foundLast, hp, lastAt, ← List.head?_filter, List.headD_eq_head?_getD]
  cases (lanes.filter fun j => decide (l < j) && m.getLsbD j).head? <;> rfl

theorem lastAt_lt (heads : Nat → Bool) (l : Nat) : lastAt heads l < 32 := by
  rw [lastAt, List.headD_eq_head?_getD]
  cases h : ((List.range 32).filter fun j => decide (l < j) && heads j).head? with
  | none => decide
  | some j =>
    have hj := List.mem_range.1 (List.mem_filter.1 (List.mem_of_head? h)).1
    rw [Option.getD_some]
    omega

/-- The two lanes, in order, whose values step `k` combines into lane `l`, if any. -/
def partners (scan : Bool) (heads : Nat → Bool) (k l : Nat) : Option (Nat × Nat) :=
  if scan then (if headAt heads l + 2 ^ k ≤ l then some (l - 2 ^ k, l) else none)
  else (if l + 2 ^ k ≤ lastAt heads l then some (l, l + 2 ^ k) else none)

/-- Both are lanes, and one of them is lane `l` itself. -/
theorem partners_bound {scan : Bool} {heads : Nat → Bool} {k l : Nat} {e : Nat × Nat} (hl : l < 32)
    (h : partners scan heads k l = some e) : e.1 < 32 ∧ e.2 < 32 ∧ (l = e.1 ∨ l = e.2) := by
  have hlast := lastAt_lt heads l
  have hpos := Nat.two_pow_pos k
  unfold partners at h
  split_ifs at h <;> obtain rfl := Option.some.inj h <;> dsimp only <;> omega

theorem pairing_succ (f : W32 → W32 → W32 × W32) (scan : Bool) (heads : Nat → Bool) (x : Nat → Gathered) (k l : Nat) :
    pairing f scan heads x (k + 1) l = (partners scan heads k l).elim (pairing f scan heads x k l)
      (fun e => join f (pairing f scan heads x k e.1) (pairing f scan heads x k e.2)) := by
  simp only [pairing, partners]
  split_ifs <;> rfl

/-- One lane of one step, as the model computes it. -/
def stepLane (f : W32 → W32 → W32 × W32) (ps : Option (Nat × Nat)) (y : Nat → Entered) (l : Nat) : Entered × List (W32 × W32) :=
  ps.elim (y l, []) (fun e => combEntered f (y e.1) (y e.2))

theorem segSteps_cons (f : W32 → W32 → W32 × W32) (scan : Bool) (heads : Nat → Bool) (k : Nat) (ks : List Nat)
    (xs : List Entered) (ops : List (W32 × W32)) :
    segSteps f scan (headAt heads) (lastAt heads) (k :: ks) xs ops =
      let ys := lanes.map (fun l => stepLane f (partners scan heads k l) (fun q => xs.getD q none) l)
      segSteps f scan (headAt heads) (lastAt heads) ks (ys.map (·.1)) (ops ++ ys.flatMap (·.2)) := by
  have hlane (l : Nat) : stepLane f (partners scan heads k l) (fun q => xs.getD q none) l =
      if scan then (if headAt heads l + 2 ^ k ≤ l then combEntered f (xs.getD (l - 2 ^ k) none) (xs.getD l none) else (xs.getD l none, []))
      else (if l + 2 ^ k ≤ lastAt heads l then combEntered f (xs.getD l none) (xs.getD (l + 2 ^ k) none) else (xs.getD l none, [])) := by
    unfold stepLane partners
    split_ifs <;> rfl
  simp only [hlane]
  rfl

/-- One step of the model follows one step of the pairing. -/
theorem stepLane_fst (f : W32 → W32 → W32 × W32) (scan : Bool) (heads : Nat → Bool) {x : Nat → Gathered} {k : Nat}
    (h : ∀ q, NoneEntered (pairing f scan heads x k q)) (l : Nat) :
    (stepLane f (partners scan heads k l) (fun q => asEntered (pairing f scan heads x k q)) l).1 =
      asEntered (pairing f scan heads x (k + 1) l) := by
  rw [pairing_succ]
  cases partners scan heads k l with
  | none => rfl
  | some e => exact combEntered_fst f (h _) (h _)

/-- The flags on the way to the value of a lane after a step: those before it and those of the step. -/
theorem flagged_pairing_succ (f : W32 → W32 → W32 × W32) (scan : Bool) (heads : Nat → Bool) (x : Nat → Gathered) (k q l b : Nat) :
    Flagged (pairing f scan heads x (k + 1) q) l b ↔
      ((partners scan heads k q).elim (Flagged (pairing f scan heads x k q) l b)
        (fun e => Flagged (pairing f scan heads x k e.1) l b ∨ Flagged (pairing f scan heads x k e.2) l b)) ∨
      Raised (stepLane f (partners scan heads k q) (fun j => asEntered (pairing f scan heads x k j)) q).2 l b := by
  rw [pairing_succ]
  cases partners scan heads k q with
  | none => simp [stepLane]
  | some e => exact flagged_join f _ _ l b

/-- No lane loses a flag in a step, and none appears but those of the step's operations. -/
theorem exists_flagged_pairing_succ (f : W32 → W32 → W32 × W32) (scan : Bool) (heads : Nat → Bool) (x : Nat → Gathered)
    (k l b : Nat) :
    (∃ q < 32, Flagged (pairing f scan heads x (k + 1) q) l b) ↔
      (∃ q < 32, Flagged (pairing f scan heads x k q) l b) ∨
      ∃ q < 32, Raised (stepLane f (partners scan heads k q) (fun j => asEntered (pairing f scan heads x k j)) q).2 l b := by
  simp only [flagged_pairing_succ]
  constructor
  · rintro ⟨q, hq, hf | hf⟩
    · cases he : partners scan heads k q with
      | none => rw [he] at hf; exact .inl ⟨q, hq, hf⟩
      | some e =>
        obtain ⟨h1, h2, -⟩ := partners_bound hq he
        rw [he] at hf
        exact .inl (hf.elim (fun hf => ⟨_, h1, hf⟩) (fun hf => ⟨_, h2, hf⟩))
    · exact .inr ⟨q, hq, hf⟩
  · rintro (⟨q, hq, hf⟩ | ⟨q, hq, hf⟩)
    · refine ⟨q, hq, .inl ?_⟩
      cases he : partners scan heads k q with
      | none => exact hf
      | some e =>
        obtain ⟨-, -, rfl | rfl⟩ := partners_bound hq he
        · exact .inl hf
        · exact .inr hf
    · exact ⟨q, hq, .inr hf⟩

/-- One step keeps track of every lane. -/
theorem Tracks.step {f : W32 → W32 → W32 × W32} {scan : Bool} {heads : Nat → Bool} {x : Nat → Gathered} {k : Nat}
    {xs : List Entered} {ops : List (W32 × W32)} (h : Tracks 32 (pairing f scan heads x k) xs ops) :
    let ys := lanes.map (fun l => stepLane f (partners scan heads k l) (fun q => xs.getD q none) l)
    Tracks 32 (pairing f scan heads x (k + 1)) (ys.map (·.1)) (ops ++ ys.flatMap (·.2)) := by
  have hys : lanes.map (fun l => stepLane f (partners scan heads k l) (fun q => xs.getD q none) l) =
      lanes.map (fun l => stepLane f (partners scan heads k l) (fun q => asEntered (pairing f scan heads x k q)) l) := by
    refine List.map_congr_left (fun l hl => ?_)
    cases he : partners scan heads k l with
    | none => simp only [stepLane, Option.elim_none, h.getD_eq (List.mem_range.1 hl)]
    | some e =>
      obtain ⟨h1, h2, -⟩ := partners_bound (List.mem_range.1 hl) he
      simp only [stepLane, Option.elim_some, h.getD_eq h1, h.getD_eq h2]
  rw [hys]
  refine ⟨fun q => ?_, ?_, fun l b => ?_⟩
  · rw [pairing_succ]
    cases partners scan heads k q with
    | none => exact h.lawful q
    | some e => exact noneEntered_join f (h.lawful _) (h.lawful _)
  · rw [List.map_map]
    exact List.map_congr_left (fun l _ => stepLane_fst f scan heads h.lawful l)
  · rw [raised_append, h.raised, List.flatMap_map, raised_flatMap, exists_flagged_pairing_succ]
    simp only [List.mem_range]

/-- The steps from `k` on. -/
theorem Tracks.segSteps {f : W32 → W32 → W32 × W32} {scan : Bool} {heads : Nat → Bool} {x : Nat → Gathered} {n k : Nat}
    {xs : List Entered} {ops : List (W32 × W32)} (h : Tracks 32 (pairing f scan heads x k) xs ops) :
    let r := segSteps f scan (headAt heads) (lastAt heads) (List.range' k n) xs ops
    Tracks 32 (pairing f scan heads x (k + n)) r.1 r.2 := by
  induction n generalizing k xs ops with
  | zero => exact h
  | succ n ih =>
    rw [List.range'_succ, segSteps_cons, show k + (n + 1) = k + 1 + n by omega]
    exact ih h.step

/-- A scan or a segmented word in the view of whole registers leaves what the five steps give (R163, R164). -/
theorem flagEnds_of_segWord {s : State} {w : Wave} {i : Instr} {p : Pred} {d a : VReg} {view : EType} {ma : BitVec 3}
    {heads : Wave → W32} {comb : Wave → W32 → W32 → W32 × W32} {scan : Bool} {absent : W32} (h : Runs s w)
    (ht : wid view = 32) (hexec : exec i s = segWord p s d a view ma heads comb scan absent) :
    let y := pairing (comb w) scan (fun l => (heads w).getLsbD l)
      (enters s w p (fun l => BitVec.ofNat 32 (src view ma (w.getV a.toNat l) 0))) 5
    FlagEnds s w i (gathered s w p (raisedBy y)) (flagCause w (flagLanes s w p (raisedBy y)))
      (lanesPut s w p d (fun l => (y l).value.getD absent)) := by
  simp only [ofNat_src ht]
  generalize hx : (fun l => Machine.modify view ma (w.getV a.toNat l)) = x
  generalize hy : pairing (comb w) scan (fun l => (heads w).getLsbD l) (enters s w p x) 5 = y
  generalize hr : segSteps (comb w) scan (foundHead (heads w)) (foundLast (heads w)) [0, 1, 2, 3, 4]
    (entered (w.active s.slotB p) x) [] = r
  have htrack : Tracks 32 y r.1 r.2 := by
    rw [← hy, ← hr, foundHead_eq, foundLast_eq]
    exact (tracks_enters s w p x).segSteps (k := 0) (n := 5)
  have hout : (lanesOf (w.active s.slotB p)).map (fun l => (l, ((r.1.getD l none).map (·.1)).getD absent)) =
      (lanesOf (w.active s.slotB p)).map (fun l => (l, (y l).value.getD absent)) :=
    List.map_congr_left (fun l hl => by rw [htrack.getD_eq (lt_of_mem_lanesOf hl), asEntered_value])
  refine flagEnds_of_exec h (setLanes_sys ..) ?_
  rw [hexec, segWord, runWord_next _ h.wave, lanesPut, ← hout, ← htrack.flagsOf_eq, ← enteredFlags_eq, ← hr, ← hx]
  rfl

/-! ### Reductions (R37, R162) -/

/-- The flags of a reduction: those of the tree, and those of a value that is alone (log 83). -/
theorem flagsOf_append_all {ops : List (W32 × W32)} {act m : W32} {l : Nat} (hl : act.getLsbD l = true) :
    flagsOf (ops ++ [(act, m)]) l = flagsOf ops l ||| m := by
  simp [flagsOf, List.foldl_append, hl]

/-- Without an active lane a reduction has no effect. -/
theorem exec_vred_idle {s : State} {w : Wave} (h : Runs s w) (o : RedOp) (hact : w.active s.slotB o.p = 0) :
    exec (.vred o) s = goesOn s w := by
  have hnone (x : Nat → W32) : (Machine.treeOf (RedKind.comb o.op w.rm w.ftz) 5 (entered (w.active s.slotB o.p) x)).1 = none := by
    have hroot := mt (isSome_root (RedKind.comb o.op w.rm w.ftz) s w o.p x).1 (not_not.2 hact)
    rw [Option.not_isSome_iff_eq_none] at hroot
    rw [(follows_treeOf ..).value, asEntered, hroot, Option.map_none]
  change execVred o s = _
  rw [execVred, runWord_next _ h.wave]
  simp only [hnone]
  rw [finish_done h.clean, goesOn, goesTo, State.setWave_same h.wave]

/-- One active lane. -/
theorem eq_of_alone {s : State} {w : Wave} {p : Pred} (h : (activeLanes s w p).length = 1) {q r : Nat}
    (hq : (w.active s.slotB p).getLsbD q = true) (hr : (w.active s.slotB p).getLsbD r = true) : q = r := by
  obtain ⟨l, hl⟩ := List.length_eq_one_iff.1 h
  have hmem {j : Nat} (hj : (w.active s.slotB p).getLsbD j = true) : j = l := by
    rw [← List.mem_singleton, ← hl]
    exact mem_lanesOf.2 hj
  rw [hmem hq, hmem hr]

/-- A reduction writes the root of the tree to every active lane (R37, R162). -/
theorem flagEnds_vred {s : State} {w : Wave} (h : Runs s w) (o : RedOp) (hact : w.active s.slotB o.p ≠ 0) :
    let x (l : Nat) : W32 := BitVec.ofNat 32 (src (redView o.op) o.ma (w.getV o.a.toNat l) 0)
    let g := node (Claims.combine o.op w.rm w.ftz) (enters s w o.p x) 5 0
    let one := aloneValue o.op w.ftz (g.value.getD 0)
    let alone : Prop := (activeLanes s w o.p).length = 1
    let fl (l : Nat) : W32 := if alone then one.2 else g.flags l
    FlagEnds s w (.vred o) (gathered s w o.p fl) (flagCause w (flagLanes s w o.p fl))
      (lanesPut s w o.p o.d (fun _ => if alone then one.1 else g.value.getD 0)) := by
  simp only [redView_eq, ofNat_src (wid_view o.op), combine_eq, aloneValue_eq]
  generalize hx : (fun l => Machine.modify (RedKind.view o.op) o.ma (w.getV o.a.toNat l)) = x
  have hroot := (isSome_root (RedKind.comb o.op w.rm w.ftz) s w o.p x).2 hact
  have hfollows := follows_treeOf (RedKind.comb o.op w.rm w.ftz) s w o.p x
  have hflags : (activeLanes s w o.p).length = 1 → ∀ l,
      (node (RedKind.comb o.op w.rm w.ftz) (enters s w o.p x) 5 0).flags l = 0 := by
    intro halone l
    refine eq_zero_of_getLsbD (fun b => ?_)
    exact not_flagged_node (not_flagged_enters s w o.p x)
      (fun q r hq hr => eq_of_alone halone (isSome_enters.1 hq) (isSome_enters.1 hr)) 5 0 l b
  generalize node (RedKind.comb o.op w.rm w.ftz) (enters s w o.p x) 5 0 = g at *
  generalize hr : Machine.treeOf (RedKind.comb o.op w.rm w.ftz) 5 (entered (w.active s.slotB o.p) x) = r at *
  obtain ⟨v, hv⟩ := Option.isSome_iff_exists.1 hroot
  have hrv : r.1 = some (v, g.from') := by rw [hfollows.value, asEntered, hv, Option.map_some]
  refine flagEnds_of_exec h (setLanes_sys ..) ?_
  change execVred o s = _
  rw [execVred, runWord_next _ h.wave]
  simp only [hx, hr, hrv, hv, Option.getD_some]
  have hfl : enteredFlags (w.active s.slotB o.p) (r.2 ++ [(w.active s.slotB o.p,
        (if (lanesOf (w.active s.slotB o.p)).length = 1 then RedKind.lone o.op w.ftz v else (v, 0)).2)]) =
      laneFlags s w o.p (fun l => if (activeLanes s w o.p).length = 1 then (RedKind.lone o.op w.ftz v).2 else g.flags l) := by
    rw [enteredFlags_eq]
    refine laneFlags_congr (fun l hl => ?_)
    rw [flagsOf_append_all hl, hfollows.flagsOf_eq]
    change g.flags l ||| (if (activeLanes s w o.p).length = 1 then RedKind.lone o.op w.ftz v else (v, 0)).2 = _
    split_ifs with halone
    · simp [hflags halone]
    · simp
  rw [hfl, apply_ite Prod.fst]
  rfl

/-! ### Scans and segmented words (R163, R164) -/

/-- The types of a well-formed segmented word have the whole register as their element. -/
theorem wid_of_inSeg {t : EType} (h : inSeg t = true) : wid t = 32 := by
  revert h; cases t <;> decide

/-- A check of a well-formed instruction holds. -/
theorem ok_of_wellFormed {ir : W64} {i : Instr} (h : Instr.wellFormed ir i = true) {c : Check} (hc : c ∈ i.checks) : c.ok = true := by
  simp only [Instr.wellFormed, Bool.and_eq_true, failing, List.isEmpty_iff, List.filter_eq_nil_iff] at h
  simpa using h.1.2 c hc

theorem wid_of_vsegred {ir : W64} {o : SegOp} (h : Instr.wellFormed ir (.vsegred o) = true) : wid o.t = 32 :=
  wid_of_inSeg (ok_of_wellFormed h (c := field 5 (inSeg o.t)) List.mem_cons_self)

theorem wid_of_vsegscan {ir : W64} {o : SegOp} (h : Instr.wellFormed ir (.vsegscan o) = true) : wid o.t = 32 :=
  wid_of_inSeg (ok_of_wellFormed h (c := field 5 (inSeg o.t)) List.mem_cons_self)

/-- The instructions that the third clause is about. -/
theorem steps_cases {s : State} {w : Wave} {i : Instr} {e : Pred × VReg × W32 × (Nat → Gathered)} (h : steps s w i = some e) :
    (∃ o, i = .vscan o) ∨ (∃ o, i = .vsegred o) ∨ (∃ o, i = .vsegscan o) := by
  unfold steps at h
  split at h
  · exact .inl ⟨_, rfl⟩
  · exact .inr (.inl ⟨_, rfl⟩)
  · exact .inr (.inr ⟨_, rfl⟩)
  · cases h

/-- The scans and the segmented words of every well-formed instruction. -/
theorem flagEnds_steps {s : State} {w : Wave} (h : Runs s w) {ir : W64} {i : Instr} {p : Pred} {d : VReg} {z : W32} {y : Nat → Gathered}
    (hwf : Instr.wellFormed ir i = true) (hi : steps s w i = some (p, d, z, y)) :
    FlagEnds s w i (gathered s w p (raisedBy y)) (flagCause w (flagLanes s w p (raisedBy y)))
      (lanesPut s w p d (fun l => (y l).value.getD z)) := by
  rcases steps_cases hi with ⟨o, rfl⟩ | ⟨o, rfl⟩ | ⟨o, rfl⟩
  · have hheads : (fun l => (0 : W32).getLsbD l) = fun _ => false := by funext l; simp
    have hword := flagEnds_of_segWord (i := .vscan o) h (wid_view o.op) rfl
    rw [hheads, ← combine_eq, ← redView_eq] at hword
    cases hi
    exact hword
  · have hword := flagEnds_of_segWord (i := .vsegred o) h (wid_of_vsegred hwf) rfl
    rw [← combine_eq] at hword
    cases hi
    exact hword
  · have hword := flagEnds_of_segWord (i := .vsegscan o) h (wid_of_vsegscan hwf) rfl
    rw [← combine_eq] at hword
    cases hi
    exact hword

/-! ### Sums by key (R39, R166) -/

/-- The left fold of values that have raised no flag before. -/
theorem Follows.foldl {f : W32 → W32 → W32 × W32} {x : Gathered} {ys : List Gathered} {r : Entered × List (W32 × W32)}
    (h : Follows x r) (hys : ∀ y ∈ ys, NoneEntered y ∧ ∀ l b, ¬ Flagged y l b) :
    Follows (ys.foldl (join f) x) ((ys.map asEntered).foldl (fun acc e =>
      let c := combEntered f acc.1 e
      (c.1, acc.2 ++ c.2)) r) := by
  induction ys generalizing x r with
  | nil => exact h
  | cons y ys ih =>
    obtain ⟨hy, hflag⟩ := hys y (by simp)
    refine ih ⟨noneEntered_join f h.lawful hy, ?_, fun l b => ?_⟩ (fun z hz => hys z (by simp [hz]))
    · simp only [h.value, combEntered_fst f h.lawful hy]
    · rw [raised_append, h.raised, h.value, flagged_join]
      simp [hflag l b]

theorem follows_foldOf {f : W32 → W32 → W32 × W32} {ys : List Gathered} (hys : ∀ y ∈ ys, NoneEntered y ∧ ∀ l b, ¬ Flagged y l b) :
    Follows (foldOf f ys) (foldEntered f (ys.map asEntered)) := by
  cases ys with
  | nil => exact ⟨fun _ => rfl, rfl, fun l b => by simp [foldOf, foldEntered, Flagged]⟩
  | cons x xs =>
    obtain ⟨hx, hflag⟩ := hys x (by simp)
    exact Follows.foldl ⟨hx, rfl, fun l b => by simp [hflag l b]⟩ (fun y hy => hys y (by simp [hy]))

/-- The leaders of the model are those of R39. -/
theorem getLsbD_leaders {s : State} {w : Wave} {p : Pred} {a : VReg} {l : Nat} (hl : l < 32) :
    (leaders w (w.active s.slotB p) a).getLsbD l = leads s w p a l := by
  rw [leaders, getLsbD_maskOf hl, leads, contains_activeLanes, Bool.eq_iff_iff, Bool.and_eq_true, Bool.and_eq_true]
  refine and_congr_right (fun _ => ?_)
  simp only [List.all_eq_true, List.mem_range, Bool.not_eq_true', Bool.and_eq_false_imp, List.any_eq_false, mem_activeLanes,
    Bool.and_eq_true, decide_eq_true_eq, not_and, Bool.not_eq_true, beq_eq_false_iff_ne]
  exact ⟨fun h j hj hlt => h j hlt hj, fun h j hlt hj => h j hj hlt⟩

/-- The values under the key of lane `l`, as the model collects them. -/
theorem map_asEntered_ofKey (s : State) (w : Wave) (p : Pred) (a b : VReg) (l : Nat) :
    (ofKey s w p a b l).map asEntered =
      ((lanesOf (w.active s.slotB p)).filter (fun j => w.getV a.toNat j == w.getV a.toNat l)).map
        (fun j => some (w.getV b.toNat j, laneBit j)) := by
  rw [ofKey, List.map_map]
  refine List.map_congr_left (fun j hj => ?_)
  rw [Function.comp_apply, asEntered_enters, if_pos (mem_lanesOf.1 (List.mem_filter.1 hj).1)]

/-- A lane finds its own entry in a list with one entry for each of some lanes. -/
theorem find?_map_pair {β : Type} (g : Nat → β) (ls : List Nat) (l : Nat) :
    (ls.map (fun j => (j, g j))).find? (fun e => e.1 == l) = if l ∈ ls then some (l, g l) else none := by
  induction ls with
  | nil => rfl
  | cons j ls ih =>
    by_cases hj : j = l
    · simp [hj]
    · rw [List.map_cons, List.find?_cons_of_neg (by simpa using hj), ih]
      simp [Ne.symm hj]

/-- The sum of lane `l` in R39: that of its key in a leader, nothing in another lane. -/
def keySum (s : State) (w : Wave) (p : Pred) (t : EType) (a b : VReg) (l : Nat) : Gathered :=
  foldOf (Claims.combine (addIn t) w.rm w.ftz) (if leads s w p a l then ofKey s w p a b l else [])

/-- The leaders with their sums, as the model computes them. -/
def foundSums (s : State) (w : Wave) (p : Pred) (t : EType) (a b : VReg) : List (Nat × Entered × List (W32 × W32)) :=
  ((lanesOf (w.active s.slotB p)).filter (fun l => (leaders w (w.active s.slotB p) a).getLsbD l)).map (fun l =>
    (l, foldEntered (RedKind.comb (segKind t) w.rm w.ftz)
      (((lanesOf (w.active s.slotB p)).filter (fun j => w.getV a.toNat j == w.getV a.toNat l)).map
        (fun j => some (w.getV b.toNat j, laneBit j)))))

/-- What the model leaves in lane `l`. -/
def foundSum (sums : List (Nat × Entered × List (W32 × W32))) (l : Nat) : W32 := match sums.find? (fun e => e.1 == l) with
  | some e => (e.2.1.map (·.1)).getD 0
  | none => 0

theorem mem_leaders {s : State} {w : Wave} {p : Pred} {a : VReg} {l : Nat} :
    l ∈ (lanesOf (w.active s.slotB p)).filter (fun l => (leaders w (w.active s.slotB p) a).getLsbD l) ↔
      l < 32 ∧ leads s w p a l = true := by
  rw [List.mem_filter]
  constructor
  · rintro ⟨hl, hlead⟩
    exact ⟨lt_of_mem_lanesOf hl, by rwa [← getLsbD_leaders (lt_of_mem_lanesOf hl)]⟩
  · rintro ⟨hl, hlead⟩
    refine ⟨mem_lanesOf.2 ?_, by rwa [getLsbD_leaders hl]⟩
    rw [leads, contains_activeLanes, Bool.and_eq_true] at hlead
    exact hlead.1

/-- The sum of a leader. -/
theorem follows_keySum {s : State} {w : Wave} {p : Pred} {t : EType} {a b : VReg} {l : Nat} (hlead : leads s w p a l = true) :
    Follows (keySum s w p t a b l) (foldEntered (RedKind.comb (segKind t) w.rm w.ftz)
      (((lanesOf (w.active s.slotB p)).filter (fun j => w.getV a.toNat j == w.getV a.toNat l)).map
        (fun j => some (w.getV b.toNat j, laneBit j)))) := by
  rw [keySum, if_pos hlead, ← map_asEntered_ofKey, combine_eq]
  refine follows_foldOf (fun y hy => ?_)
  obtain ⟨j, -, rfl⟩ := List.mem_map.1 hy
  exact ⟨noneEntered_enters s w p _ j, not_flagged_enters s w p _ j⟩

theorem keySum_of_not_leads {s : State} {w : Wave} {p : Pred} {t : EType} {a b : VReg} {l : Nat} (h : ¬ leads s w p a l = true) :
    keySum s w p t a b l = ⟨none, 0, fun _ => 0⟩ := by
  rw [keySum, if_neg h]; rfl

theorem foundSum_eq {s : State} {w : Wave} {p : Pred} {t : EType} {a b : VReg} {l : Nat} (hl : l < 32) :
    foundSum (foundSums s w p t a b) l = (keySum s w p t a b l).value.getD 0 := by
  rw [foundSum, foundSums, find?_map_pair]
  by_cases hlead : leads s w p a l = true
  · rw [if_pos (mem_leaders.2 ⟨hl, hlead⟩), ← asEntered_value, ← (follows_keySum hlead).value]
  · rw [if_neg (fun h => hlead (mem_leaders.1 h).2), keySum_of_not_leads hlead]
    rfl

theorem flagsOf_foundSums (s : State) (w : Wave) (p : Pred) (t : EType) (a b : VReg) :
    flagsOf ((foundSums s w p t a b).flatMap (·.2.2)) = raisedBy (keySum s w p t a b) := by
  refine Tracks.flagsOf_eq (xs := (List.range 32).map (fun q => asEntered (keySum s w p t a b q))) ⟨fun q => ?_, rfl, fun l b' => ?_⟩
  · by_cases hlead : leads s w p a q = true
    · exact (follows_keySum hlead).lawful
    · rw [keySum_of_not_leads hlead]; exact fun _ => rfl
  · rw [foundSums, List.flatMap_map, raised_flatMap]
    constructor
    · rintro ⟨q, hq, hf⟩
      obtain ⟨hq, hlead⟩ := mem_leaders.1 hq
      exact ⟨q, hq, ((follows_keySum hlead).raised l b').1 hf⟩
    · rintro ⟨q, hq, hf⟩
      by_cases hlead : leads s w p a q = true
      · exact ⟨q, mem_leaders.2 ⟨hq, hlead⟩, ((follows_keySum hlead).raised l b').2 hf⟩
      · simp [keySum_of_not_leads hlead, Flagged] at hf

/-- VDUPADD leaves the left fold of each key in its leader and zero in the other active lanes (R39, R166). -/
theorem flagEnds_vdupadd {s : State} {w : Wave} (h : Runs s w) (p : Pred) (t : EType) (d a b : VReg) :
    FlagEnds s w (.vdupadd p t d a b) (gathered s w p (raisedBy (keySum s w p t a b)))
      (flagCause w (flagLanes s w p (raisedBy (keySum s w p t a b))))
      (lanesPut s w p d (fun l => (keySum s w p t a b l).value.getD 0)) := by
  have hout : (lanesOf (w.active s.slotB p)).map (fun l => (l, foundSum (foundSums s w p t a b) l)) =
      (lanesOf (w.active s.slotB p)).map (fun l => (l, (keySum s w p t a b l).value.getD 0)) :=
    List.map_congr_left (fun l hl => by rw [foundSum_eq (lt_of_mem_lanesOf hl)])
  refine flagEnds_of_exec h (setLanes_sys ..) ?_
  change execVdupadd p t d a b s = _
  rw [execVdupadd, runWord_next _ h.wave, lanesPut, ← hout, ← flagsOf_foundSums, ← enteredFlags_eq]
  rfl

/-! ### O14: a type that no word of R164 holds -/

/-- A segmented sum whose type field holds a 16-bit type, which R164 does not list. -/
def narrowSum : SegOp := ⟨⟨false, 0⟩, .i16, 6, 4, 0, 0⟩

/-- One active lane, whose v4 holds a pattern above 16 bits, and the state in which it runs. -/
def wideLane : Wave := { Placed.theWave.setV 4 0 0x1_0000 with slotA := Slot.running 0x10000 1 none }
def wideState : State := { State.reset with waves := [wideLane] }

/-- Lane 0 of v6 in the first wave, after an outcome. -/
def lane0v6 : Out → Option W32
  | .next t => (t.wave 0).map (fun w => w.getV 6 0)
  | _ => none

/-- Refutes O14: its third clause speaks of every type that a segmented word's field could hold, while R164 lists i32, n32 and
f32 only. For a 16-bit type, which decoding refuses, the model adds whole lanes and leaves 0x1_0000 in lane 0 of v6, and the
clause takes element 0 of the lane, which is 0. Nothing else of O14 fails: `flagEnds_steps` is the third clause for every
well-formed instruction, `flagEnds_vred`, `exec_vred_idle` and `flagEnds_vdupadd` are the other three as they stand. -/
theorem not_reductions : ¬ Obligations.Reductions := by
  unfold Obligations.Reductions
  intro h
  obtain ⟨-, -, hsteps, -⟩ := h wideState wideLane ⟨rfl, rfl⟩
  obtain ⟨hdone, -⟩ := hsteps (.vsegred narrowSum) _ _ _ _ rfl
  have hlane := congrArg lane0v6 (hdone (by decide +kernel))
  exact absurd hlane (by decide +kernel)

end Sys2Proof.Proofs

namespace Sys2Proof.Proofs

open Sys2Proof Sys2Proof.Machine Sys2Proof.Claims

/-! ### Transfers of control (R48, R49, R57) -/

/-- A transfer goes on at its target, and the windows of its slot end (R57). -/
theorem finish_goTo {s : State} (w : Wave) (target : W64) (h : s.raised = []) :
    finish s (goTo s w target) = goesAt s (s.setWave s.cur (jumpTo w s.slotB target)) := by
  rw [goTo, finish_placed h, goesAt]
  simp only [Wave.updSlot, Wave.endWindows, Wave.setSlot_windows, dropDone, jumpTo, beq_iff_eq]

/-- A word that records one cause for named lanes takes it, and nothing of its effect stands (R59). -/
theorem finish_raiseLanes {s : State} {c : Cause} {lanes : W32} {detail : Nat} {addr : W64} (h : s.raised = [])
    (hd : detail ≤ 255) :
    finish s (raiseLanes s c lanes detail addr) =
      traps s { cause := c, lanes := lanes, detail := detail, addr := addr } :=
  finish_raise h (settleRaises_one _ hd)

/-- Without windows a split has no instruction to complete (R57). -/
theorem completeSlot_of_noWindows {w : Wave} (h : w.windows = []) (b : Bool) : completeSlot w b = w := by
  rw [completeSlot, h, List.foldl_nil, List.flatMap_nil, ← h]

/-- Settles O6: the cases of the statement are the branches of BR, taken in their order; a split completes no instruction, as
no window is open. -/
theorem branchAndSplit : Obligations.BranchAndSplit := by
  unfold Obligations.BranchAndSplit
  intro s w p dist off ⟨hwave, hclean⟩ hwin x y taken target r
  have hexec : exec (.br p dist off) s = _ := runWord_next _ hwave
  simp only [completeSlot_of_noWindows hwin] at hexec
  rw [hexec]
  refine ⟨fun hnone => ?_, fun hsome hall => ?_, fun hsome hpart hdist => ?_, fun hsome hpart hdist hfull => ?_,
    fun hsome hpart hdist hfree hroom => ?_, fun hsome hpart hdist hbusy hroom => ?_⟩
  · rw [if_pos hnone, finish_done hclean, goesOn, State.setWave_same hwave, goesTo]
  · rw [if_neg hsome, if_pos hall, finish_goTo w _ hclean]
    rfl
  · rw [if_neg hsome, if_neg hpart, if_pos hdist, finish_raiseLanes hclean (by decide)]
    rfl
  · rw [if_neg hsome, if_neg hpart, if_neg hdist, if_pos hfull, finish_raiseLanes hclean (by decide)]
  · have hfit : ¬ 64 < w.stack.length + if y.valid then 2 else 1 := by simp only [hfree, Bool.false_eq_true, if_false]; omega
    rw [if_neg hsome, if_neg hpart, if_neg hdist, if_neg hfit, finish_placed hclean, if_neg (by simp [y, hfree])]
    rfl
  · have hfit : ¬ 64 < w.stack.length + if y.valid then 2 else 1 := by simp only [hbusy, if_true]; omega
    rw [if_neg hsome, if_neg hpart, if_neg hdist, if_neg hfit, finish_placed hclean, if_pos hbusy]
    rfl

/-! ### Bytes outside a write -/

/-- A canonical list holds exactly the values that its keys read as. -/
theorem mem_cells_iff_get {α : Type} [DecidableEq α] {d : α} {lo : Nat} {m : Cells α} (h : Cells.wfFrom d lo m = true)
    (k : Nat) (v : α) : (k, v) ∈ m ↔ Cells.get d m k = v ∧ v ≠ d := by
  induction m generalizing lo with
  | nil => simp only [List.not_mem_nil, Cells.get, false_iff]; exact fun ⟨h1, h2⟩ => h2 h1.symm
  | cons e m ih =>
    obtain ⟨key, x⟩ := e
    obtain ⟨-, hx, hm⟩ := (Cells.wfFrom_cons ..).1 h
    have hbelow (hk : k < key + 1) : (k, v) ∉ m := fun hmem => absurd (Cells.le_of_mem hm _ hmem) (by simpa using hk)
    simp only [List.mem_cons, Prod.mk.injEq, Cells.get]
    split_ifs with heq hlt
    · have hm' := hbelow (by omega)
      simp only [heq, true_and] at hm' ⊢
      simp only [hm', or_false]
      exact ⟨fun hv => ⟨hv.symm, hv ▸ hx⟩, fun hv => hv.1.symm⟩
    · simp only [heq, false_and, hbelow (by omega), or_false, false_iff]
      exact fun ⟨h1, h2⟩ => h2 h1.symm
    · simp only [heq, false_and, false_or, ih hm]

/-- Canonical lists that hold the same values for a key read alike there. -/
theorem get_congr_of_mem {α : Type} [DecidableEq α] {d : α} {a b : Cells α} (ha : Cells.wf d a = true)
    (hb : Cells.wf d b = true) {k : Nat} (hmem : ∀ v, (k, v) ∈ a ↔ (k, v) ∈ b) : Cells.get d a k = Cells.get d b k := by
  have hiff (v : α) : Cells.get d a k = v ∧ v ≠ d ↔ Cells.get d b k = v ∧ v ≠ d := by
    rw [← mem_cells_iff_get ha, ← mem_cells_iff_get hb, hmem]
  by_cases had : Cells.get d a k = d
  · by_contra hne
    exact hne ((hiff _).2 ⟨rfl, fun hbd => hne (had.trans hbd.symm)⟩).1
  · exact (((hiff _).1 ⟨rfl, had⟩).1).symm

/-- A fill leaves every key outside its range. -/
theorem get_fill_outside {α : Type} [DecidableEq α] {d : α} {m : Cells α} (h : Cells.wf d m = true) {lo : Nat}
    {xs : List α} {k : Nat} (hk : k < lo ∨ lo + xs.length ≤ k) :
    Cells.get d (Cells.fill d m lo xs) k = Cells.get d m k := by
  refine get_congr_of_mem (Cells.wf_fill lo xs h) h (fun v => ?_)
  have hnew : (k, v) ∉ xs.mapIdx (fun j x => (lo + j, x)) := by
    simp only [List.mem_mapIdx, Prod.mk.injEq, not_exists]
    omega
  simp only [Cells.fill, List.mem_append, List.mem_filter, decide_eq_true_eq, hnew, false_and, or_false]
  exact ⟨fun hmem => hmem.elim (·.1) (·.1), fun hmem => hk.imp (⟨hmem, ·⟩) (⟨hmem, ·⟩)⟩

theorem read_writeN_outside {m : Memory} (h : m.wf = true) {pa k : Nat} {bs : List Byte}
    (hk : k < pa ∨ pa + bs.length ≤ k) : (m.writeN pa bs).read k = m.read k :=
  get_fill_outside (Memory.wf_iff.1 h).1 hk

theorem wf_putAt {m : Memory} (rs : List (Nat × Nat)) (bs : List Byte) (h : m.wf = true) : (putAt m rs bs).wf = true := by
  induction rs generalizing m bs with
  | nil => exact h
  | cons r rs ih => exact ih _ (Memory.wf_writeN _ _ h)

/-- A write of physical ranges leaves every byte outside them. -/
theorem read_putAt_outside {m : Memory} {rs : List (Nat × Nat)} (bs : List Byte) (h : m.wf = true) {pa : Nat}
    (hpa : Outside rs pa) : (putAt m rs bs).read pa = m.read pa := by
  induction rs generalizing m bs with
  | nil => rfl
  | cons r rs ih =>
    have hr : pa < r.1 ∨ r.1 + (bs.take r.2).length ≤ pa := by
      have hlen := List.length_take_le r.2 bs
      exact (hpa r (by simp)).imp_right (by omega)
    rw [putAt, ih _ (Memory.wf_writeN _ _ h) (fun q hq => hpa q (by simp [hq])), read_writeN_outside h hr]

/-- The writes of several lanes leave every byte outside them all. -/
theorem read_foldl_putAt_outside {m : Memory} (ranges : Nat → List (Nat × Nat)) (data : Nat → List Byte) (ls : List Nat)
    (h : m.wf = true) {pa : Nat} (hpa : ∀ l ∈ ls, Outside (ranges l) pa) :
    (ls.foldl (fun m l => putAt m (ranges l) (data l)) m).read pa = m.read pa := by
  induction ls generalizing m with
  | nil => rfl
  | cons l ls ih =>
    rw [List.foldl_cons, ih (wf_putAt _ _ h) (fun j hj => hpa j (by simp [hj])), read_putAt_outside _ h (hpa l (by simp))]

/-! ### Cached translations -/

/-- Two states that differ in memory and cached translations alone. -/
structure SameBesideMemory (s t : State) : Prop where
  waves : t.waves = s.waves
  others : rest t = rest s

theorem SameBesideMemory.trans {s t u : State} (h : SameBesideMemory s t) (h' : SameBesideMemory t u) :
    SameBesideMemory s u := ⟨h'.waves.trans h.waves, h'.others.trans h.others⟩

/-- A change of one element that a view does not see leaves the view of the list. -/
theorem map_updAt_of_view {α β : Type} {view : α → β} {f : α → α} (h : ∀ x, view (f x) = view x) (l : List α) (i : Nat) :
    (updAt l i f).map view = l.map view := by
  induction l generalizing i with
  | nil => rfl
  | cons x l ih => cases i <;> simp [updAt, h, ih]

/-- Keeping a translation changes caches only (R408). -/
theorem sameBesideMemory_fillCaches (s : State) (g : Agent) (p : Page) : SameBesideMemory s (fillCaches s g p) := by
  unfold fillCaches
  cases g.core with
  | none => exact ⟨rfl, rfl⟩
  | some c =>
    dsimp only
    split_ifs
    · exact ⟨rfl, rfl⟩
    · refine ⟨rfl, ?_⟩
      simp only [rest, State.updCluster, State.updCore]
      congr 1
      · apply map_updAt_of_view; exact fun _ => rfl
      · apply map_updAt_of_view; exact fun _ => rfl

theorem sameBesideMemory_fillParts (s : State) (g : Agent) (parts : List Part) : SameBesideMemory s (fillParts s g parts) :=
  foldl_keeps (P := SameBesideMemory s) _ (fun t q ht => by
    cases q.page with
    | error c => exact ht
    | ok p => exact ht.trans (sameBesideMemory_fillCaches t g p)) parts ⟨rfl, rfl⟩

/-! ### Accesses outside transactions (R58, R216, R218) -/

theorem tx_of_noTx {s : State} (h : NoTx s) {i : Nat} {w : Wave} (hw : s.wave i = some w) : w.tx = none :=
  h w (List.mem_of_getElem? hw)

theorem noTx_of_waves {s t : State} (h : NoTx s) (hw : t.waves = s.waves) : NoTx t := fun u hu => h u (hw ▸ hu)

theorem agentTx_of_noTx {s : State} (h : NoTx s) (g : Agent) : agentTx s g = none := by
  unfold agentTx
  cases g.wave with
  | none => rfl
  | some i =>
    cases hw : s.wave i with
    | none => simp only [hw]
    | some w => simp only [hw, tx_of_noTx h hw]

/-- Without transactions no access makes one abort. -/
theorem touchTx_of_noTx {s : State} (h : NoTx s) (g : Agent) (pa n : Nat) (writes : Bool) : touchTx s g pa n writes = s := by
  unfold touchTx
  dsimp only
  rw [agentTx_of_noTx h, List.filter_eq_nil_iff.2]
  · rfl
  · intro i _
    cases hw : s.wave i with
    | none => exact Bool.false_ne_true
    | some w => simp only [tx_of_noTx h hw, Bool.false_eq_true, not_false_eq_true]

/-- Without transactions no access waits for one (R220). -/
theorem serialHolds_of_noTx {s : State} (h : NoTx s) (g : Agent) (pa n : Nat) (writes : Bool) :
    serialHolds s g pa n writes = false := by
  rw [serialHolds, List.any_eq_false]
  intro i _
  cases hw : s.wave i with
  | none => exact Bool.false_ne_true
  | some w => simp only [tx_of_noTx h hw, Bool.false_eq_true, not_false_eq_true]

theorem heldByTx_of_noTx {s : State} (h : NoTx s) (g : Agent) (writes : Bool) (as : List Access) :
    heldByTx s g writes as = false := by
  simp [heldByTx, serialHolds_of_noTx h]

theorem inTx_of_noTx {s : State} (h : NoTx s) (t : State) (as : List Access) (rs : List Raise) :
    inTx s t as rs = .done t rs := by
  unfold inTx
  cases hw : s.wave s.cur with
  | none => rfl
  | some w => simp only [tx_of_noTx h hw, Option.isNone_none, if_true]

theorem writeRange_of_noTx {s : State} (h : NoTx s) (g : Agent) (pa : Nat) (bs : List Byte) :
    writeRange s g pa bs = s.writePA pa bs := by
  unfold writeRange
  dsimp only
  rw [touchTx_of_noTx h, agentTx_of_noTx h]
  cases g.wave <;> rfl

/-- Writing the ranges of one access, lowest address first. -/
theorem foldl_writeRange_of_noTx {s : State} (h : NoTx s) (g : Agent) (rs : List (Nat × Nat)) (bs : List Byte) :
    (rs.foldl (fun (acc : State × List Byte) r => (writeRange acc.1 g r.1 (acc.2.take r.2), acc.2.drop r.2)) (s, bs)).1 =
      { s with mem := putAt s.mem rs bs } := by
  induction rs generalizing s bs with
  | nil => rfl
  | cons r rs ih =>
    rw [List.foldl_cons, writeRange_of_noTx h]
    exact ih (s := s.writePA r.1 (bs.take r.2)) (noTx_of_waves h rfl) (bs.drop r.2)

/-- A write outside transactions puts its bytes into memory and keeps its translations (R58). -/
theorem writeParts_of_noTx {s : State} (h : NoTx s) (g : Agent) (parts : List Part) (bs : List Byte) :
    writeParts s g parts bs = { fillParts s g parts with mem := putAt s.mem (partRanges parts) bs } := by
  have hfill := noTx_of_waves h (sameBesideMemory_fillParts s g parts).waves
  rw [writeParts, foldl_writeRange_of_noTx hfill, agentTx_of_noTx h, fillParts_mem]
  rfl

theorem sameBesideMemory_writeParts {s : State} (h : NoTx s) (g : Agent) (parts : List Part) (bs : List Byte) :
    SameBesideMemory s (writeParts s g parts bs) := by
  rw [writeParts_of_noTx h]
  obtain ⟨hwaves, hothers⟩ := sameBesideMemory_fillParts s g parts
  exact ⟨hwaves, hothers⟩

/-- The writes of several lanes, in their order (R67). -/
theorem foldl_writeParts_of_noTx {s : State} (h : NoTx s) (g : Agent) (parts : Nat → List Part) (data : Nat → List Byte)
    (ls : List Nat) :
    let t := ls.foldl (fun t l => writeParts t g (parts l) (data l)) s
    SameBesideMemory s t ∧ t.mem = ls.foldl (fun m l => putAt m (partRanges (parts l)) (data l)) s.mem := by
  induction ls generalizing s with
  | nil => exact ⟨⟨rfl, rfl⟩, rfl⟩
  | cons l ls ih =>
    have hone := sameBesideMemory_writeParts h g (parts l) (data l)
    obtain ⟨hsame, hmem⟩ := ih (noTx_of_waves h hone.waves)
    refine ⟨hone.trans hsame, ?_⟩
    rw [List.foldl_cons, hmem, List.foldl_cons, writeParts_of_noTx h]

/-! ### Elements that record no cause (R201, R202, R407) -/

/-- The lanes of an element name themselves in its causes and nothing else. -/
theorem partRaises_lanes (lanes : W32) (parts : List Part) :
    partRaises lanes parts = (partRaises 1 parts).map (fun r => { r with lanes := lanes }) := by
  rw [partRaises, partRaises, List.map_filterMap]
  congr 1
  funext q
  cases q.page <;> rfl

theorem mediumRaises_lanes (s : State) (lanes : W32) (reads : Bool) (parts : List Part) :
    mediumRaises s lanes reads parts = (mediumRaises s 1 reads parts).map (fun r => { r with lanes := lanes }) := by
  rw [mediumRaises, mediumRaises, List.map_flatten, List.map_map]
  congr 2
  funext q
  cases hq : q.page with
  | error c => simp only [Function.comp_apply, hq, List.map_nil]
  | ok p =>
    simp only [Function.comp_apply, hq, List.map_append]
    split_ifs <;> rfl

/-- An element of global memory that is clear is performed. -/
theorem globalAccess_of_clear {s : State} {w : Wave} {need : Need} {va n align : Nat} (h : Claims.Clear s w need va n align)
    (l : Nat) (mask : W32) (straddles : Bool) :
    globalAccess s (waveAgent w s.cur) l mask need va n align straddles = ⟨l, va, partsAt s w need va n, []⟩ := by
  obtain ⟨halign, hparts, hmedium⟩ := h
  unfold partsAt at *
  rw [globalAccess, partRaises_lanes, mediumRaises_lanes, hparts, hmedium]
  simp [halign]

/-- An element of the scratchpad in reach, on no poison when it is read, is performed. -/
theorem scratchAccess_of_reaches {s : State} {w : Wave} {reads : Bool} {off n align : Nat} (halign : off % align = 0)
    (hreach : reaches (scratchRanges s s.cur) off n = true)
    (hpoison : reads = true → (s.core w.place.core).spPoison off n = none) (l : Nat) (mask : W32) :
    scratchAccess s w l mask reads off n align = ⟨l, off, [], []⟩ := by
  cases reads
  · simp [scratchAccess, reachRaises, halign, hreach]
  · simp [scratchAccess, reachRaises, halign, hreach, hpoison rfl]

/-- The elements of a form, with `g` the checks of an element. -/
def formAccesses (f : Form) (s : State) (w : Wave) (g : Nat → W32 → Nat → Access) : List Access :=
  if f.scalar then scalarAccesses s w f.p f.chk (w.getS f.base.toNat) (f.term w 0) f.size g
  else vecAccesses s w f.p f.chk (w.getS f.base.toNat) (f.term w) f.size g

/-- Elements within BOUND meet the checks of their memory alone (R45). -/
theorem formAccesses_eq_map {f : Form} {s : State} {w : Wave} {g : Nat → W32 → Nat → Access} {access : Nat → Access}
    (hactive : w.active s.slotB f.p ≠ 0)
    (hbound : ∀ l ∈ f.lanes s w, f.chk = true → (f.term w l).toNat + f.size ≤ w.sys.bound.toNat)
    (hg : ∀ l ∈ f.lanes s w, ∀ mask, g l mask (f.at w l) = access l) :
    formAccesses f s w g = (f.lanes s w).map access := by
  have hone (l : Nat) (hl : l ∈ f.lanes s w) (mask : W32) :
      boundAccess w f.chk l mask (f.term w l).toNat f.size (f.at w l) (fun _ => g l mask (f.at w l)) = access l := by
    rw [boundAccess, if_neg, hg l hl]
    simpa using hbound l hl
  unfold formAccesses
  split_ifs with hscalar
  · have hlanes : f.lanes s w = [0] := if_pos hscalar
    rw [scalarAccesses, if_neg hactive, hlanes, List.map_singleton, ← hone 0 (by simp [hlanes]) (w.active s.slotB f.p)]
    rfl
  · have hlanes : f.lanes s w = lanesOf (w.active s.slotB f.p) := if_neg hscalar
    rw [vecAccesses, hlanes]
    exact List.map_congr_left (fun l hl => hone l (hlanes ▸ hl) (laneBit l))

/-! ### The store words (R199 to R206) -/

theorem widthBytes_eq (w : Width) : widthBytes w = Width.bytes w := by cases w <;> rfl

/-- The check of an element that a store writes. -/
def storeAccess (f : Form) (s : State) (w : Wave) (scratch : Bool) (l : Nat) (mask : W32) (va : Nat) : Access :=
  if scratch then scratchAccess s w l mask false va f.size f.align
  else globalAccess s (waveAgent w s.cur) l mask .write va f.size f.align false

theorem fromScalar_eq_leBytes (w : Wave) (d : SReg) (n : Nat) : fromScalar w d n = leBytes n (w.getS d.toNat).toNat := by
  simp only [fromScalar, leBytes, Nat.pow_mul, Nat.reducePow]

/-- The bytes of 32-bit values, four of each, in one row. -/
theorem flatMap_leBytes_eq_map (g : Nat → Nat) (n : Nat) :
    (List.range n).flatMap (fun j => leBytes 4 (g j)) =
      (List.range (4 * n)).map (fun k => BitVec.ofNat 8 (g (k / 4) / 256 ^ (k % 4))) := by
  induction n with
  | zero => rfl
  | succ n ih =>
    have hlast : (List.range 4).map (fun k => BitVec.ofNat 8 (g ((4 * n + k) / 4) / 256 ^ ((4 * n + k) % 4))) =
        leBytes 4 (g n) :=
      List.map_congr_left (fun k hk => by
        have hk4 := List.mem_range.1 hk
        rw [show (4 * n + k) / 4 = n by omega, show (4 * n + k) % 4 = k by omega])
    rw [List.range_succ, List.flatMap_append, ih, Nat.mul_succ, List.range_add, List.map_append, List.map_map,
      List.flatMap_singleton, ← hlast]
    rfl

/-- The bytes of a vector element, register after register (R205). -/
theorem fromVec_eq_vecBytes (w : Wave) (d : VReg) (n : Nat) : fromVec w d n = vecBytes w d n := by
  funext l
  rw [fromVec, vecBytes, flatMap_leBytes_eq_map (fun j => (w.getV (d.toNat + j) l).toNat), ← List.map_take, List.take_range,
    Nat.min_eq_left (by omega)]
  simp only [Nat.pow_mul, Nat.reducePow]

/-- Every store word is a store of the elements of its form. -/
theorem exec_store {s : State} {w : Wave} {i : Instr} {f : Form} {data : Wave → Nat → List Byte} {scratch : Bool}
    (hwave : s.wave s.cur = some w) (h : stores i = some (f, data, scratch)) :
    exec i s = finish s (storeWord s w scratch (data w) (formAccesses f s w (storeAccess f s w scratch))) := by
  unfold stores at h
  simp only [widthBytes_eq] at h
  split at h <;> cases h
  all_goals
    simp only [fromVec_eq_vecBytes, fromScalar_eq_leBytes]
    exact runWord_next _ hwave

theorem updAt_updAt {α : Type} (l : List α) (i : Nat) (f g : α → α) :
    updAt (updAt l i f) i g = updAt l i (fun x => g (f x)) := by
  refine List.ext_getElem? (fun j => ?_)
  simp only [getElem?_updAt]
  split_ifs <;> simp [Function.comp_def]

theorem updAt_id {α : Type} (l : List α) (i : Nat) : updAt l i (fun x => x) = l := by
  refine List.ext_getElem? (fun j => ?_)
  simp [getElem?_updAt]

/-- Changes of one core in turn are one change of it. -/
theorem foldl_updCore {α : Type} (s : State) (c : Nat) (f : Core → α → Core) (xs : List α) :
    xs.foldl (fun t x => t.updCore c (fun k => f k x)) s = s.updCore c (fun k => xs.foldl f k) := by
  induction xs generalizing s with
  | nil => simp only [List.foldl_nil, State.updCore, updAt_id]
  | cons x xs ih =>
    rw [List.foldl_cons, ih, State.updCore, State.updCore_cores, updAt_updAt]
    rfl

/-- A store outside transactions whose elements are all performed (R67, R203). -/
theorem storeWord_global {s : State} (h : NoTx s) (w : Wave) (data : Nat → List Byte) (ls : List Nat) (va : Nat → Nat)
    (parts : Nat → List Part) :
    storeWord s w false data (ls.map (fun l => ⟨l, va l, parts l, []⟩)) =
      .done (ls.foldl (fun t l => writeParts t (waveAgent w s.cur) (parts l) (data l)) s) [] := by
  simp [storeWord, heldByTx_of_noTx h, inTx_of_noTx h, performed, allRaises, List.filter_map, List.foldl_map, Function.comp_def]

theorem storeWord_scratch {s : State} (h : NoTx s) (w : Wave) (data : Nat → List Byte) (ls : List Nat) (off : Nat → Nat) :
    storeWord s w true data (ls.map (fun l => ⟨l, off l, [], []⟩)) =
      .done (s.updCore w.place.core (fun c => ls.foldl (fun c l => c.spWrite (off l) (data l)) c)) [] := by
  simp [storeWord, inTx_of_noTx h, performed, allRaises, List.filter_map, List.foldl_map, Function.comp_def, foldl_updCore]

/-- Settles O19: the elements of the form are all performed, so the word writes them lane after lane, and outside transactions
a write changes memory and cached translations alone. -/
theorem storeWords : Obligations.StoreWords := by
  unfold Obligations.StoreWords
  intro s w i f data ⟨hwave, hclean⟩ hnotx
  refine ⟨fun hstore ⟨hactive, hclear⟩ => ?_, fun hstore ⟨hactive, hreach⟩ => ?_⟩
  · have hperformed := formAccesses_eq_map (g := storeAccess f s w false) hactive (fun l hl => (hclear l hl).1)
      (fun l hl mask => globalAccess_of_clear (hclear l hl).2 l mask false)
    obtain ⟨⟨hwaves, hrest⟩, hmem⟩ := foldl_writeParts_of_noTx hnotx (waveAgent w s.cur)
      (fun l => partsAt s w .write (f.at w l) f.size) (data w) (f.lanes s w)
    refine ⟨_, ?_, hwaves, hrest, hmem, fun hwf pa hpa => ?_⟩
    · rw [exec_store hwave hstore, hperformed, storeWord_global hnotx, finish_done hclean]
      rfl
    · rw [hmem]
      exact read_foldl_putAt_outside _ _ _ hwf hpa
  · have hperformed := formAccesses_eq_map (g := storeAccess f s w true) hactive (fun l hl => (hreach l hl).1)
      (fun l hl mask =>
        have ⟨_, halign, hin, hpoison⟩ := hreach l hl
        scratchAccess_of_reaches halign hin hpoison l mask)
    rw [exec_store hwave hstore, hperformed, storeWord_scratch hnotx, finish_done hclean]
    rfl

end Sys2Proof.Proofs
